-- ==== Sys2Proof/Word.lean ====
section
/-!
DEFINITION. The word types of the IK96: registers are 32 bits wide (spec/00_scope.md R4), memories are bytes.
-/

namespace Sys2Proof

/-- A register or a vector lane (R4, R118). -/
abbrev Word := BitVec 32
/-- One byte of a memory, an image or a payload. -/
abbrev Byte := BitVec 8
/-- A sparse store: entries by rising key, none equal to what an unlisted key reads as. -/
abbrev SMap (α : Type) := List (Nat × α)
/-- An instant or a span of network time, in units of 1/(96 * 2^41) ns, in which one tick at rate 0 is exact (R258). -/
abbrev NetTime := Nat

end Sys2Proof
end

