-- ==== Sys2Proof/Syntax.lean ====
section
/-!
DEFINITION. The commands of the IK96: one constructor for each row of spec/opcode_table.json, with the data that come with it from
outside the device (a written value, a received frame, a measured quantity) as operands.
-/

namespace Sys2Proof

/-- An occurrence of an Umpire source's condition (spec/14_faults_thermal.md R341, R349): its count, master, access type,
address and detail. -/
structure Occ where
  src : Nat
  m : Nat := 1
  master : Nat := 255
  access : Nat := 0
  addr : Nat := 0
  detail : Nat := 0
deriving DecidableEq, Repr

/-- What the entries that a crossing FIFO's resynchronisation discards held (R333): the data of a command, and frames of each Korotte lane. -/
structure FifoLoss where
  cmd : Option (Fin 4096) := none
  frames : List (Fin 8 × BitVec 16) := []
deriving DecidableEq, Repr

/-- What fell below its threshold at a POR (R358, R389): not every supply, every supply for less than 1 ms, or every supply for at least that. -/
inductive SupplyFall where
  | part | short | full
deriving DecidableEq, Repr

/-- A word and its byte enables (R376). -/
structure MaskedWord where
  v : BitVec 32
  be : BitVec 4 := 15#4
deriving DecidableEq, Repr

/-- Who reads or writes a register: each has its own copy of indirection registers and latches (R380, R381). -/
inductive Requester where
  | host | supervisors | jtag
deriving DecidableEq, Repr

/-- A clock that becomes good or is lost (Table CK-1, R328): a reference, a PLL, or one domain. -/
inductive ClockId where
  | refclk | root | serdes
  | domain (d : Fin 60)
deriving DecidableEq, Repr

/-- A raw monitor sample of one lane frame: EML lane, slot 0-127, 14-bit code of the slice (R78). -/
structure RawSample where
  lane : Fin 192
  slot : Fin 128
  raw : BitVec 14
deriving DecidableEq, Repr

/-- What a patrol or a read finds in one word or line: nothing wrong, an error that was corrected, or one that cannot be. -/
inductive MemErr where
  | none | corrected | uncorrectable
deriving DecidableEq, Repr

/-- Who reads an HBM line, its master ID and access type (R349), and the telemetry frame, by queue and place, that lies on the line in the overflow
area. -/
structure HbmReader where
  master : Nat := 255
  access : Nat := 1
  pkt : Option (Nat × Nat) := none
deriving DecidableEq, Repr

/-- What the patrol finds in an HBM line: nothing wrong, errors that the stack's inner code or the outer code corrected, or more; then with the
telemetry frame that lies on the line (R307). -/
inductive HbmFound where
  | none | inner | corrected
  | uncorrectable (pkt : Option (Nat × Nat))
deriving DecidableEq, Repr

/-- One conversion of a temperature sensor (spec/14_faults_thermal.md R354, R355): a diode's temperature in sixteenths of a degree,
its forward voltage in mV and series resistance in ohm; a thermistor's 12-bit ratio to VDDA_18, in 1/4,096 (R392); an on-die temperature and
whether its self-check passes. -/
inductive Conversion where
  | diode (t : BitVec 16) (mv ohm : BitVec 16)
  | thermistor (x : BitVec 12)
  | onDie (t : BitVec 16) (ok : Bool)
deriving DecidableEq, Repr

/-- Which conditions of R92 a measurement of a bias channel shows to have held for 100 µs: those of IN_COMPL and those of OPEN_LOAD. -/
structure BcoHeld where
  compl : Bool
  open_ : Bool
deriving DecidableEq, Repr

/-- A submission entry (spec/09_command_set.md Table CS-1). -/
structure Entry where
  opcode : BitVec 16
  cid : BitVec 16
  flags : BitVec 16 := 0#16
  rsv6 : BitVec 16 := 0#16
  length : BitVec 32 := 0#32
  count : BitVec 32 := 0#32
  dataAddr : BitVec 64 := 0#64
  respAddr : BitVec 64 := 0#64
  respLen : BitVec 32 := 0#32
  rsv36 : BitVec 32 := 0#32
  time : BitVec 64 := 0#64
  p0 : BitVec 32 := 0#32
  p1 : BitVec 32 := 0#32
  p2 : BitVec 32 := 0#32
  p3 : BitVec 32 := 0#32
deriving DecidableEq, Repr

/-- What the fetch of a payload from host memory brings: its bytes, or an error after that many (Table CS-5 row 9). -/
inductive Dma where
  | bytes (l : List (BitVec 8))
  | error (off : Nat)
deriving DecidableEq, Repr

/-- A route the search found for the connection to an output: bit k is the state of its cell in stage k. -/
structure RouteOut where
  out : Fin 1024
  bits : BitVec 24
deriving DecidableEq, Repr

/-- A way to route a request that the search met (spec/07_reconfiguration.md R177): the stage that admits it, the routes it gives, and the
outputs whose connections it removes. -/
structure RouteCand where
  stage : Fin 3
  routes : List RouteOut
  removed : List (Fin 1024) := []
deriving DecidableEq, Repr

/-- What the route search met for one request (R177, R179): the ways to route it; where there is none, outputs whose removal
would let it be routed, and the way that then routes it. -/
structure RouteAnswer where
  met : List RouteCand := []
  blockers : List (Fin 1024) := []
  without : Option RouteCand := none
deriving DecidableEq, Repr

/-- What the fit of a characterisation gives (spec/06_standard_loop.md Table SL-5, R164): RMS residual, G, the linearisation table, and whether a
heater step up lowers the drive that holds the element. -/
structure CalFit where
  rms : BitVec 32
  gain : BitVec 32
  table : List (BitVec 32)
  heatUp : Bool
deriving DecidableEq, Repr

/-- Where a command datagram comes from (spec/09_command_set.md R243, R244): the secure channel of a MAC, with the UDP source, or a Korotte
device. -/
inductive Source where
  | sci (mac : Fin 16) (id : BitVec 64) (v6 : Bool) (ip : BitVec 128) (port : BitVec 16)
  | korotte (addr : Fin 16384)
deriving DecidableEq, Repr

/-! Operands of the Gloit set (spec/05_gloit_isa.md Tables GI-2 to GI-11). Their types admit only what Table GI-9 admits,
but for the few bounds that `WellFormed` checks. -/

/-- Execution mask (R121): every lane, or a predicate register 1-7, inverted or not. -/
inductive Mask where
  | all
  | pred (p : Fin 7) (inv : Bool)
deriving DecidableEq, Repr

/-- A last vector source: a V register or a broadcast immediate (R123). -/
inductive VSrc where
  | reg (r : Fin 32)
  | imm (w : BitVec 32)
deriving DecidableEq, Repr

/-- A last scalar source: an S register or an immediate. -/
inductive SSrc where
  | reg (r : Fin 32)
  | imm (w : BitVec 32)
deriving DecidableEq, Repr

/-- A shift count: the low five bits of an S register, or an immediate. -/
inductive ShSrc where
  | reg (r : Fin 32)
  | imm (n : Fin 32)
deriving DecidableEq, Repr

/-- Compare conditions, in the order of ccc (Table GI-5). -/
inductive Cmp where
  | eq | ne | lt | le | gt | ge | ord | unord
deriving DecidableEq, Repr

/-- Branch conditions with the scalar registers each uses (Table GI-7). -/
inductive BrCond where
  | al
  | eqz (a : Fin 32)
  | nez (a : Fin 32)
  | lt (a b : Fin 32)
  | ge (a b : Fin 32)
  | eq (a b : Fin 32)
  | ne (a b : Fin 32)
  | ltu (a b : Fin 32)
  | geu (a b : Fin 32)
deriving DecidableEq, Repr

/-- Special-register selectors (Table GI-6). -/
inductive SpecReg where
  | gb | frame | engine | rot | spev | cycle
deriving DecidableEq, Repr

/-- Flags selected by an IN.MON (Table GI-10). -/
structure FlagSel where
  missing : Bool
  sat : Bool
  frozen : Bool
  stale : Bool
  hold : Bool
deriving DecidableEq, Repr

/-- Frequency part of a TONE, with its KIND (Table GI-11): the present frequency, Hz in Vf, or a plan index in Vf. -/
inductive ToneFreq where
  | keep (pilot : Bool)
  | hz (pilot : Bool)
  | ditherPlan (step : BitVec 24)
  | pilotPlan
deriving DecidableEq, Repr

/-- A Gloit instruction (Table GI-3). -/
inductive GOp where
  | nop | end_ | grp | gnext
  | br (c : BrCond) (target : BitVec 12)
  | evt (m : Mask) (code : BitVec 16)
  | rdsr (d : Fin 32) (sel : SpecReg)
  | fadd (m : Mask) (d a : Fin 32) (b : VSrc)
  | fsub (m : Mask) (d a : Fin 32) (b : VSrc)
  | fmul (m : Mask) (d a : Fin 32) (b : VSrc)
  | fma (m : Mask) (d a b : Fin 32) (c : VSrc)
  | fms (m : Mask) (d a b : Fin 32) (c : VSrc)
  | fmin (m : Mask) (d a : Fin 32) (b : VSrc)
  | fmax (m : Mask) (d a : Fin 32) (b : VSrc)
  | fclamp (m : Mask) (d a b : Fin 32) (c : VSrc)
  | fabs (m : Mask) (d a : Fin 32)
  | fneg (m : Mask) (d a : Fin 32)
  | frcp (m : Mask) (d a : Fin 32)
  | frsq (m : Mask) (d a : Fin 32)
  | vmov (m : Mask) (d a : Fin 32)
  | vmovI (m : Mask) (d : Fin 32) (w : BitVec 32)
  | vidx (m : Mask) (d : Fin 32)
  | fcmp (cc : Cmp) (m : Mask) (d : Fin 8) (a b : Fin 32)
  | fcmpI (cc : Cmp) (m : Mask) (d : Fin 8) (a : Fin 32) (w : BitVec 32)
  | sel (m : Mask) (d a b : Fin 32) (c : Fin 8)
  | pand (d a b : Fin 8)
  | por (d a b : Fin 8)
  | pxor (d a b : Fin 8)
  | pandn (d a b : Fin 8)
  | pset (d : Fin 8) (v : BitVec 16)
  | pmovs (d : Fin 32) (a : Fin 8)
  | pmovp (d : Fin 8) (a : Fin 32)
  | vbc (m : Mask) (d a : Fin 32)
  | vext (d a : Fin 32) (lane : Fin 16)
  | add (d a : Fin 32) (b : SSrc)
  | sub (d a : Fin 32) (b : SSrc)
  | and_ (d a : Fin 32) (b : SSrc)
  | or_ (d a : Fin 32) (b : SSrc)
  | xor_ (d a : Fin 32) (b : SSrc)
  | shl (d a : Fin 32) (b : ShSrc)
  | shr (d a : Fin 32) (b : ShSrc)
  | sar (d a : Fin 32) (b : ShSrc)
  | mul (d a : Fin 32) (b : SSrc)
  | slt (d a : Fin 32) (b : SSrc)
  | sltu (d a : Fin 32) (b : SSrc)
  | movi (d : Fin 32) (w : BitVec 32)
  | ld (m : Mask) (d : Fin 32) (w : Fin 128)
  | st (m : Mask) (a : Fin 32) (w : Fin 128)
  | lds (d : Fin 32) (lane : Fin 16) (w : Fin 128)
  | tld (d a : Fin 32) (ofs : BitVec 32)
  | inMon (m : Mask) (d : Fin 32) (point volts : Bool) (fout : Option (Fin 8 × FlagSel))
  | outDrv (m : Mask) (a : Fin 32)
  | tone (m : Mask) (f : ToneFreq) (wa wp : Bool) (vf vamp vph : Fin 32)
  | lut (m : Mask) (d a : Fin 32)
deriving DecidableEq, Repr

/-! ## Huddle messages (spec/08_huddle.md R220) -/

/-- The header of a Huddle message (Table HD-5) and the SRC address of its frame. -/
structure HdlHead where
  src : Fin 16384
  sender : Fin 1024
  state : Fin 16
  group : BitVec 32
  time : BitVec 64
deriving DecidableEq, Repr

/-- Body of a PREPARE fragment (Table HD-6): fragment 0 of `count` with the group's parameters, or a later one with entries. -/
inductive PrepFrag where
  | params (count : Fin 4) (g w lat rtx : BitVec 16) (entries : BitVec 16) (crc : BitVec 32) (members : List (Fin 16384))
  | entries (index count : Fin 4) (l : List (BitVec 64))
deriving DecidableEq, Repr

/-! ## PTP messages (spec/10_network_time.md R260-R264) -/

/-- How a PTP message travels: IEEE 802.3 Ethernet, UDP/IPv4 or UDP/IPv6 (Table TM-1; PP_CTRL.TRANSPORT). -/
inductive PtpTransport where
  | ethernet | udp4 | udp6
deriving DecidableEq, Repr

/-- Where a PTP message is addressed: the group that is forwarded, 01-1B-19-00-00-00 or 224.0.1.129 or FF0E::181; the group that is not,
01-80-C2-00-00-0E or 224.0.0.107 or FF02::6B; or one port (Table TM-1, R282; IEEE 1588-2019 Annexes C to E). -/
inductive PtpDest where
  | forwardable | linkLocal | unicast
deriving DecidableEq, Repr

/-- What a PTP message needs beyond the subset's event and general messages (Table TM-1, last row). -/
inductive PtpOption where
  | plain | management | signalling | unicastNegotiation | annexP
deriving DecidableEq, Repr

/-- What every received PTP message carries: the port, the clockIdentity of its sender, its domain and sequence number, its correctionField
in units of 2^-16 ns, whether it came over the secure channel, its transport and destination, the option it needs, and the root cycles since
the last tick. -/
structure PtpHead where
  port : Fin 2
  master : BitVec 64
  domain : BitVec 8
  seq : BitVec 16
  corr : Int
  secure : Bool
  transport : PtpTransport
  dest : PtpDest
  option : PtpOption
  sub : Fin 8
deriving DecidableEq, Repr

/-- A Sync with its originTimestamp, in ns; a two-step Sync; the Follow_Up of one. -/
inductive SyncBody where
  | oneStep (origin : Nat)
  | twoStep
  | followUp (origin : Nat)
deriving DecidableEq, Repr

/-- A Delay_Resp with its receiveTimestamp, in ns; a one-step Pdelay_Resp. -/
inductive DelayBody where
  | delayResp (receive : Nat)
  | pdelayResp
deriving DecidableEq, Repr

/-- The dataset of an Announce. -/
structure GmData where
  prio1 : BitVec 8
  cls : BitVec 8
  accuracy : BitVec 8
  variance : BitVec 16
  prio2 : BitVec 8
  gm : BitVec 64
  steps : BitVec 16
  utcOffset : BitVec 16
deriving DecidableEq, Repr

/-- What the offset loop makes of a measurement: the filtered offset, in units of 0.0625 ns, and the rate it asks for, in units of 2^-41;
R266 gives the loop by its bandwidth and peaking alone. -/
structure Servo where
  filtered : BitVec 32
  rate : BitVec 32
deriving DecidableEq, Repr

/-! ## Ethernet frames received (spec/11_telemetry_traffic.md R281-R285) -/

/-- What a received frame carries, as far as the uncontrolled port and the ingress buffer tell kinds apart. -/
inductive RxKind where
  | ptp | mka | arp | nd | command | tunnel | other
deriving DecidableEq, Repr

/-- A received frame: bytes from destination address through FCS without SecTAG and ICV, its PCP, whether its FCS holds; with a SecTAG its SCI,
its AN, its packet number and whether the ICV holds; whether a word of the packet buffer that holds it reads uncorrectable (R311). -/
structure EthRx where
  bytes : Nat
  prio : Fin 8
  fcsOk : Bool
  kind : RxKind
  sec : Option (BitVec 64 × Fin 4 × Nat × Bool)
  bufBad : Bool := false
deriving DecidableEq, Repr

/-- Uncorrectable FEC codewords with a received Korotte frame, and whether a word of the packet buffer that holds it reads uncorrectable (R311). -/
structure RxFault where
  codewords : Nat
  bufBad : Bool := false
deriving DecidableEq, Repr

/-- What an MKA exchange with live peers gives (IEEE 802.1X-2020 clause 9): their key server priorities and SCIs, whether a new SAK is installed
and under which AN, and the live receive channels. -/
structure MkaResult where
  peers : List (BitVec 8 × BitVec 64)
  newSak : Option (Fin 4)
  scs : List (BitVec 64)
deriving DecidableEq, Repr

/-- The TAG and size of the frame that carries a command: PCP and DEI where it is tagged, and bytes as R300 counts them. -/
structure DgramFrame where
  bytes : Nat
  pcp : Option (Fin 8 × Bool)
deriving DecidableEq, Repr

/-- The commands of the device (spec/opcode_table.json). -/
inductive Instr where
  /-- NOP (R123): engine e issues NOP. -/
  | nop (e : Fin 96)
  /-- END (R137): engine e issues END. -/
  | end_ (e : Fin 96)
  /-- GRP (R135): engine e issues GRP. -/
  | grp (e : Fin 96)
  /-- GNEXT (R135): engine e issues GNEXT. -/
  | gnext (e : Fin 96)
  /-- BR (R136): engine e issues BR. -/
  | br (e : Fin 96) (c : BrCond) (target : BitVec 12)
  /-- EVT (R138): engine e issues EVT. -/
  | evt (e : Fin 96) (m : Mask) (code : BitVec 16)
  /-- RDSR (R132): engine e issues RDSR. -/
  | rdsr (e : Fin 96) (d : Fin 32) (sel : SpecReg)
  /-- FADD (R126): engine e issues FADD. -/
  | fadd (e : Fin 96) (m : Mask) (d a : Fin 32) (b : VSrc)
  /-- FSUB (R126): engine e issues FSUB. -/
  | fsub (e : Fin 96) (m : Mask) (d a : Fin 32) (b : VSrc)
  /-- FMUL (R126): engine e issues FMUL. -/
  | fmul (e : Fin 96) (m : Mask) (d a : Fin 32) (b : VSrc)
  /-- FMA (R126): engine e issues FMA. -/
  | fma (e : Fin 96) (m : Mask) (d a b : Fin 32) (c : VSrc)
  /-- FMS (R126): engine e issues FMS. -/
  | fms (e : Fin 96) (m : Mask) (d a b : Fin 32) (c : VSrc)
  /-- FMIN (R126): engine e issues FMIN. -/
  | fmin (e : Fin 96) (m : Mask) (d a : Fin 32) (b : VSrc)
  /-- FMAX (R126): engine e issues FMAX. -/
  | fmax (e : Fin 96) (m : Mask) (d a : Fin 32) (b : VSrc)
  /-- FCLAMP (R126): engine e issues FCLAMP. -/
  | fclamp (e : Fin 96) (m : Mask) (d a b : Fin 32) (c : VSrc)
  /-- FABS (R126): engine e issues FABS. -/
  | fabs (e : Fin 96) (m : Mask) (d a : Fin 32)
  /-- FNEG (R126): engine e issues FNEG. -/
  | fneg (e : Fin 96) (m : Mask) (d a : Fin 32)
  /-- FRCP (R127): engine e issues FRCP. -/
  | frcp (e : Fin 96) (m : Mask) (d a : Fin 32)
  /-- FRSQ (R127): engine e issues FRSQ. -/
  | frsq (e : Fin 96) (m : Mask) (d a : Fin 32)
  /-- VMOV (R125): engine e issues VMOV. -/
  | vmov (e : Fin 96) (m : Mask) (d a : Fin 32)
  /-- VMOV_I (R125): engine e issues VMOV.I. -/
  | vmovI (e : Fin 96) (m : Mask) (d : Fin 32) (w : BitVec 32)
  /-- VIDX (R126): engine e issues VIDX. -/
  | vidx (e : Fin 96) (m : Mask) (d : Fin 32)
  /-- FCMP (R128): engine e issues FCMP. -/
  | fcmp (e : Fin 96) (cc : Cmp) (m : Mask) (d : Fin 8) (a b : Fin 32)
  /-- FCMP_I (R128): engine e issues FCMP.I. -/
  | fcmpI (e : Fin 96) (cc : Cmp) (m : Mask) (d : Fin 8) (a : Fin 32) (w : BitVec 32)
  /-- SEL (R129): engine e issues SEL. -/
  | sel (e : Fin 96) (m : Mask) (d a b : Fin 32) (c : Fin 8)
  /-- PAND (R129): engine e issues PAND. -/
  | pand (e : Fin 96) (d a b : Fin 8)
  /-- POR (R129): engine e issues POR. -/
  | por (e : Fin 96) (d a b : Fin 8)
  /-- PXOR (R129): engine e issues PXOR. -/
  | pxor (e : Fin 96) (d a b : Fin 8)
  /-- PANDN (R129): engine e issues PANDN. -/
  | pandn (e : Fin 96) (d a b : Fin 8)
  /-- PSET (R129): engine e issues PSET. -/
  | pset (e : Fin 96) (d : Fin 8) (v : BitVec 16)
  /-- PMOVS (R129): engine e issues PMOVS. -/
  | pmovs (e : Fin 96) (d : Fin 32) (a : Fin 8)
  /-- PMOVP (R129): engine e issues PMOVP. -/
  | pmovp (e : Fin 96) (d : Fin 8) (a : Fin 32)
  /-- VBC (R131): engine e issues VBC. -/
  | vbc (e : Fin 96) (m : Mask) (d a : Fin 32)
  /-- VEXT (R131): engine e issues VEXT. -/
  | vext (e : Fin 96) (d a : Fin 32) (lane : Fin 16)
  /-- ADD (R130): engine e issues ADD. -/
  | add (e : Fin 96) (d a : Fin 32) (b : SSrc)
  /-- SUB (R130): engine e issues SUB. -/
  | sub (e : Fin 96) (d a : Fin 32) (b : SSrc)
  /-- AND (R130): engine e issues AND. -/
  | and_ (e : Fin 96) (d a : Fin 32) (b : SSrc)
  /-- OR (R130): engine e issues OR. -/
  | or_ (e : Fin 96) (d a : Fin 32) (b : SSrc)
  /-- XOR (R130): engine e issues XOR. -/
  | xor_ (e : Fin 96) (d a : Fin 32) (b : SSrc)
  /-- SHL (R130): engine e issues SHL. -/
  | shl (e : Fin 96) (d a : Fin 32) (b : ShSrc)
  /-- SHR (R130): engine e issues SHR. -/
  | shr (e : Fin 96) (d a : Fin 32) (b : ShSrc)
  /-- SAR (R130): engine e issues SAR. -/
  | sar (e : Fin 96) (d a : Fin 32) (b : ShSrc)
  /-- MUL (R130): engine e issues MUL. -/
  | mul (e : Fin 96) (d a : Fin 32) (b : SSrc)
  /-- SLT (R130): engine e issues SLT. -/
  | slt (e : Fin 96) (d a : Fin 32) (b : SSrc)
  /-- SLTU (R130): engine e issues SLTU. -/
  | sltu (e : Fin 96) (d a : Fin 32) (b : SSrc)
  /-- MOVI (R130): engine e issues MOVI. -/
  | movi (e : Fin 96) (d : Fin 32) (w : BitVec 32)
  /-- LD (R133): engine e issues LD. -/
  | ld (e : Fin 96) (m : Mask) (d : Fin 32) (w : Fin 128)
  /-- ST (R133): engine e issues ST. -/
  | st (e : Fin 96) (m : Mask) (a : Fin 32) (w : Fin 128)
  /-- LDS (R133): engine e issues LDS. -/
  | lds (e : Fin 96) (d : Fin 32) (lane : Fin 16) (w : Fin 128)
  /-- TLD (R134): engine e issues TLD. -/
  | tld (e : Fin 96) (d a : Fin 32) (ofs : BitVec 32)
  /-- IN_MON (R139): engine e issues IN.MON. -/
  | inMon (e : Fin 96) (m : Mask) (d : Fin 32) (point volts : Bool) (fout : Option (Fin 8 × FlagSel))
  /-- OUT_DRV (R140): engine e issues OUT.DRV. -/
  | outDrv (e : Fin 96) (m : Mask) (a : Fin 32)
  /-- TONE (R141): engine e issues TONE. -/
  | tone (e : Fin 96) (m : Mask) (f : ToneFreq) (wa wp : Bool) (vf vamp vph : Fin 32)
  /-- LUT (R142): engine e issues LUT. -/
  | lut (e : Fin 96) (m : Mask) (d a : Fin 32)
  /-- LANE_FRAME_START (R32): a lane frame begins, `sub` root cycles after the last tick; the raw monitor samples converted in it. -/
  | laneFrameStart (sub : Fin 8) (samples : List RawSample)
  /-- ENGINE_FRAME_START (R96): an engine frame begins. -/
  | engineFrameStart
  /-- ENGINE_OVERRUN (R104): the frame of engine e ends with an instruction unissued. -/
  | engineOverrun (e : Fin 96)
  /-- INSTR_FETCH_UE (R116): instruction n of engine e's active bank is due and cannot be read. -/
  | instrFetchUe (e : Fin 96) (n : BitVec 12)
  /-- SEED_DONE (R108): the SEED copy of engine e completes. -/
  | seedDone (e : Fin 96)
  /-- ECT_ELEMENT_UPDATE (R114): element n's new table goes into the shadow. -/
  | ectElementUpdate (n : Fin 10752)
  /-- ECT_MIRROR_LOAD (R114): the mirror slice of cluster c is copied and checked, and whether the check passes. -/
  | ectMirrorLoad (c : Fin 12) (ok : Bool)
  /-- UPLINK_FRAME (R52): an uplink frame as received from tile t, bit 0 of Table FL-6 the most significant. -/
  | uplinkFrame (t : Fin 12) (frame : BitVec 384)
  /-- UP_LOSS_DETECT (R59): eight consecutive frames bring no good uplink frame of tile t. -/
  | upLossDetect (t : Fin 12)
  /-- FAB_HOLD_RELEASE (R61): a frame boundary at which tile t's FAB_HOLD may fall. -/
  | fabHoldRelease (t : Fin 12)
  /-- EML_DLY_SWEEP (R43): the bring-up sweep of tile t ends with the conversion delay it found. -/
  | emlDlySweep (t : Fin 12) (dly : Fin 24)
  /-- PARK_STORE_LOAD (R63): the device starts a park store load to tile t. -/
  | parkStoreLoad (t : Fin 12)
  /-- PARK_STORE_COMMITTED (R50): tile t has acknowledged PARK_COMMIT and reports PARK_STORE_VALID. -/
  | parkStoreCommitted (t : Fin 12)
  /-- HFLT_WORD_WRITE (R60): the supervisors write element n's HFLT word from its hold-cell fault flag. -/
  | hfltWordWrite (n : Fin 10752)
  /-- RANGE_SEL_WRITE (R69): EDL_CTRL.RANGE_SEL of lane n is written. -/
  | rangeSelWrite (n : Fin 192) (v : Bool)
  /-- RANGE_SWITCH (R69): frame F+4 of lane n's range change. -/
  | rangeSwitch (n : Fin 192)
  /-- RCHG_SETTLE_END (R69): frame F+68 of lane n's range change. -/
  | rchgSettleEnd (n : Fin 192)
  /-- RCHG_DONE (R69): frame F+70 of lane n's range change. -/
  | rchgDone (n : Fin 192)
  /-- RCHG_TIMEOUT (R71): frame F+240 of lane n's range change. -/
  | rchgTimeout (n : Fin 192)
  /-- FORCE_PARK_WRITE (R93): EDL_CTRL.FORCE_PARK of lane n is written. -/
  | forceParkWrite (n : Fin 192) (v : Bool)
  /-- REFBUF_EN_WRITE (R82): EML_CTRL.REFBUF_EN of group t is written. -/
  | refbufEnWrite (t : Fin 12) (v : Bool)
  /-- REFBUF_READY (R82): 2.0 ms have passed since REFBUF_EN of group t rose. -/
  | refbufReady (t : Fin 12)
  /-- CONV_EN_WRITE (R82): EML_CTRL.CONV_EN of group t is written. -/
  | convEnWrite (t : Fin 12) (v : Bool)
  /-- CAL_SETTLED (R80): 1,025 frames of group t were converted since conversions started. -/
  | calSettled (t : Fin 12)
  /-- CAL_FAULT_EXIT (R81): slice j of lane n has met the conditions for 256 frames. -/
  | calFaultExit (n : Fin 192) (j : Fin 4)
  /-- LP_EN_WRITE (R83): EML_CTRL.LP_EN of group t is written. -/
  | lpEnWrite (t : Fin 12) (v : Bool)
  /-- LP_RESETTLE_DONE (R83): 160 frames have passed since group t left low-power mode. -/
  | lpResettleDone (t : Fin 12)
  /-- INJ_GO (R84): EML_CTRL.INJ_GO of group t is written 1. -/
  | injGo (t : Fin 12)
  /-- INJ_TIME_TRIGGER (R84): the instant of group t's armed time trigger. -/
  | injTimeTrigger (t : Fin 12)
  /-- INJ_DONE (R87): the last result of group t's sequence is written. -/
  | injDone (t : Fin 12)
  /-- BCO_TARGET_WRITE (R89): BCO_TARGET of channel b is written. -/
  | bcoTargetWrite (b : Fin 24) (v : BitVec 16)
  /-- BCO_RANGE_SEL_WRITE (R90): BCO_CTRL.RANGE_SEL of channel b is written. -/
  | bcoRangeSelWrite (b : Fin 24) (v : Bool)
  /-- BCO_EN_WRITE (R91): BCO_CTRL.EN of channel b is written. -/
  | bcoEnWrite (b : Fin 24) (v : Bool)
  /-- BCO_RAMP_TICK (R89): one microsecond of every channel's ramp. -/
  | bcoRampTick
  /-- BCO_COMPL_DETECT (R92): a measurement of channel b: current code, load voltage and compliance limit in mV, and which of the conditions of R92 have held for 100 µs. -/
  | bcoComplDetect (b : Fin 24) (imeas : BitVec 16) (vmeas : BitVec 12) (limit : BitVec 12) (held : BcoHeld)
  /-- PILOT_DEPTH_WRITE (R399): PILOT_DEPTH is written. -/
  | pilotDepthWrite (v : BitVec 32)
  /-- PILOT_AMPLITUDE_RECOMPUTE (R399): the supervisors set the pilot amplitude of input port p's VOA. -/
  | pilotAmplitudeRecompute (p : Fin 1024)
  /-- ENGINE_RUN_WRITE (R101): ENG_CTRL.RUN of engine e is written. -/
  | engineRunWrite (e : Fin 96) (v : Bool)
  /-- ENG_SWAP_WRITE (R111): ENG_SWAP.MODE of engine e is written. -/
  | engSwapWrite (e : Fin 96) (m : Fin 4)
  /-- SEED (R108): ENG_SPBANK.SEED of engine e is written 1. -/
  | seed (e : Fin 96)
  /-- SPBANK_ARM_WRITE (R109): ARM and ACTION of engine e are written. -/
  | spbankArmWrite (e : Fin 96) (arm : Bool) (act : Fin 4)
  /-- LSM_EXTERNAL_WRITE (R107): LSM word w of loop i of engine e is written through BAR2. -/
  | lsmExternalWrite (e : Fin 96) (i : Fin 112) (w : Fin 128) (v : BitVec 32)
  /-- PROGRAM_BANK_WRITE (R110): half h of instruction n of bank b of engine e is written through BAR2. -/
  | programBankWrite (e : Fin 96) (b : Fin 2) (n : Fin 4096) (h : Fin 2) (v : BitVec 32)
  /-- ECT_RELOAD (R114): CLU_CTRL.ECT_RELOAD of cluster c is written 1. -/
  | ectReload (c : Fin 12)
  /-- ADAPTIVE_GAIN_UPDATE (R159): every 4,096 frames supervisors estimate plant gain and set RHO and LI_GAIN. -/
  | adaptiveGainUpdate
  /-- HEATER_OFFLOAD (R164): every 4,096 frames supervisors step running heater trims. -/
  | heaterOffload
  /-- SCOREBOARD_UPDATE (R167): every 4,096 frames supervisors compute subscores and scores. -/
  | scoreboardUpdate
  /-- FPARK_WRITE (R163): supervisors set or clear FPARK on a tile's elements around FAB_HOLD. -/
  | fparkWrite (t : Fin 12)
  /-- HALT_HOLD_LIMIT (R163): HOLD_LIM frames after a halt, POLICY 0 elements are parked by PARK_MASK. -/
  | haltHoldLimit (e : Fin 96)
  /-- CHARACTERISATION_STEP (R165): supervisors advance CAL_V after a step's dwell and count frames. -/
  | characterisationStep (half : BitVec 32)
  /-- CHARACTERISATION_RECORD (R165): fit and record at the end of a sweep, or CAL_FAIL. -/
  | characterisationRecord (fit : CalFit)
  /-- EVENT_QUEUE_DRAIN (R138): the supervisors drain engine e's event queue. -/
  | eventQueueDrain (e : Fin 96)
  /-- BATCH_CLOSE (R174): a batch closes when the solver is free and requests are pending. -/
  | batchClose
  /-- SOLVE_DONE (R177): route solve of a batch completes, deriving images and sets. -/
  | solveDone (answers : List RouteAnswer)
  /-- ROUTE_TIMEOUT (R191): solve of a non-BENES batch exceeds 400 µs and the batch is discarded. -/
  | routeTimeout
  /-- STAGE_COMMIT (R172): second check, SEED and transit image written, ARM in every running engine. -/
  | stageCommit (again : List RouteAnswer)
  /-- STAGING_DEADLINE (R191): at T − 1.0 µs incomplete staging disarms with COMMIT_NOT_STAGED. -/
  | stagingDeadline
  /-- TRANSIT_STROBE (R181): commit strobe at T makes the transit image current. -/
  | transitStrobe
  /-- SETTLE_RESOLVED (R185): last settle-set element resolved; light image staged. -/
  | settleResolved
  /-- SETTLE_DEADLINE (R186): at frame j+28 an unsettled element fails and reverts the commit. -/
  | settleDeadline
  /-- LIGHT_STROBE (R186): light strobe makes map B current and releases A. -/
  | lightStrobe
  /-- REVERT_STAGE (R192): revert image X(B→A) is staged for a revert. -/
  | revertStage
  /-- REVERT_TRANSIT_STROBE (R192): revert transit strobe makes X(B→A) current. -/
  | revertTransitStrobe
  /-- REVERT_LIGHT_STROBE (R192): revert light strobe makes A current again. -/
  | revertLightStrobe
  /-- PENDING_LIGHT_RELEASE (R187): FPARK cleared once every settle-set element of a dark path has settled. -/
  | pendingLightRelease (q : Fin 1024)
  /-- LC_WINDOW_OPEN (R194): a Line Call window opens on an output. -/
  | lcWindowOpen (q : Fin 1024)
  /-- LC_WINDOW_CLOSE (R197): window ends and the connection receives its Line Call result. -/
  | lcWindowClose (q : Fin 1024)
  /-- LC_ESCALATION_DONE (R196): full 1,024-pilot scan completes. -/
  | lcEscalationDone (q : Fin 1024)
  /-- LC_AUDIT (R199): every LC_AUDIT ms windows open on measurable connections. -/
  | lcAudit
  /-- CONN_BARRIER_COMPLETE (R175): barrier completes when all earlier requests have final outcomes. -/
  | connBarrierComplete
  /-- HELLO_SEND (R207): every 100 µs a HELLO is sent on each enabled link. -/
  | helloSend (n : Fin 8)
  /-- HELLO_RECEIVE (R207): a HELLO is received and checked for domain and address. -/
  | helloReceive (n : Fin 8) (domain : BitVec 16) (addr : Fin 16384) (cred : BitVec 32) (rtt : BitVec 16)
  /-- HELLO_TIMEOUT (R207): no good HELLO for 300 µs takes the link down. -/
  | helloTimeout (n : Fin 8)
  /-- FEC_LOCK_LOSS (R207): FEC lock lost for 10 µs takes the link down. -/
  | fecLockLoss (n : Fin 8)
  /-- KOROTTE_FRAME_RECEIVE (R209): a Korotte frame is received, checked, acknowledged and delivered or forwarded. -/
  | korotteFrameReceive (n : Fin 8) (b : List (List (BitVec 8))) (cor : Nat) (unc : RxFault)
  /-- KOROTTE_FRAME_SEND (R210): egress link starts the next frame by class order and credits. -/
  | korotteFrameSend (n : Fin 8)
  /-- KOROTTE_RETRY_TIMEOUT (R212): no acknowledgement progress for 10 µs triggers resend, exhaustion takes link down. -/
  | korotteRetryTimeout (n : Fin 8)
  /-- KOROTTE_UDP_RECEIVE (R215): a Korotte-over-UDP datagram arrives on a secure channel. -/
  | korotteUdpReceive (k : Fin 16) (prio : Fin 8) (port : BitVec 16) (fragment : Bool) (b : List (BitVec 8))
  /-- PREPARE (R221): member receives a PREPARE fragment and opens a slot. -/
  | hdlPrepare (h : HdlHead) (f : PrepFrag)
  /-- HUDDLE_VOTE_SEND (R221): member votes YES or NO once all fragments and the solve are done. -/
  | huddleVoteSend (slot : Fin 64) (ans : RouteAnswer)
  /-- VOTE (R223): initiator receives a vote, sending DECIDE when all YES or abort at a NO. -/
  | hdlVote (h : HdlHead) (reason : BitVec 16)
  /-- DECIDE (R224): member receives DECIDE commit or abort. -/
  | hdlDecide (h : HdlHead) (commit : Bool)
  /-- ACK (R227): huddle ACK received, possibly closing CLOSED_NEW. -/
  | hdlAck (h : HdlHead) (msg : Fin 9)
  /-- OUTCOME (R226): OUTCOME received; initiator may send FINAL or REPAIR. -/
  | hdlOutcome (h : HdlHead) (result : Fin 5) (status : BitVec 16)
  /-- FINAL (R226): member receives FINAL and becomes FINAL_HELD. -/
  | hdlFinal (h : HdlHead)
  /-- REVERTED (R229): REVERTED received, scheduling a revert. -/
  | hdlReverted (h : HdlHead) (tRev : BitVec 64)
  /-- REPAIR (R229): REPAIR received, scheduling a revert at its T_REV. -/
  | hdlRepair (h : HdlHead) (tRev : BitVec 64)
  /-- HUDDLE_RESEND (R220): every HDL_RTX unanswered Huddle messages are resent. -/
  | huddleResend (group : BitVec 32)
  /-- HUDDLE_VOTE_DEADLINE (R223): at T − G − HDL_LAT missing votes give DECIDE abort. -/
  | huddleVoteDeadline (slot : Fin 64)
  /-- HUDDLE_DECIDE_CHECK (R224): at T − G member checks DECIDE and darkens cross-device outputs. -/
  | huddleDecideCheck (slot : Fin 64)
  /-- HUDDLE_NO_FINAL_EXPIRY (R229): no FINAL at T + W schedules a revert at T + 2W. -/
  | huddleNoFinalExpiry (slot : Fin 64)
  /-- IN_DOUBT (R231): FINAL_HELD member not closed by T + 2W becomes IN_DOUBT. -/
  | inDoubt (slot : Fin 64)
  /-- HUDDLE_REVERT_AT_T_REV (R229): at T_REV the member reverts or closes CLOSED_OLD. -/
  | huddleRevertAtTRev (slot : Fin 64)
  /-- SQ_DOORBELL (R238): host writes a submission queue tail doorbell. -/
  | sqDoorbell (q : Fin 65) (v : BitVec 32)
  /-- CQ_DOORBELL (R238): host writes a completion queue head doorbell. -/
  | cqDoorbell (q : Fin 65) (v : BitVec 32)
  /-- COMMAND_FETCH (R239): device fetches and accepts the next submission entry with a tag. -/
  | commandFetch (e : Entry)
  /-- COMPLETION_POST (R242): device posts a completion entry and raises the MSI-X vector. -/
  | completionPost
  /-- DATAGRAM_RECEIVE (R244): a command datagram arrives, is policed, bound and SEQ-checked. -/
  | datagramReceive (src : Source) (f : DgramFrame) (l : List (BitVec 8))
  /-- EVENT_WAIT_COMPLETE (R250): outstanding EVENT_WAIT completes when a record is pending. -/
  | eventWaitComplete
  /-- QUEUE_DELETE_DONE (R249): QUEUE_DELETE completes when the last tag is freed. -/
  | queueDeleteDone (q : Fin 65)
  /-- PCIE_LINK_LOSS (R249): PCIe link loss stops fetching; running commands finish. -/
  | pcieLinkLoss
  /-- ADMIN_QUEUE_ENABLE (R237): CMD_CTRL.EN enables the admin queue pair. -/
  | adminQueueEnable (v : Bool)
  /-- IDENTIFY (R251): returns identity and caller information. -/
  | identify (tag : Fin 4096)
  /-- QUEUE_CREATE (R237): creates a tenant queue pair. -/
  | queueCreate (tag : Fin 4096)
  /-- QUEUE_DELETE (R249): deletes a tenant queue pair. -/
  | queueDelete (tag : Fin 4096)
  /-- BUF_WRITE (R245): writes the caller's staging buffer. -/
  | bufWrite (tag : Fin 4096)
  /-- EVENT_WAIT (R250): waits for and returns event records. -/
  | eventWait (tag : Fin 4096)
  /-- EVENT_LOG_READ (R250): reads the HBM event log. -/
  | eventLogRead (tag : Fin 4096)
  /-- FAULT_LOG_READ (R350): reads the MRAM fault log. -/
  | faultLogRead (tag : Fin 4096)
  /-- OPTION_WRITE (R319): writes a new Option Area image. -/
  | optionWrite (tag : Fin 4096) (dma : Dma)
  /-- CHIP_RESET (R337): command requesting a software chip reset. -/
  | chipReset (tag : Fin 4096)
  /-- PARK_TABLE_WRITE (R321): delivers, checks and commits a Park Table image. -/
  | parkTableWrite (tag : Fin 4096) (dma : Dma)
  /-- TOPOLOGY_LOAD (R19): loads and checks a topology table. -/
  | topologyLoad (tag : Fin 4096) (dma : Dma)
  /-- TOPOLOGY_READ (R251): returns the loaded topology table. -/
  | topologyRead (tag : Fin 4096)
  /-- CONN_CHANGE (R252): requests connection additions, changes and removals as one commit. -/
  | connChange (tag : Fin 4096) (dma : Dma)
  /-- MAP_REPLACE (R251): replaces the caller's or the whole connection map. -/
  | mapReplace (tag : Fin 4096) (dma : Dma)
  /-- MAP_STORE (R251): stores a map in an HBM or MRAM slot. -/
  | mapStore (tag : Fin 4096) (dma : Dma)
  /-- MAP_RECALL (R251): commits a stored map as an admin MAP_REPLACE. -/
  | mapRecall (tag : Fin 4096)
  /-- MAP_READ (R253): returns the current map with result records. -/
  | mapRead (tag : Fin 4096)
  /-- LC_RELEASE (R198): ends Line Call blocks on output ports. -/
  | lcRelease (tag : Fin 4096) (dma : Dma)
  /-- PARAM_SET (R199): sets solver and Line Call parameters. -/
  | paramSet (tag : Fin 4096) (dma : Dma)
  /-- PARAM_GET (R251): returns solver and Line Call parameters. -/
  | paramGet (tag : Fin 4096)
  /-- CAL_PATH_SET (R166): designates the characterisation source and sink ports. -/
  | calPathSet (tag : Fin 4096)
  /-- PROG_LOAD (R110): loads a checked program into an inactive bank. -/
  | progLoad (tag : Fin 4096) (dma : Dma)
  /-- PROG_LOAD_ROM (R146): loads SLP-1 from ROM into a bank. -/
  | progLoadRom (tag : Fin 4096)
  /-- ENGINE_CTRL (R251): runs, stops or arms swaps on engines. -/
  | engineCtrl (tag : Fin 4096) (dma : Dma)
  /-- ELEM_MODE (R251): sets element MODE_REQ by one commit. -/
  | elemMode (tag : Fin 4096) (dma : Dma)
  /-- COEF_WRITE (R157): writes a coefficient bank, optionally selecting it by commit. -/
  | coefWrite (tag : Fin 4096) (dma : Dma)
  /-- ELEM_PARAM (R147): writes SLP-1 element parameter words. -/
  | elemParam (tag : Fin 4096) (dma : Dma)
  /-- ELEM_RESUME (R161): clears PLATCH of elements. -/
  | elemResume (tag : Fin 4096) (dma : Dma)
  /-- ELEM_READ (R251): reads element LSM words. -/
  | elemRead (tag : Fin 4096) (dma : Dma)
  /-- CAL_REQUEST (R166): queues element characterisations. -/
  | calRequest (tag : Fin 4096) (dma : Dma)
  /-- ECT_WRITE (R114): writes ECT master records then mirrors them. -/
  | ectWrite (tag : Fin 4096) (dma : Dma)
  /-- ECT_READ (R251): returns ECT master records. -/
  | ectRead (tag : Fin 4096) (dma : Dma)
  /-- PROG_VERIFY (R110): checks BAR2-written bank words and sets BANK_OK. -/
  | progVerify (tag : Fin 4096)
  /-- PORT_ASSIGN (R30): changes port ownership. -/
  | portAssign (tag : Fin 4096) (dma : Dma)
  /-- RIGHTS_SET (R28): sets tenant rights words and quotas. -/
  | rightsSet (tag : Fin 4096) (dma : Dma)
  /-- SOURCE_BIND (R244): writes source binding table entries. -/
  | sourceBind (tag : Fin 4096) (dma : Dma)
  /-- TENANT_READ (R251): returns a tenant's rights, quota and ports. -/
  | tenantRead (tag : Fin 4096)
  /-- TIME_READ (R267): returns network time, tick, frame number and servo state. -/
  | timeRead (tag : Fin 4096)
  /-- TIME_TRIGGER (R84): arms lane-group time triggers. -/
  | timeTrigger (tag : Fin 4096) (dma : Dma)
  /-- TIME_ASYM (R271): applies an operator asymmetry correction and ends a path hold. -/
  | timeAsym (tag : Fin 4096)
  /-- SUB_CREATE (R289): creates telemetry subscriptions. -/
  | subCreate (tag : Fin 4096) (dma : Dma)
  /-- SUB_DELETE (R251): deletes telemetry subscriptions. -/
  | subDelete (tag : Fin 4096) (dma : Dma)
  /-- SUB_READ (R251): returns subscription descriptors. -/
  | subRead (tag : Fin 4096)
  /-- REPLAY_FREEZE (R303): triggers the Replay Recorder. -/
  | replayFreeze (tag : Fin 4096)
  /-- REPLAY_READ (R303): reads the frozen recorder ring. -/
  | replayRead (tag : Fin 4096)
  /-- REPLAY_RELEASE (R303): resumes recording. -/
  | replayRelease (tag : Fin 4096)
  /-- ECHO (R251): returns the payload. -/
  | echo (tag : Fin 4096) (dma : Dma)
  /-- REG_READ (R251): reads BAR0 registers. -/
  | regRead (tag : Fin 4096) (dma : Dma)
  /-- REG_WRITE (R248): writes BAR0 registers as host writes. -/
  | regWrite (tag : Fin 4096) (dma : Dma)
  /-- INJ_TRIGGER (R84): command trigger of a lane group's injected sequence. -/
  | injTrigger (tag : Fin 4096)
  /-- MEM_READ (R251): reads BAR2 memory. -/
  | memRead (tag : Fin 4096)
  /-- HUDDLE_COMMIT (R254): initiates a multi-device commit group or a barrier. -/
  | huddleCommit (tag : Fin 4096) (dma : Dma)
  /-- HUDDLE_RESOLVE (R231): forces resolution of an in-doubt group. -/
  | huddleResolve (tag : Fin 4096)
  /-- HUDDLE_STATUS (R251): returns group member states. -/
  | huddleStatus (tag : Fin 4096)
  /-- ATTEST (R367): builds and signs an attestation report. -/
  | attest (tag : Fin 4096) (dma : Dma)
  /-- PATCH_LOAD (R364): verifies and stores a firmware extension. -/
  | patchLoad (tag : Fin 4096) (dma : Dma)
  /-- KEY_ENROL (R369): enrols the customer public keys. -/
  | keyEnrol (tag : Fin 4096) (dma : Dma)
  /-- ENFORCE_SET (R370): sets or clears signing enforcement. -/
  | enforceSet (tag : Fin 4096) (dma : Dma)
  /-- JTAG_CHALLENGE (R372): returns a JTAG unlock challenge. -/
  | jtagChallenge (tag : Fin 4096)
  /-- JTAG_UNLOCK (R372): verifies a signed challenge response and opens JTAG. -/
  | jtagUnlock (tag : Fin 4096) (dma : Dma)
  /-- PTP_SYNC_RECEIVE (R266): a Sync (or its Follow_Up) is timestamped and the servo updated. -/
  | ptpSyncReceive (h : PtpHead) (b : SyncBody) (v : Servo)
  /-- PTP_DELAY_RESP_RECEIVE (R266): a delay response updates the mean path delay. -/
  | ptpDelayRespReceive (h : PtpHead) (b : DelayBody)
  /-- PTP_ANNOUNCE_RECEIVE (R261): an Announce feeds best master selection. -/
  | ptpAnnounceReceive (h : PtpHead) (g : GmData)
  /-- PTP_PDELAY_REQ_RECEIVE (R264): a Pdelay_Req is answered one-step. -/
  | ptpPdelayReqReceive (h : PtpHead) (turn : Nat)
  /-- PTP_DELAY_REQ_SEND (R264): delay_Req or Pdelay_Req sent one-step at its interval. -/
  | ptpDelayReqSend (p : Fin 2) (sub : Fin 8)
  /-- PTP_RECEIPT_TIMEOUT (R266): three intervals without messages lose the source. -/
  | ptpReceiptTimeout (p : Fin 2)
  /-- PATH_HOLD_TIMEOUT (R271): PC_TIMEOUT ends PATH_HOLD without correction. -/
  | pathHoldTimeout
  /-- HOLDOVER_SYNC_EXPIRY (R267): HO_SYNC seconds in holdover end synchronisation. -/
  | holdoverSyncExpiry
  /-- TICK_REANCHOR (R258): TICK − A reaching 2^46 re-anchors network time. -/
  | tickReanchor
  /-- PPS_OUT_PULSE (R275): PPS_OUT rises at each whole second. -/
  | ppsOutPulse
  /-- PPS_IN_EDGE (R276): a PPS_IN rising edge is timestamped. -/
  | ppsInEdge (sub : Fin 8)
  /-- PPS_IN_MISS (R276): no PPS_IN edge within 1.1 s. -/
  | ppsInMiss
  /-- GATE_TRANSITION (R278): gate control list advances to its next entry. -/
  | gateTransition (k : Fin 16)
  /-- GCL_CONFIG_CHANGE (R278): CONFIG_CHANGE makes the admin list pending. -/
  | gclConfigChange (k : Fin 16)
  /-- GCL_CONFIG_CHANGE_TIME (R279): pending list becomes operational; oversize frames dropped. -/
  | gclConfigChangeTime (k : Fin 16)
  /-- ETH_FRAME_RECEIVE (R281): an Ethernet frame is received, MACsec-validated and dispatched. -/
  | ethFrameReceive (k : Fin 16) (f : EthRx)
  /-- ARP_REQUEST (R282): an ARP request for own address is answered. -/
  | arpRequest (k : Fin 16) (sender : BitVec 48) (target : BitVec 32)
  /-- NEIGHBOR_SOLICITATION (R282): an IPv6 Neighbor Solicitation is answered. -/
  | neighborSolicitation (k : Fin 16) (sender : BitVec 48) (target : BitVec 128)
  /-- MKA_FRAME (R283): an MKA frame drives key agreement. -/
  | mkaFrame (k : Fin 16) (r : MkaResult)
  /-- PFC_FRAME_RECEIVE (R285): a received PFC frame pauses a priority. -/
  | pfcFrameReceive (k : Fin 16) (enable : BitVec 8) (quanta : List (BitVec 16))
  /-- PFC_PAUSE_EXPIRY (R285): a received pause runs out. -/
  | pfcPauseExpiry (k : Fin 16) (i : Fin 8)
  /-- PFC_XOFF_REPEAT (R285): XOFF repeated every 32,768 quanta while above XON. -/
  | pfcXoffRepeat (k : Fin 16) (i : Fin 8)
  /-- MAC_FRAME_START (R296): a free MAC selects and starts the next eligible frame. -/
  | macFrameStart (k : Fin 16)
  /-- TELEMETRY_RECORD (R291): a subscription record becomes ready and is packed into a packet. -/
  | telemetryRecord (id : Fin 1024) (missed : Bool)
  /-- HIST_SAMPLE (R299): every 1 µs queue depth and sojourn are binned. -/
  | histSample
  /-- REPLAY_POST_DONE (R303): POST_FRAMES after a trigger written, Recorder freezes. -/
  | replayPostDone
  /-- HBM_TRAINING_DONE (R308): HBM training completes or fails. -/
  | hbmTrainingDone (ok : Bool) (channels : BitVec 16) (temp : BitVec 8)
  /-- HBM_SCRUB_PATROL (R307): patrol read of HBM lines. -/
  | hbmScrubPatrol (line : Fin 402653184) (ch : Fin 32) (found : HbmFound) (last : Bool)
  /-- HBM_UE (R307): an uncorrectable HBM line is reported and retired. -/
  | hbmUe (line : Fin 402653184) (ch : Fin 32) (r : HbmReader)
  /-- SRAM_PATROL (R311): the patrol reads the word at BAR2 address a. -/
  | sramPatrol (a : Fin 50331648) (found : MemErr)
  /-- NVM_SCRUB_PATROL (R312): the patrol reads MRAM word w. -/
  | nvmScrubPatrol (w : Fin 4194304) (found : MemErr)
  /-- NVM_TXN_STEP (R314): an MRAM transaction write step completes; the last commits. -/
  | nvmTxnStep
  /-- NVM_RECOVERY_SCAN (R315): the recovery scan of bring-up. -/
  | nvmRecoveryScan
  /-- OPTION_LOAD (R318): loader chooses the Option Area image. -/
  | optionLoad
  /-- PARK_TABLE_COMMIT_WRITE (R321): NVM_PT_CTRL.COMMIT is written 1. -/
  | parkTableCommitWrite
  /-- PARK_TABLE_APPLY (R321): committed Park Table takes effect at the next frame boundary. -/
  | parkTableApply
  /-- PARK_V_REWRITE (R321): the supervisors rewrite PARK_V of element n. -/
  | parkVRewrite (n : Fin 10752)
  /-- CLOCK_GOOD_QUALIFY (R328): a domain's clock-good becomes true. -/
  | clockGoodQualify (c : ClockId)
  /-- CLOCK_GOOD_LOSS (R329): a domain loses clock-good and enters reset. -/
  | clockGoodLoss (c : ClockId)
  /-- DOMAIN_REQUALIFY (R330): a lost cluster, EDL or EML domain returns and is restored. -/
  | domainRequalify (d : Fin 60)
  /-- FIFO_RESYNC (R333): a crossing FIFO resynchronises after a side's reset. -/
  | fifoResync (d : Fin 60) (n : BitVec 16) (lost : FifoLoss)
  /-- CLK_GATE_WRITE (R334): host sets or clears a domain's gate bit. -/
  | clkGateWrite (d : Fin 60) (v : Bool)
  /-- DOMAIN_WAKE (R334): gated domain clock restarts on a wake request. -/
  | domainWake (d : Fin 60)
  /-- POWER_ON_RESET (R389): a supply dip or first power starts POR. -/
  | powerOnReset (fell : SupplyFall) (latch : Bool)
  /-- POR_END (R389): supplies stay above threshold for 1 ms and POR ends. -/
  | porEnd (gpio : Fin 4)
  /-- RESET_N_ASSERT (R335): RESET_N held low requests a chip reset. -/
  | resetNAssert
  /-- WATCHDOG_EXPIRY (R335): supervisor watchdog not serviced in time. -/
  | watchdogExpiry
  /-- RST_SWRST_WRITE (R335): key written to RST_SWRST requests a software chip reset. -/
  | rstSwrstWrite (v : BitVec 32)
  /-- JTAG_CHIPRST (R335): JTAG CHIPRST instruction requests a chip reset. -/
  | jtagChiprst
  /-- JTAG_RESET (R335): TRST_N or five TMS-high cycles reset the JTAG domain. -/
  | jtagReset
  /-- CHIP_RESET_ENTRY (R337): AON samples a chip reset request and parks everything. -/
  | chipResetEntry
  /-- RESET_RELEASE (R338): reset released and bring-up begins. -/
  | resetRelease
  /-- PARK_TABLE_READ (R400): bring-up step 4 reads the Park Table and starts present tiles. -/
  | parkTableRead
  /-- BOOT_ROM_DONE (R365): supervisors finish the boot ROM and set READY. -/
  | bootRomDone
  /-- AUTOSTART (R146): SLP-1 loaded and run on present tiles at bring-up. -/
  | autostart
  /-- UMPIRE_EVENT (R346): a source's condition occurs. -/
  | umpireEvent (o : Occ)
  /-- UMP_PARITY_SCAN (R351): the parity scan ends, having found no wrong parity or the configuration word that has it. -/
  | umpParityScan (bad : Option Nat)
  /-- FAULT_LOG_WRITE (R350): the NVM engine takes up a waiting fault log entry. -/
  | faultLogWrite
  /-- EXT_FAULT_INPUT (R342): EXT input n has been low for 1 µs. -/
  | extFaultInput (n : Fin 2)
  /-- SENSOR_READING (R353): a conversion of sensor i ends. -/
  | sensorReading (i : Fin 36) (c : Conversion)
  /-- SMB_DEVICE_ID (R359): SMBus Read Byte 0x00. -/
  | smbDeviceId
  /-- SMB_STATUS (R359): SMBus Read Byte 0x01. -/
  | smbStatusRead
  /-- SMB_HOTTEST (R359): SMBus Read Word 0x02. -/
  | smbHottest
  /-- SMB_HOTTEST_SENSOR (R359): SMBus Read Byte 0x03. -/
  | smbHottestSensor
  /-- SMB_TRIP_READING (R359): SMBus Read Word 0x04. -/
  | smbTripReading
  /-- SMB_TRIP_SENSOR (R359): SMBus Read Byte 0x05. -/
  | smbTripSensor
  /-- SMB_RST_CAUSE (R359): SMBus Read Byte 0x06. -/
  | smbRstCause
  /-- SMB_SENSOR_READING (R359): SMBus Read Word 0x10 + i. -/
  | smbSensorReading (i : Fin 36)
  /-- SMB_BLOCK_READ (R359): SMBus Block Read 0x40. -/
  | smbBlockRead
  /-- SMB_REFUSED (R359): an SMBus transaction with this command code, and whether it carries a data byte from the host. -/
  | smbRefused (code : BitVec 8) (write : Bool)
  /-- TILE_HOLD_WRITE (R61): TILE_CTRL.HOLD of tile t is written. -/
  | tileHoldWrite (t : Fin 12) (v : Bool)
  /-- TILE_EN_WRITE (R59): TILE_CTRL.TILE_EN of tile t is written. -/
  | tileEnWrite (t : Fin 12) (v : Bool)
  /-- PARK_STORE_RELOAD (R63): PARK_CTRL.RELOAD of tile t is written 1. -/
  | parkStoreReload (t : Fin 12)
  /-- NEXT_HOP_WRITE (R213): KLK_NH_DATA write replaces one next-hop entry atomically. -/
  | nextHopWrite (v : BitVec 32)
  /-- KLK_LANE_EN_WRITE (R208): KLK_LCTRL.EN enables lanes with the selected bonding. -/
  | klkLaneEnWrite (n : Fin 8) (en : Bool) (bond : Fin 4)
  /-- HDL_PARAM_WRITE (R219): writes a Huddle parameter register, ignored with PARAM_BAD if invalid. -/
  | hdlParamWrite (i : Fin 5) (v : BitVec 32)
  /-- PFC_TX_WRITE (R286): PFC_TX write marks lossless priorities and redivides headroom. -/
  | pfcTxWrite (k : Fin 16) (mask : BitVec 8)
  /-- PFC_HDRM_WRITE (R286): PFC_HDRM write within the port headroom sum. -/
  | pfcHdrmWrite (k : Fin 16) (v : BitVec 23)
  /-- Q_APPLY (R298): loads Q_RATE and Q_BURST together. -/
  | qApply
  /-- HIST_CLR (R299): clears histogram bins of a queue or all queues. -/
  | histClr (all : Bool)
  /-- POL_APPLY (R300): loads every parameter of the selected policer. -/
  | polApply
  /-- CAK_INSTALL (R284): CAK_CTRL.INSTALL takes CAK and CKN and restarts MKA. -/
  | cakInstall (k : Fin 16)
  /-- HBM_APERTURE_WRITE (R310): BAR2 write into the HBM aperture, allowed only to host scratch. -/
  | hbmApertureWrite (offset : Fin 536870912) (v : MaskedWord)
  /-- UMP_FE_CLR (R349): UMP_CTRL.FE_CLR is written 1. -/
  | umpFeClr
  /-- UMP_CNT_CLR (R347): UMP_CTRL.CNT_CLR is written 1. -/
  | umpCntClr
  /-- UMP_SRC_CNT_CLR (R347): CNT_CLR of source n is written 1. -/
  | umpSrcCntClr (n : Fin 404)
  /-- UMP_FLAG_CLEAR (R347): FLAG of source n is written 1. -/
  | umpFlagClear (n : Fin 404)
  /-- UMP_SEVERE_CLEAR (R346): SEVERE of source n is written 1. -/
  | umpSevereClear (n : Fin 404)
  /-- THM_MAX_CLR (R360): THM_CTRL.MAX_CLR is written 1. -/
  | thmMaxClr
  /-- THM_SCTRL_WRITE (R356): THM_SCTRL of sensor i is written. -/
  | thmSctrlWrite (i : Fin 36) (v : BitVec 32)
  /-- THM_THR_WRITE (R356): THM_THR of sensor i is written. -/
  | thmThrWrite (i : Fin 36) (v : BitVec 32)
  /-- DBG_WRITE (R384): DBG register write, effective only while JTAG is open. -/
  | dbgWrite (q : Requester) (i : Fin 10) (v : BitVec 32)
  /-- TILE_CNT_CLR (R64): TILE_CTRL.CNT_CLR of tile t is written 1. -/
  | tileCntClr (t : Fin 12)
  /-- EDL_CNT_CLR (R94): EDL_CTRL.CNT_CLR of lane n is written 1. -/
  | edlCntClr (n : Fin 192)
  /-- ENG_CNT_CLR (R117): ENG_CTRL.CNT_CLR of engine e is written 1. -/
  | engCntClr (e : Fin 96)
  /-- CLU_CNT_CLR (R117): CLU_CTRL.CNT_CLR of cluster c is written 1. -/
  | cluCntClr (c : Fin 12)
  /-- KLK_CNT_CLR (R236): KLK_CTRL.CNT_CLR clears Korotte counters. -/
  | klkCntClr
  /-- HDL_CNT_CLR (R236): HDL_CTRL.CNT_CLR clears Huddle counters. -/
  | hdlCntClr
  /-- CMD_CNT_CLR (R256): CMD_CTRL.CNT_CLR clears command counters. -/
  | cmdCntClr
  /-- PTP_CNT_CLR (R280): PTP_CTRL.CNT_CLR clears PTP counters. -/
  | ptpCntClr
  /-- ETH_CNT_CLR (R305): ETH_CTRL.CNT_CLR clears port counters. -/
  | ethCntClr (p : Fin 2)
  /-- MS_CNT_CLR (R305): MS_CTRL.CNT_CLR clears MACsec counters. -/
  | msCntClr (k : Fin 16)
  /-- TSH_CNT_CLR (R305): TSH_CTRL.CNT_CLR clears traffic counters. -/
  | tshCntClr
  /-- POL_CNT_CLR (R305): POL_CTRL.CNT_CLR clears the selected policer's counters. -/
  | polCntClr
  /-- HBM_CNT_CLR (R324): HBM_CTRL.CNT_CLR clears HBM counters. -/
  | hbmCntClr
  /-- NVM_CNT_CLR (R324): NVM_CTRL.CNT_CLR is written 1. -/
  | nvmCntClr
  /-- SEC_CNT_CLR (R373): SEC_CTRL.CNT_CLR clears security counters. -/
  | secCntClr
  /-- LO_WORD_READ_LATCH (R380): reading a LO word latches the higher words for that requester. -/
  | loWordReadLatch (q : Requester) (w : Fin 16777216)
  /-- BAD_ACCESS (R377): an unmapped, misaligned or refused access is dropped and recorded. -/
  | badAccess (write bar2 : Bool) (ofs : BitVec 32) (len : Fin 4097) (bytes : List (Option (BitVec 8)))
  /-- REGISTER_WRITE (R4): write to a register without a row of its own, per its access types. -/
  | registerWrite (q : Requester) (w : Fin 16777216) (v : BitVec 32)
  /-- CLUSTER_TABLE_WRITE (R112): word w of cluster c's table memory is written through BAR2. -/
  | clusterTableWrite (c : Fin 12) (w : Fin 262144) (v : BitVec 32)
  /-- PPS_OUT_PULSE_END (R275): PPS_OUT falls PPS_WIDTH µs after its rising edge, and a squelched pulse already begun completes here. -/
  | ppsOutPulseEnd
  /-- EXT_INPUT_RELEASE (R342): EXT input n returns high. -/
  | extInputRelease (n : Fin 2)
  /-- ETH_LINK_UP (R281): an Ethernet MAC's lanes gain PCS lock and the MAC comes up, setting ETH_STAT and LINK_UP. -/
  | ethLinkUp (p : Fin 2) (lanes : BitVec 8)
  /-- ETH_LINK_DOWN (R281): an Ethernet MAC loses PCS lock and goes down, raising LINK_DOWN. -/
  | ethLinkDown (p : Fin 2) (lanes : BitVec 8)
  /-- PCIE_LINK_UP (R249): the PCIe link trains or returns after a loss, setting LINK_UP, after which fetching can resume. -/
  | pcieLinkUp (width : Fin 16) (speed : Fin 6)
  /-- PCIE_AER_ERROR (R256): the PCIe endpoint detects a correctable or uncorrectable link error, counts it in PCI_ERRCNT and raises AER_CORR or AER_UNCORR. -/
  | pcieAerError (uncorrectable : Bool)
  /-- MKA_PEER_LOST (R283): an MKA live peer's lifetime expires without an MKPDU, raising PEER_LOST and affecting the secure channel. -/
  | mkaPeerLost (k : Fin 16) (last : Bool)
deriving DecidableEq, Repr

end Sys2Proof
end

