-- ==== Sys2Proof/Decode.lean ====
section
/-!
DEFINITION. The command that a word spells. spec/opcode_table.json gives its rows no bits: commands are events and register accesses, not
words. What the device itself reads from words stands elsewhere: Gloit instructions in Machine/GloitWord.lean, submission entries and
datagrams in Machine/Queues.lean, uplink frames in Machine/Links.lean, Korotte frames in Machine/Korotte.lean.
-/

namespace Sys2Proof

/-- No row of the table has bits, so no word spells a command. -/
def decodeTableWord (_nbits _w : Nat) : Option Instr := none

end Sys2Proof
end

