-- ==== Sys2Proof/Config.lean ====
section
/-!
DEFINITION. What an implementation or a part fixes, and the values the spec leaves open. None of these has a body:
a claim about the model holds whatever they are.
-/

namespace Sys2Proof

/-- The part is an IK96-H24-X, not an IK96-H24-T: ID_VARIANT's ordering code (spec/16_register_map.md Table MP-3). -/
opaque Config.variantX : Bool
/-- SEC_ROMHASH words, the ROM's SHA-512, fixed by the part (spec/15_security.md Table SE-5). -/
opaque Config.romHashWord : Nat → BitVec 32
/-- The SLP-1 image in the ROM, and the SHA-512 of vendor root key n (spec/06_standard_loop.md R146, spec/15_security.md R363). -/
opaque Config.slpImage : List (BitVec 8)
opaque Config.vendorRoot : Nat → List (BitVec 8)
/-- Byte i of the device's identity certificate, where R366 does not fix it: SERIAL, keys, signatures. -/
opaque Config.certByte : Nat → BitVec 8
/-- Signature checks: public key, message, signature (RFC 8032; FIPS 204). -/
opaque Config.ed25519Ok : List (BitVec 8) → List (BitVec 8) → List (BitVec 8) → Bool
opaque Config.mldsaOk : List (BitVec 8) → List (BitVec 8) → List (BitVec 8) → Bool
/-- Byte i of the n-th signature that the device makes of a message with its identity keys. -/
opaque Config.idEdByte : Nat → List (BitVec 8) → Nat → BitVec 8
opaque Config.idMlByte : Nat → List (BitVec 8) → Nat → BitVec 8
/-- Byte i of the n-th challenge of the entropy source (R372). -/
opaque Config.challengeByte : Nat → Nat → BitVec 8
/-- What an external read of an uncorrectable on-die word gives: the n-th such read, the word's address (spec/04_loop_engines.md R115 states
none). -/
opaque Config.badWord : Nat → Nat → BitVec 32
/-- What an HBM that did not train reads as: a moment, an address (spec/12_memories.md R308 states none). -/
opaque Config.untrainedByte : Nat → Nat → BitVec 8
/-- A fresh 32-bit value for the n-th value that the spec leaves open (log entry 1). -/
opaque Config.freeWord : Nat → BitVec 32

end Sys2Proof
end

