-- ==== Sys2Proof/Machine/Regs.lean ====
section
/-!
DEFINITION. The register map (spec/16_register_map.md Table MP-1 and the register tables it names):
the address of every register, its access masks (Table SC-5) and its reset value.
-/

namespace Sys2Proof.Machine

/-! Addresses of the registers in BAR0, one function for each row of a register table. -/

/-- TILE_CTRL, Table FL-10. -/
abbrev A.tileCtrl (n : Nat) : Nat := 0x140000 + 0x40 * n
/-- TILE_STAT, Table FL-10. -/
abbrev A.tileStat (n : Nat) : Nat := 0x140004 + 0x40 * n
/-- TILE_EVT, Table FL-10. -/
abbrev A.tileEvt (n : Nat) : Nat := 0x140008 + 0x40 * n
/-- TILE_UPSTAT, Table FL-10. -/
abbrev A.tileUpstat (n : Nat) : Nat := 0x14000C + 0x40 * n
/-- FCL_CNT0, Table FL-10. -/
abbrev A.fclCnt0 (n : Nat) : Nat := 0x140010 + 0x40 * n
/-- FCL_CNT1, Table FL-10. -/
abbrev A.fclCnt1 (n : Nat) : Nat := 0x140014 + 0x40 * n
/-- HFLT_LANE, Table FL-10. -/
abbrev A.hfltLane (n : Nat) : Nat := 0x140018 + 0x40 * n
/-- HFLT_SEL, Table FL-10. -/
abbrev A.hfltSel (n : Nat) : Nat := 0x14001C + 0x40 * n
/-- HFLT_MAP0, Table FL-10. -/
abbrev A.hfltMap0 (n : Nat) : Nat := 0x140020 + 0x40 * n
/-- HFLT_MAP1, Table FL-10. -/
abbrev A.hfltMap1 (n : Nat) : Nat := 0x140024 + 0x40 * n
/-- EML_DLY, Table FL-10. -/
abbrev A.emlDly (n : Nat) : Nat := 0x140028 + 0x40 * n
/-- PARK_CTRL, Table FL-10. -/
abbrev A.parkCtrl (n : Nat) : Nat := 0x14002C + 0x40 * n
/-- PARK_CRC, Table FL-10. -/
abbrev A.parkCrc (n : Nat) : Nat := 0x140030 + 0x40 * n
/-- TILE_TEMP, Table FL-10. -/
abbrev A.tileTemp (n : Nat) : Nat := 0x140034 + 0x40 * n
/-- TILE_ID, Table FL-10. -/
abbrev A.tileId (n : Nat) : Nat := 0x140038 + 0x40 * n
/-- EDL_CTRL, Table CV-5. -/
abbrev A.edlCtrl (n : Nat) : Nat := 0x100000 + 0x20 * n
/-- EDL_STAT, Table CV-5. -/
abbrev A.edlStat (n : Nat) : Nat := 0x100004 + 0x20 * n
/-- EDL_NANCNT, Table CV-5. -/
abbrev A.edlNancnt (n : Nat) : Nat := 0x100008 + 0x20 * n
/-- EDL_SATCNT, Table CV-5. -/
abbrev A.edlSatcnt (n : Nat) : Nat := 0x10000C + 0x20 * n
/-- EDL_PARKCRC, Table CV-5. -/
abbrev A.edlParkcrc (n : Nat) : Nat := 0x100010 + 0x20 * n
/-- EML_CTRL, Table CV-8. -/
abbrev A.emlCtrl (n : Nat) : Nat := 0x120000 + 0x20 * n
/-- EML_STAT, Table CV-8. -/
abbrev A.emlStat (n : Nat) : Nat := 0x120004 + 0x20 * n
/-- EML_YIELD0, Table CV-8. -/
abbrev A.emlYield0 (n : Nat) : Nat := 0x120008 + 0x20 * n
/-- EML_YIELD1, Table CV-8. -/
abbrev A.emlYield1 (n : Nat) : Nat := 0x12000C + 0x20 * n
/-- EML_INJ, Table CV-8. -/
abbrev A.emlInj (n : Nat) : Nat := 0x120010 + 0x20 * n
/-- BCO_CTRL, Table CV-11. -/
abbrev A.bcoCtrl (n : Nat) : Nat := 0x150000 + 0x20 * n
/-- BCO_TARGET, Table CV-11. -/
abbrev A.bcoTarget (n : Nat) : Nat := 0x150004 + 0x20 * n
/-- BCO_SLEW, Table CV-11. -/
abbrev A.bcoSlew (n : Nat) : Nat := 0x150008 + 0x20 * n
/-- BCO_STAT, Table CV-11. -/
abbrev A.bcoStat (n : Nat) : Nat := 0x15000C + 0x20 * n
/-- BCO_IMEAS, Table CV-11. -/
abbrev A.bcoImeas (n : Nat) : Nat := 0x150010 + 0x20 * n
/-- BCO_VMEAS, Table CV-11. -/
abbrev A.bcoVmeas (n : Nat) : Nat := 0x150014 + 0x20 * n
/-- BCO_PARK, Table CV-11. -/
abbrev A.bcoPark (n : Nat) : Nat := 0x150018 + 0x20 * n
/-- BCO_OUT, Table CV-11. -/
abbrev A.bcoOut (n : Nat) : Nat := 0x15001C + 0x20 * n
/-- TONE_CTRL, Table CV-13. -/
abbrev A.toneCtrl : Nat := 0x160000
/-- TONE_STAT, Table CV-13. -/
abbrev A.toneStat : Nat := 0x160004
/-- PILOT_BASE, Table CV-13. -/
abbrev A.pilotBase : Nat := 0x160008
/-- PILOT_STEP, Table CV-13. -/
abbrev A.pilotStep : Nat := 0x16000C
/-- PILOT_DEPTH, Table CV-13. -/
abbrev A.pilotDepth : Nat := 0x160010
/-- DITHER_LO, Table CV-13. -/
abbrev A.ditherLo : Nat := 0x160014
/-- DITHER_HI, Table CV-13. -/
abbrev A.ditherHi : Nat := 0x160018
/-- DITHER_PSAFE, Table CV-13. -/
abbrev A.ditherPsafe : Nat := 0x16001C
/-- CTX_SEL, Table CV-13. -/
abbrev A.ctxSel : Nat := 0x160020
/-- CTX_FREQ, Table CV-13. -/
abbrev A.ctxFreq : Nat := 0x160024
/-- CTX_PHASE, Table CV-13. -/
abbrev A.ctxPhase : Nat := 0x160028
/-- CTX_AMP, Table CV-13. -/
abbrev A.ctxAmp : Nat := 0x16002C
/-- REFUSE_CNT, Table CV-13. -/
abbrev A.refuseCnt : Nat := 0x160030
/-- PILOT_LIM, Table CV-13. -/
abbrev A.pilotLim : Nat := 0x160034
/-- ENG_CTRL, Table LE-5. -/
abbrev A.engCtrl (e : Nat) : Nat := 0x202000 + 0x10000 * (e / 8) + 0x800 * (e % 8)
/-- ENG_STAT, Table LE-5. -/
abbrev A.engStat (e : Nat) : Nat := 0x202004 + 0x10000 * (e / 8) + 0x800 * (e % 8)
/-- ENG_EVT, Table LE-5. -/
abbrev A.engEvt (e : Nat) : Nat := 0x202008 + 0x10000 * (e / 8) + 0x800 * (e % 8)
/-- ENG_SWAP, Table LE-5. -/
abbrev A.engSwap (e : Nat) : Nat := 0x20200C + 0x10000 * (e / 8) + 0x800 * (e % 8)
/-- ENG_SPBANK, Table LE-5. -/
abbrev A.engSpbank (e : Nat) : Nat := 0x202010 + 0x10000 * (e / 8) + 0x800 * (e % 8)
/-- ENG_BUDGET, Table LE-5. -/
abbrev A.engBudget (e : Nat) : Nat := 0x202014 + 0x10000 * (e / 8) + 0x800 * (e % 8)
/-- ENG_CYC, Table LE-5. -/
abbrev A.engCyc (e : Nat) : Nat := 0x202018 + 0x10000 * (e / 8) + 0x800 * (e % 8)
/-- ENG_OVRCNT, Table LE-5. -/
abbrev A.engOvrcnt (e : Nat) : Nat := 0x20201C + 0x10000 * (e / 8) + 0x800 * (e % 8)
/-- ENG_PC, Table LE-5. -/
abbrev A.engPc (e : Nat) : Nat := 0x202020 + 0x10000 * (e / 8) + 0x800 * (e % 8)
/-- ENG_NANSTK, Table LE-5. -/
abbrev A.engNanstk (e : Nat) : Nat := 0x202024 + 0x10000 * (e / 8) + 0x800 * (e % 8)
/-- ENG_BANKCRC0, Table LE-5. -/
abbrev A.engBankcrc0 (e : Nat) : Nat := 0x202028 + 0x10000 * (e / 8) + 0x800 * (e % 8)
/-- ENG_LSMERR, Table LE-5. -/
abbrev A.engLsmerr (e : Nat) : Nat := 0x20202C + 0x10000 * (e / 8) + 0x800 * (e % 8)
/-- ENG_PMERR, Table LE-5. -/
abbrev A.engPmerr (e : Nat) : Nat := 0x202030 + 0x10000 * (e / 8) + 0x800 * (e % 8)
/-- ENG_ECCCNT, Table LE-5. -/
abbrev A.engEcccnt (e : Nat) : Nat := 0x202034 + 0x10000 * (e / 8) + 0x800 * (e % 8)
/-- PARK_MASK0, Table LE-5. -/
abbrev A.parkMask0 (e : Nat) : Nat := 0x202038 + 0x10000 * (e / 8) + 0x800 * (e % 8)
/-- PARK_MASK1, Table LE-5. -/
abbrev A.parkMask1 (e : Nat) : Nat := 0x20203C + 0x10000 * (e / 8) + 0x800 * (e % 8)
/-- PARK_MASK2, Table LE-5. -/
abbrev A.parkMask2 (e : Nat) : Nat := 0x202040 + 0x10000 * (e / 8) + 0x800 * (e % 8)
/-- PARK_MASK3, Table LE-5. -/
abbrev A.parkMask3 (e : Nat) : Nat := 0x202044 + 0x10000 * (e / 8) + 0x800 * (e % 8)
/-- ENG_BANKCRC1, Table LE-5. -/
abbrev A.engBankcrc1 (e : Nat) : Nat := 0x202048 + 0x10000 * (e / 8) + 0x800 * (e % 8)
/-- CLU_CTRL, Table LE-11. -/
abbrev A.cluCtrl (n : Nat) : Nat := 0x200000 + 0x10000 * n
/-- CLU_STAT, Table LE-11. -/
abbrev A.cluStat (n : Nat) : Nat := 0x200004 + 0x10000 * n
/-- CLU_EVT, Table LE-11. -/
abbrev A.cluEvt (n : Nat) : Nat := 0x200008 + 0x10000 * n
/-- ECT_CRC, Table LE-11. -/
abbrev A.ectCrc (n : Nat) : Nat := 0x20000C + 0x10000 * n
/-- ECT_UPDCNT, Table LE-11. -/
abbrev A.ectUpdcnt (n : Nat) : Nat := 0x200010 + 0x10000 * n
/-- TBL_ECCCNT, Table LE-11. -/
abbrev A.tblEcccnt (n : Nat) : Nat := 0x200014 + 0x10000 * n
/-- TBL_ERRADDR, Table LE-11. -/
abbrev A.tblErraddr (n : Nat) : Nat := 0x200018 + 0x10000 * n
/-- CLU_FRAME_LO, Table LE-11. -/
abbrev A.cluFrameLo (n : Nat) : Nat := 0x20001C + 0x10000 * n
/-- CLU_FRAME_HI, Table LE-11. -/
abbrev A.cluFrameHi (n : Nat) : Nat := 0x200020 + 0x10000 * n
/-- KLK_CTRL, Table HD-12. -/
abbrev A.klkCtrl : Nat := 0x360000
/-- KLK_STAT, Table HD-12. -/
abbrev A.klkStat : Nat := 0x360004
/-- KLK_EVT, Table HD-12. -/
abbrev A.klkEvt : Nat := 0x360008
/-- KLK_ADDR, Table HD-12. -/
abbrev A.klkAddr : Nat := 0x36000C
/-- KLK_NH_SEL, Table HD-12. -/
abbrev A.klkNhSel : Nat := 0x360010
/-- KLK_NH_DATA, Table HD-12. -/
abbrev A.klkNhData : Nat := 0x360014
/-- KLK_FWDCNT, Table HD-12. -/
abbrev A.klkFwdcnt : Nat := 0x360018
/-- KLK_DROPCNT, Table HD-12. -/
abbrev A.klkDropcnt : Nat := 0x36001C
/-- KLK_UDP_CTRL, Table HD-12. -/
abbrev A.klkUdpCtrl : Nat := 0x360020
/-- KLK_TUN_SEL, Table HD-12. -/
abbrev A.klkTunSel : Nat := 0x360024
/-- KLK_TUN_ADDR0–3, Table HD-12. -/
abbrev A.klkTunAddr (i : Nat) : Nat := 0x360028 + 4 * i
/-- KLK_TUN_CTRL, Table HD-12. -/
abbrev A.klkTunCtrl : Nat := 0x360038
/-- KLK_UDPCNT, Table HD-12. -/
abbrev A.klkUdpcnt : Nat := 0x36003C
/-- KLK_LCTRL, Table HD-13. -/
abbrev A.klkLctrl (n : Nat) : Nat := 0x360100 + 0x40 * n
/-- KLK_LSTAT, Table HD-13. -/
abbrev A.klkLstat (n : Nat) : Nat := 0x360104 + 0x40 * n
/-- KLK_LEVT, Table HD-13. -/
abbrev A.klkLevt (n : Nat) : Nat := 0x360108 + 0x40 * n
/-- KLK_PEER, Table HD-13. -/
abbrev A.klkPeer (n : Nat) : Nat := 0x36010C + 0x40 * n
/-- KLK_CRED, Table HD-13. -/
abbrev A.klkCred (n : Nat) : Nat := 0x360110 + 0x40 * n
/-- KLK_TXFRM, Table HD-13. -/
abbrev A.klkTxfrm (n : Nat) : Nat := 0x360114 + 0x40 * n
/-- KLK_RXFRM, Table HD-13. -/
abbrev A.klkRxfrm (n : Nat) : Nat := 0x360118 + 0x40 * n
/-- KLK_RETRY, Table HD-13. -/
abbrev A.klkRetry (n : Nat) : Nat := 0x36011C + 0x40 * n
/-- KLK_CRCERR, Table HD-13. -/
abbrev A.klkCrcerr (n : Nat) : Nat := 0x360120 + 0x40 * n
/-- KLK_FECCOR, Table HD-13. -/
abbrev A.klkFeccor (n : Nat) : Nat := 0x360124 + 0x40 * n
/-- KLK_FECUNC, Table HD-13. -/
abbrev A.klkFecunc (n : Nat) : Nat := 0x360128 + 0x40 * n
/-- KLK_STALL, Table HD-13. -/
abbrev A.klkStall (n : Nat) : Nat := 0x36012C + 0x40 * n
/-- KLK_RTT, Table HD-13. -/
abbrev A.klkRtt (n : Nat) : Nat := 0x360130 + 0x40 * n
/-- KLK_LDROP, Table HD-13. -/
abbrev A.klkLdrop (n : Nat) : Nat := 0x360134 + 0x40 * n
/-- HDL_CTRL, Table HD-14. -/
abbrev A.hdlCtrl : Nat := 0x370000
/-- HDL_G, Table HD-14. -/
abbrev A.hdlG : Nat := 0x370004
/-- HDL_W, Table HD-14. -/
abbrev A.hdlW : Nat := 0x370008
/-- HDL_LAT, Table HD-14. -/
abbrev A.hdlLat : Nat := 0x37000C
/-- HDL_RTX, Table HD-14. -/
abbrev A.hdlRtx : Nat := 0x370010
/-- HDL_MINLEAD, Table HD-14. -/
abbrev A.hdlMinlead : Nat := 0x370014
/-- HDL_STAT, Table HD-14. -/
abbrev A.hdlStat : Nat := 0x370018
/-- HDL_EVT, Table HD-14. -/
abbrev A.hdlEvt : Nat := 0x37001C
/-- HDL_GSTAT0–31, Table HD-14. -/
abbrev A.hdlGstat (i : Nat) : Nat := 0x370020 + 4 * i
/-- CMD_CTRL, Table CS-18. -/
abbrev A.cmdCtrl : Nat := 0x400000
/-- CMD_STAT, Table CS-18. -/
abbrev A.cmdStat : Nat := 0x400004
/-- CMD_EVT, Table CS-18. -/
abbrev A.cmdEvt : Nat := 0x400008
/-- AQ_SIZE, Table CS-18. -/
abbrev A.aqSize : Nat := 0x40000C
/-- ASQ_BASE_LO, Table CS-18. -/
abbrev A.asqBaseLo : Nat := 0x400010
/-- ASQ_BASE_HI, Table CS-18. -/
abbrev A.asqBaseHi : Nat := 0x400014
/-- ACQ_BASE_LO, Table CS-18. -/
abbrev A.acqBaseLo : Nat := 0x400018
/-- ACQ_BASE_HI, Table CS-18. -/
abbrev A.acqBaseHi : Nat := 0x40001C
/-- CMD_UDP, Table CS-18. -/
abbrev A.cmdUdp : Nat := 0x400020
/-- CMD_CNT, Table CS-18. -/
abbrev A.cmdCnt : Nat := 0x400024
/-- DGRAM_CNT, Table CS-18. -/
abbrev A.dgramCnt : Nat := 0x400028
/-- Q_EXIST0, Table CS-18. -/
abbrev A.qExist0 : Nat := 0x40002C
/-- Q_EXIST1, Table CS-18. -/
abbrev A.qExist1 : Nat := 0x400030
/-- Q_EXIST2, Table CS-18. -/
abbrev A.qExist2 : Nat := 0x400034
/-- PCI_LSTAT, Table CS-19. -/
abbrev A.pciLstat : Nat := 0x402000
/-- PCI_EVT, Table CS-19. -/
abbrev A.pciEvt : Nat := 0x402004
/-- PCI_ERRCNT, Table CS-19. -/
abbrev A.pciErrcnt : Nat := 0x402008
/-- TEN_SEL, Table CS-20. -/
abbrev A.tenSel : Nat := 0x403000
/-- TEN_RIGHTS, Table CS-20. -/
abbrev A.tenRights : Nat := 0x403004
/-- TEN_QUOTA, Table CS-20. -/
abbrev A.tenQuota : Nat := 0x403008
/-- TEN_PROT, Table CS-20. -/
abbrev A.tenProt : Nat := 0x40300C
/-- TEN_TAGCAP, Table CS-20. -/
abbrev A.tenTagcap : Nat := 0x403010
/-- TEN_INFLIGHT, Table CS-20. -/
abbrev A.tenInflight : Nat := 0x403014
/-- TEN_CMDCNT, Table CS-20. -/
abbrev A.tenCmdcnt : Nat := 0x403018
/-- TEN_ERRCNT, Table CS-20. -/
abbrev A.tenErrcnt : Nat := 0x40301C
/-- SRC_SEL, Table CS-20. -/
abbrev A.srcSel : Nat := 0x403020
/-- SRC_CTRL, Table CS-20. -/
abbrev A.srcCtrl : Nat := 0x403024
/-- SRC_ID_LO, Table CS-20. -/
abbrev A.srcIdLo : Nat := 0x403028
/-- SRC_ID_HI, Table CS-20. -/
abbrev A.srcIdHi : Nat := 0x40302C
/-- SRC_SEQ, Table CS-20. -/
abbrev A.srcSeq : Nat := 0x403030
/-- SRC_CNT, Table CS-20. -/
abbrev A.srcCnt : Nat := 0x403034
/-- PTP_CTRL, Table TM-4. -/
abbrev A.ptpCtrl : Nat := 0x320000
/-- PTP_STAT, Table TM-4. -/
abbrev A.ptpStat : Nat := 0x320004
/-- PTP_EVT, Table TM-4. -/
abbrev A.ptpEvt : Nat := 0x320008
/-- PTP_DOMAIN, Table TM-4. -/
abbrev A.ptpDomain : Nat := 0x32000C
/-- TIME_NS_LO, Table TM-4. -/
abbrev A.timeNsLo : Nat := 0x320010
/-- TIME_NS_HI, Table TM-4. -/
abbrev A.timeNsHi : Nat := 0x320014
/-- TICK_LO, Table TM-4. -/
abbrev A.tickLo : Nat := 0x320018
/-- TICK_HI, Table TM-4. -/
abbrev A.tickHi : Nat := 0x32001C
/-- RATE_ADJ, Table TM-4. -/
abbrev A.rateAdj : Nat := 0x320020
/-- OFFSET, Table TM-4. -/
abbrev A.offset : Nat := 0x320024
/-- SERVO_BW, Table TM-4. -/
abbrev A.servoBw : Nat := 0x320028
/-- STEP_THR, Table TM-4. -/
abbrev A.stepThr : Nat := 0x32002C
/-- SYNC_THR, Table TM-4. -/
abbrev A.syncThr : Nat := 0x320030
/-- PC_CTRL, Table TM-4. -/
abbrev A.pcCtrl : Nat := 0x320034
/-- HO_SYNC, Table TM-4. -/
abbrev A.hoSync : Nat := 0x320038
/-- LANE_OFS, Table TM-4. -/
abbrev A.laneOfs : Nat := 0x32003C
/-- FRAME_ERR, Table TM-4. -/
abbrev A.frameErr : Nat := 0x320040
/-- PPS_CTRL, Table TM-4. -/
abbrev A.ppsCtrl : Nat := 0x320044
/-- PPS_IN_TS_LO, Table TM-4. -/
abbrev A.ppsInTsLo : Nat := 0x320048
/-- PPS_IN_TS_HI, Table TM-4. -/
abbrev A.ppsInTsHi : Nat := 0x32004C
/-- PPS_IN_DLY, Table TM-4. -/
abbrev A.ppsInDly : Nat := 0x320050
/-- TIME_STEPCNT, Table TM-4. -/
abbrev A.timeStepcnt : Nat := 0x320054
/-- PP_CTRL, Table TM-8. -/
abbrev A.ppCtrl (n : Nat) : Nat := 0x320100 + 0x80 * n
/-- PP_STAT, Table TM-8. -/
abbrev A.ppStat (n : Nat) : Nat := 0x320104 + 0x80 * n
/-- PP_MASTER_LO, Table TM-8. -/
abbrev A.ppMasterLo (n : Nat) : Nat := 0x320108 + 0x80 * n
/-- PP_MASTER_HI, Table TM-8. -/
abbrev A.ppMasterHi (n : Nat) : Nat := 0x32010C + 0x80 * n
/-- PP_ASYM, Table TM-8. -/
abbrev A.ppAsym (n : Nat) : Nat := 0x320110 + 0x80 * n
/-- PP_TXCORR, Table TM-8. -/
abbrev A.ppTxcorr (n : Nat) : Nat := 0x320114 + 0x80 * n
/-- PP_RXCORR, Table TM-8. -/
abbrev A.ppRxcorr (n : Nat) : Nat := 0x320118 + 0x80 * n
/-- PP_EXT_TX, Table TM-8. -/
abbrev A.ppExtTx (n : Nat) : Nat := 0x32011C + 0x80 * n
/-- PP_EXT_RX, Table TM-8. -/
abbrev A.ppExtRx (n : Nat) : Nat := 0x320120 + 0x80 * n
/-- PP_OFFSET, Table TM-8. -/
abbrev A.ppOffset (n : Nat) : Nat := 0x320124 + 0x80 * n
/-- PP_DELAY, Table TM-8. -/
abbrev A.ppDelay (n : Nat) : Nat := 0x320128 + 0x80 * n
/-- PP_RXCNT, Table TM-8. -/
abbrev A.ppRxcnt (n : Nat) : Nat := 0x32012C + 0x80 * n
/-- PP_ERRCNT, Table TM-8. -/
abbrev A.ppErrcnt (n : Nat) : Nat := 0x320130 + 0x80 * n
/-- GCL_SEL, Table TM-9. -/
abbrev A.gclSel : Nat := 0x320200
/-- GCL_GATES, Table TM-9. -/
abbrev A.gclGates : Nat := 0x320204
/-- GCL_INTERVAL, Table TM-9. -/
abbrev A.gclInterval : Nat := 0x320208
/-- GCL_LEN, Table TM-9. -/
abbrev A.gclLen : Nat := 0x32020C
/-- GCL_CYCLE, Table TM-9. -/
abbrev A.gclCycle : Nat := 0x320210
/-- GCL_EXT, Table TM-9. -/
abbrev A.gclExt : Nat := 0x320214
/-- GCL_BASE_LO, Table TM-9. -/
abbrev A.gclBaseLo : Nat := 0x320218
/-- GCL_BASE_HI, Table TM-9. -/
abbrev A.gclBaseHi : Nat := 0x32021C
/-- GCL_CTRL, Table TM-9. -/
abbrev A.gclCtrl : Nat := 0x320220
/-- GCL_STAT, Table TM-9. -/
abbrev A.gclStat : Nat := 0x320224
/-- GCL_OVSZ, Table TM-9. -/
abbrev A.gclOvsz : Nat := 0x320228
/-- GCL_LT, Table TM-9. -/
abbrev A.gclLt : Nat := 0x32022C
/-- ETH_CTRL, Table TT-9. -/
abbrev A.ethCtrl (n : Nat) : Nat := 0x300000 + 0x1000 * n
/-- ETH_STAT, Table TT-9. -/
abbrev A.ethStat (n : Nat) : Nat := 0x300004 + 0x1000 * n
/-- ETH_EVT, Table TT-9. -/
abbrev A.ethEvt (n : Nat) : Nat := 0x300008 + 0x1000 * n
/-- ETH_BUF, Table TT-9. -/
abbrev A.ethBuf (n : Nat) : Nat := 0x30000C + 0x1000 * n
/-- ETH_HBMOVF, Table TT-9. -/
abbrev A.ethHbmovf (n : Nat) : Nat := 0x300010 + 0x1000 * n
/-- MAC_CTRL, Table TT-10. -/
abbrev A.macCtrl (k : Nat) : Nat := 0x300100 + 0x1000 * (k / 8) + 0x80 * (k % 8)
/-- MAC_ADDR_LO, Table TT-10. -/
abbrev A.macAddrLo (k : Nat) : Nat := 0x300104 + 0x1000 * (k / 8) + 0x80 * (k % 8)
/-- MAC_ADDR_HI, Table TT-10. -/
abbrev A.macAddrHi (k : Nat) : Nat := 0x300108 + 0x1000 * (k / 8) + 0x80 * (k % 8)
/-- NH_MAC_LO, Table TT-10. -/
abbrev A.nhMacLo (k : Nat) : Nat := 0x30010C + 0x1000 * (k / 8) + 0x80 * (k % 8)
/-- NH_MAC_HI, Table TT-10. -/
abbrev A.nhMacHi (k : Nat) : Nat := 0x300110 + 0x1000 * (k / 8) + 0x80 * (k % 8)
/-- IPV4, Table TT-10. -/
abbrev A.ipv4 (k : Nat) : Nat := 0x300114 + 0x1000 * (k / 8) + 0x80 * (k % 8)
/-- IPV6_0–3, Table TT-10. -/
abbrev A.ipv6 (k : Nat) (i : Nat) : Nat := 0x300118 + 0x1000 * (k / 8) + 0x80 * (k % 8) + 4 * i
/-- DEV_TAG, Table TT-10. -/
abbrev A.devTag (k : Nat) : Nat := 0x300128 + 0x1000 * (k / 8) + 0x80 * (k % 8)
/-- PFC_SEL, Table TT-10. -/
abbrev A.pfcSel (k : Nat) : Nat := 0x30012C + 0x1000 * (k / 8) + 0x80 * (k % 8)
/-- PFC_HDRM, Table TT-10. -/
abbrev A.pfcHdrm (k : Nat) : Nat := 0x300130 + 0x1000 * (k / 8) + 0x80 * (k % 8)
/-- PFC_XOFF, Table TT-10. -/
abbrev A.pfcXoff (k : Nat) : Nat := 0x300134 + 0x1000 * (k / 8) + 0x80 * (k % 8)
/-- PFC_XON, Table TT-10. -/
abbrev A.pfcXon (k : Nat) : Nat := 0x300138 + 0x1000 * (k / 8) + 0x80 * (k % 8)
/-- PFC_STAT, Table TT-10. -/
abbrev A.pfcStat (k : Nat) : Nat := 0x30013C + 0x1000 * (k / 8) + 0x80 * (k % 8)
/-- MAC_TXFRM, Table TT-10. -/
abbrev A.macTxfrm (k : Nat) : Nat := 0x300140 + 0x1000 * (k / 8) + 0x80 * (k % 8)
/-- MAC_RXFRM, Table TT-10. -/
abbrev A.macRxfrm (k : Nat) : Nat := 0x300144 + 0x1000 * (k / 8) + 0x80 * (k % 8)
/-- MAC_RXERR, Table TT-10. -/
abbrev A.macRxerr (k : Nat) : Nat := 0x300148 + 0x1000 * (k / 8) + 0x80 * (k % 8)
/-- PFC_DROP, Table TT-10. -/
abbrev A.pfcDrop (k : Nat) : Nat := 0x30014C + 0x1000 * (k / 8) + 0x80 * (k % 8)
/-- PFC_CNT, Table TT-10. -/
abbrev A.pfcCnt (k : Nat) : Nat := 0x300150 + 0x1000 * (k / 8) + 0x80 * (k % 8)
/-- MS_CTRL, Table TT-11. -/
abbrev A.msCtrl (n : Nat) : Nat := 0x310000 + 0x100 * n
/-- MS_STAT, Table TT-11. -/
abbrev A.msStat (n : Nat) : Nat := 0x310004 + 0x100 * n
/-- MS_EVT, Table TT-11. -/
abbrev A.msEvt (n : Nat) : Nat := 0x310008 + 0x100 * n
/-- MS_SCI_LO, Table TT-11. -/
abbrev A.msSciLo (n : Nat) : Nat := 0x31000C + 0x100 * n
/-- MS_SCI_HI, Table TT-11. -/
abbrev A.msSciHi (n : Nat) : Nat := 0x310010 + 0x100 * n
/-- MS_REPLAY_WIN, Table TT-11. -/
abbrev A.msReplayWin (n : Nat) : Nat := 0x310014 + 0x100 * n
/-- MKA_PRIO, Table TT-11. -/
abbrev A.mkaPrio (n : Nat) : Nat := 0x310018 + 0x100 * n
/-- CAK0–7, Table TT-11. -/
abbrev A.cak (n : Nat) (i : Nat) : Nat := 0x310020 + 0x100 * n + 4 * i
/-- CKN0–7, Table TT-11. -/
abbrev A.ckn (n : Nat) (i : Nat) : Nat := 0x310040 + 0x100 * n + 4 * i
/-- CKN_LEN, Table TT-11. -/
abbrev A.cknLen (n : Nat) : Nat := 0x310060 + 0x100 * n
/-- CAK_CTRL, Table TT-11. -/
abbrev A.cakCtrl (n : Nat) : Nat := 0x310064 + 0x100 * n
/-- MS_TXPROT, Table TT-11. -/
abbrev A.msTxprot (n : Nat) : Nat := 0x310068 + 0x100 * n
/-- MS_RXOK, Table TT-11. -/
abbrev A.msRxok (n : Nat) : Nat := 0x31006C + 0x100 * n
/-- MS_RXDROP, Table TT-11. -/
abbrev A.msRxdrop (n : Nat) : Nat := 0x310070 + 0x100 * n
/-- MS_NOSC, Table TT-11. -/
abbrev A.msNosc (n : Nat) : Nat := 0x310074 + 0x100 * n
/-- TSH_CTRL, Table TT-12. -/
abbrev A.tshCtrl : Nat := 0x330000
/-- TSH_STAT, Table TT-12. -/
abbrev A.tshStat : Nat := 0x330004
/-- TSH_EVT, Table TT-12. -/
abbrev A.tshEvt : Nat := 0x330008
/-- Q_SEL, Table TT-12. -/
abbrev A.qSel : Nat := 0x33000C
/-- Q_CFG, Table TT-12. -/
abbrev A.qCfg : Nat := 0x330010
/-- Q_RATE, Table TT-12. -/
abbrev A.qRate : Nat := 0x330014
/-- Q_BURST, Table TT-12. -/
abbrev A.qBurst : Nat := 0x330018
/-- Q_APPLY, Table TT-12. -/
abbrev A.qApply : Nat := 0x33001C
/-- Q_TOKENS, Table TT-12. -/
abbrev A.qTokens : Nat := 0x330020
/-- Q_DEPTH, Table TT-12. -/
abbrev A.qDepth : Nat := 0x330024
/-- Q_DROP, Table TT-12. -/
abbrev A.qDrop : Nat := 0x330028
/-- HIST_SEL, Table TT-12. -/
abbrev A.histSel : Nat := 0x33002C
/-- HIST_BIN, Table TT-12. -/
abbrev A.histBin : Nat := 0x330030
/-- HIST_CLR, Table TT-12. -/
abbrev A.histClr : Nat := 0x330034
/-- REP_CTRL, Table TT-12. -/
abbrev A.repCtrl : Nat := 0x330038
/-- REP_STAT, Table TT-12. -/
abbrev A.repStat : Nat := 0x33003C
/-- REP_TRIG_LO, Table TT-12. -/
abbrev A.repTrigLo : Nat := 0x330040
/-- REP_TRIG_HI, Table TT-12. -/
abbrev A.repTrigHi : Nat := 0x330044
/-- REP_OLDEST_LO, Table TT-12. -/
abbrev A.repOldestLo : Nat := 0x330048
/-- REP_OLDEST_HI, Table TT-12. -/
abbrev A.repOldestHi : Nat := 0x33004C
/-- REP_CAUSE, Table TT-12. -/
abbrev A.repCause : Nat := 0x330050
/-- TLM_GAPCNT, Table TT-12. -/
abbrev A.tlmGapcnt : Nat := 0x330054
/-- POL_SEL, Table TT-13. -/
abbrev A.polSel : Nat := 0x340000
/-- POL_CTRL, Table TT-13. -/
abbrev A.polCtrl : Nat := 0x340004
/-- POL_CIR, Table TT-13. -/
abbrev A.polCir : Nat := 0x340008
/-- POL_CBS, Table TT-13. -/
abbrev A.polCbs : Nat := 0x34000C
/-- POL_PIR, Table TT-13. -/
abbrev A.polPir : Nat := 0x340010
/-- POL_EPBS, Table TT-13. -/
abbrev A.polEpbs : Nat := 0x340014
/-- POL_APPLY, Table TT-13. -/
abbrev A.polApply : Nat := 0x340018
/-- POL_GREEN, Table TT-13. -/
abbrev A.polGreen : Nat := 0x34001C
/-- POL_YELLOW, Table TT-13. -/
abbrev A.polYellow : Nat := 0x340020
/-- POL_RED, Table TT-13. -/
abbrev A.polRed : Nat := 0x340024
/-- POL_DROP, Table TT-13. -/
abbrev A.polDrop : Nat := 0x340028
/-- POL_EVT, Table TT-13. -/
abbrev A.polEvt : Nat := 0x34002C
/-- HBM_CTRL, Table MM-7. -/
abbrev A.hbmCtrl : Nat := 0x500000
/-- HBM_STAT, Table MM-7. -/
abbrev A.hbmStat : Nat := 0x500004
/-- HBM_EVT, Table MM-7. -/
abbrev A.hbmEvt : Nat := 0x500008
/-- HBM_APER, Table MM-7. -/
abbrev A.hbmAper : Nat := 0x50000C
/-- HBM_CECNT, Table MM-7. -/
abbrev A.hbmCecnt : Nat := 0x500010
/-- HBM_UECNT, Table MM-7. -/
abbrev A.hbmUecnt : Nat := 0x500014
/-- HBM_ERRADDR_LO, Table MM-7. -/
abbrev A.hbmErraddrLo : Nat := 0x500018
/-- HBM_ERRADDR_HI, Table MM-7. -/
abbrev A.hbmErraddrHi : Nat := 0x50001C
/-- HBM_RETIRED, Table MM-7. -/
abbrev A.hbmRetired : Nat := 0x500020
/-- HBM_SCRUB, Table MM-7. -/
abbrev A.hbmScrub : Nat := 0x500024
/-- CH_STAT, Table MM-8. -/
abbrev A.chStat (n : Nat) : Nat := 0x500100 + 0x20 * n
/-- CH_CECNT, Table MM-8. -/
abbrev A.chCecnt (n : Nat) : Nat := 0x500104 + 0x20 * n
/-- CH_UECNT, Table MM-8. -/
abbrev A.chUecnt (n : Nat) : Nat := 0x500108 + 0x20 * n
/-- CH_RETIRED, Table MM-8. -/
abbrev A.chRetired (n : Nat) : Nat := 0x50010C + 0x20 * n
/-- CH_INNER, Table MM-8. -/
abbrev A.chInner (n : Nat) : Nat := 0x500110 + 0x20 * n
/-- NVM_CTRL, Table MM-9. -/
abbrev A.nvmCtrl : Nat := 0x7000
/-- NVM_STAT, Table MM-9. -/
abbrev A.nvmStat : Nat := 0x7004
/-- NVM_EVT, Table MM-9. -/
abbrev A.nvmEvt : Nat := 0x7008
/-- NVM_TXN_LO, Table MM-9. -/
abbrev A.nvmTxnLo : Nat := 0x700C
/-- NVM_TXN_HI, Table MM-9. -/
abbrev A.nvmTxnHi : Nat := 0x7010
/-- NVM_RESULT, Table MM-9. -/
abbrev A.nvmResult : Nat := 0x7014
/-- NVM_PT_CTRL, Table MM-9. -/
abbrev A.nvmPtCtrl : Nat := 0x7018
/-- NVM_PT_ERROFS, Table MM-9. -/
abbrev A.nvmPtErrofs : Nat := 0x701C
/-- NVM_CECNT, Table MM-9. -/
abbrev A.nvmCecnt : Nat := 0x7020
/-- NVM_UECNT, Table MM-9. -/
abbrev A.nvmUecnt : Nat := 0x7024
/-- NVM_ERRADDR, Table MM-9. -/
abbrev A.nvmErraddr : Nat := 0x7028
/-- NVM_FLOG, Table MM-9. -/
abbrev A.nvmFlog : Nat := 0x702C
/-- RG_STAT, Table MM-10. -/
abbrev A.rgStat (n : Nat) : Nat := 0x7100 + 0x20 * n
/-- RG_WRCNT, Table MM-10. -/
abbrev A.rgWrcnt (n : Nat) : Nat := 0x7104 + 0x20 * n
/-- RG_LASTTXN, Table MM-10. -/
abbrev A.rgLasttxn (n : Nat) : Nat := 0x7108 + 0x20 * n
/-- RG_LASTIDX, Table MM-10. -/
abbrev A.rgLastidx (n : Nat) : Nat := 0x710C + 0x20 * n
/-- RG_CECNT, Table MM-10. -/
abbrev A.rgCecnt (n : Nat) : Nat := 0x7110 + 0x20 * n
/-- RG_UECNT, Table MM-10. -/
abbrev A.rgUecnt (n : Nat) : Nat := 0x7114 + 0x20 * n
/-- CLK_STAT, Table CK-8. -/
abbrev A.clkStat : Nat := 0x1000
/-- CLK_EVT, Table CK-8. -/
abbrev A.clkEvt : Nat := 0x1004
/-- CLK_GATE0, Table CK-8. -/
abbrev A.clkGate0 : Nat := 0x1008
/-- CLK_GATE1, Table CK-8. -/
abbrev A.clkGate1 : Nat := 0x100C
/-- CLK_XOVF0, Table CK-8. -/
abbrev A.clkXovf0 : Nat := 0x1010
/-- CLK_XOVF1, Table CK-8. -/
abbrev A.clkXovf1 : Nat := 0x1014
/-- CLK_FDROP, Table CK-8. -/
abbrev A.clkFdrop : Nat := 0x1018
/-- CLK_LOSSCNT, Table CK-8. -/
abbrev A.clkLosscnt : Nat := 0x101C
/-- CLK_REFMEAS, Table CK-8. -/
abbrev A.clkRefmeas : Nat := 0x1020
/-- RST_CAUSE, Table CK-10. -/
abbrev A.rstCause : Nat := 0x2000
/-- RST_UMPSRC, Table CK-10. -/
abbrev A.rstUmpsrc : Nat := 0x2004
/-- RST_SWRST, Table CK-10. -/
abbrev A.rstSwrst : Nat := 0x2008
/-- RST_WDT, Table CK-10. -/
abbrev A.rstWdt : Nat := 0x200C
/-- RST_PHASE, Table CK-10. -/
abbrev A.rstPhase : Nat := 0x2010
/-- RST_BLKLAST, Table CK-10. -/
abbrev A.rstBlklast : Nat := 0x2014
/-- RST_BLKCNT, Table CK-10. -/
abbrev A.rstBlkcnt : Nat := 0x2018
/-- RST_COUNT, Table CK-10. -/
abbrev A.rstCount : Nat := 0x201C
/-- RST_EVT, Table CK-10. -/
abbrev A.rstEvt : Nat := 0x2020
/-- OPT_STAT, Table CK-12. -/
abbrev A.optStat : Nat := 0x3000
/-- OPT_GEN, Table CK-12. -/
abbrev A.optGen : Nat := 0x3004
/-- OPT_CRC, Table CK-12. -/
abbrev A.optCrc : Nat := 0x3008
/-- OPT_PEND, Table CK-12. -/
abbrev A.optPend : Nat := 0x300C
/-- OPT_IMG0–6, Table CK-12. -/
abbrev A.optImg (i : Nat) : Nat := 0x3010 + 4 * i
/-- UMP_CTRL, Table FT-9. -/
abbrev A.umpCtrl : Nat := 0x5000
/-- UMP_STAT, Table FT-9. -/
abbrev A.umpStat : Nat := 0x5004
/-- UMP_GRP, Table FT-9. -/
abbrev A.umpGrp : Nat := 0x5008
/-- UMP_SEL, Table FT-9. -/
abbrev A.umpSel : Nat := 0x500C
/-- UMP_CFG, Table FT-9. -/
abbrev A.umpCfg : Nat := 0x5010
/-- UMP_THR, Table FT-9. -/
abbrev A.umpThr : Nat := 0x5014
/-- UMP_WIN, Table FT-9. -/
abbrev A.umpWin : Nat := 0x5018
/-- UMP_INFO, Table FT-9. -/
abbrev A.umpInfo : Nat := 0x501C
/-- UMP_FE_SRC, Table FT-9. -/
abbrev A.umpFeSrc : Nat := 0x5020
/-- UMP_FE_ADDR_LO, Table FT-9. -/
abbrev A.umpFeAddrLo : Nat := 0x5024
/-- UMP_FE_ADDR_HI, Table FT-9. -/
abbrev A.umpFeAddrHi : Nat := 0x5028
/-- UMP_FE_INFO, Table FT-9. -/
abbrev A.umpFeInfo : Nat := 0x502C
/-- UMP_FE_TIME_LO, Table FT-9. -/
abbrev A.umpFeTimeLo : Nat := 0x5030
/-- UMP_FE_TIME_HI, Table FT-9. -/
abbrev A.umpFeTimeHi : Nat := 0x5034
/-- UMP_SAFE_SRC, Table FT-9. -/
abbrev A.umpSafeSrc : Nat := 0x5038
/-- UMP_EXT, Table FT-9. -/
abbrev A.umpExt : Nat := 0x503C
/-- THM_CTRL, Table FT-11. -/
abbrev A.thmCtrl : Nat := 0x4000
/-- THM_STAT, Table FT-11. -/
abbrev A.thmStat : Nat := 0x4004
/-- THM_HOT, Table FT-11. -/
abbrev A.thmHot : Nat := 0x4008
/-- THM_TRIP, Table FT-11. -/
abbrev A.thmTrip : Nat := 0x400C
/-- THM_DIODE_N, Table FT-11. -/
abbrev A.thmDiodeN : Nat := 0x4010
/-- THM_NTC_SEL, Table FT-11. -/
abbrev A.thmNtcSel : Nat := 0x4014
/-- THM_NTC_RNOM, Table FT-11. -/
abbrev A.thmNtcRnom : Nat := 0x4018
/-- THM_NTC_B, Table FT-11. -/
abbrev A.thmNtcB : Nat := 0x401C
/-- THM_NTC_RBIAS, Table FT-11. -/
abbrev A.thmNtcRbias : Nat := 0x4020
/-- THM_SMB, Table FT-11. -/
abbrev A.thmSmb : Nat := 0x4024
/-- THM_BRKCNT, Table FT-11. -/
abbrev A.thmBrkcnt : Nat := 0x4028
/-- THM_TEMP, Table FT-12. -/
abbrev A.thmTemp (n : Nat) : Nat := 0x4100 + 0x10 * n
/-- THM_SCTRL, Table FT-12. -/
abbrev A.thmSctrl (n : Nat) : Nat := 0x4104 + 0x10 * n
/-- THM_THR, Table FT-12. -/
abbrev A.thmThr (n : Nat) : Nat := 0x4108 + 0x10 * n
/-- THM_SSTAT, Table FT-12. -/
abbrev A.thmSstat (n : Nat) : Nat := 0x410C + 0x10 * n
/-- SEC_CTRL, Table SE-5. -/
abbrev A.secCtrl : Nat := 0x6000
/-- SEC_STAT, Table SE-5. -/
abbrev A.secStat : Nat := 0x6004
/-- SEC_EVT, Table SE-5. -/
abbrev A.secEvt : Nat := 0x6008
/-- SEC_ROMVER, Table SE-5. -/
abbrev A.secRomver : Nat := 0x600C
/-- SEC_PATCHVER, Table SE-5. -/
abbrev A.secPatchver : Nat := 0x6010
/-- SEC_ARB, Table SE-5. -/
abbrev A.secArb : Nat := 0x6014
/-- SEC_ENFSEQ, Table SE-5. -/
abbrev A.secEnfseq : Nat := 0x6018
/-- SEC_SIGCNT, Table SE-5. -/
abbrev A.secSigcnt : Nat := 0x601C
/-- SEC_UNLKCNT, Table SE-5. -/
abbrev A.secUnlkcnt : Nat := 0x6020
/-- SEC_CERT_LEN, Table SE-5. -/
abbrev A.secCertLen : Nat := 0x6024
/-- SEC_CERT_SEL, Table SE-5. -/
abbrev A.secCertSel : Nat := 0x6028
/-- SEC_CERT_DATA, Table SE-5. -/
abbrev A.secCertData : Nat := 0x602C
/-- SEC_ROMHASH0–15, Table SE-5. -/
abbrev A.secRomhash (i : Nat) : Nat := 0x6040 + 4 * i
/-- SEC_PATCHHASH0–15, Table SE-5. -/
abbrev A.secPatchhash (i : Nat) : Nat := 0x6080 + 4 * i
/-- SEC_OPTHASH0–15, Table SE-5. -/
abbrev A.secOpthash (i : Nat) : Nat := 0x60C0 + 4 * i
/-- ID_PART, Table MP-3. -/
abbrev A.idPart : Nat := 0x0
/-- ID_STEP, Table MP-3. -/
abbrev A.idStep : Nat := 0x4
/-- ID_VARIANT, Table MP-3. -/
abbrev A.idVariant : Nat := 0x8
/-- ID_SERIAL0–3, Table MP-3. -/
abbrev A.idSerial (i : Nat) : Nat := 0xC + 4 * i
/-- ID_SCRATCH, Table MP-3. -/
abbrev A.idScratch : Nat := 0x1C
/-- ID_BADADDR, Table MP-3. -/
abbrev A.idBadaddr : Nat := 0x20
/-- ID_BADCNT, Table MP-3. -/
abbrev A.idBadcnt : Nat := 0x24
/-- ID_BADOFS, Table MP-3. -/
abbrev A.idBadofs : Nat := 0x28
/-- DBG_CTRL, Table MP-4. -/
abbrev A.dbgCtrl : Nat := 0xF00000
/-- DBG_STAT, Table MP-4. -/
abbrev A.dbgStat : Nat := 0xF00004
/-- DBG_TRIG_ADDR, Table MP-4. -/
abbrev A.dbgTrigAddr : Nat := 0xF00008
/-- DBG_TRIG_MASK, Table MP-4. -/
abbrev A.dbgTrigMask : Nat := 0xF0000C
/-- DBG_FILTER, Table MP-4. -/
abbrev A.dbgFilter : Nat := 0xF00010
/-- DBG_RD_SEL, Table MP-4. -/
abbrev A.dbgRdSel : Nat := 0xF00014
/-- DBG_RD_DATA0–3, Table MP-4. -/
abbrev A.dbgRdData (i : Nat) : Nat := 0xF00018 + 4 * i
/-- CLK_DSTAT, Table CK-9. -/
abbrev A.clkDstat (n : Nat) : Nat := 0x1100 + 4 * n
/-- UMP_SRC, Table FT-10. -/
abbrev A.umpSrc (n : Nat) : Nat := 0x5400 + 4 * n
/-- SQ tail doorbell, Table R256. -/
abbrev A.sqTail (n : Nat) : Nat := 0x401000 + 8 * n
/-- CQ head doorbell, Table R256. -/
abbrev A.cqHead (n : Nat) : Nat := 0x401004 + 8 * n

/-! ## Copies of registers the tables call selected, list or per requester -/

/-- The first key above BAR0 (64 MiB, R374): hidden copies stand here. -/
abbrev A.hidden : Nat := 0x4000000
/-- UMP_CFG of source n (R360). -/
abbrev A.umpCfgOf (n : Nat) : Nat := A.hidden + 4 * n
/-- UMP_THR of source n (R360). -/
abbrev A.umpThrOf (n : Nat) : Nat := A.hidden + 0x1000 + 4 * n
/-- UMP_WIN of source n (R360). -/
abbrev A.umpWinOf (n : Nat) : Nat := A.hidden + 0x2000 + 4 * n
/-- Next-hop entry of destination address d (R213). -/
abbrev A.nextHopOf (d : Nat) : Nat := A.hidden + 0x10000 + 4 * d
/-- Word i (0-3 the address, 4 the control word) of UDP tunnel n (R215). -/
abbrev A.tunnelOf (n i : Nat) : Nat := A.hidden + 0x20000 + 0x20 * n + 4 * i
/-- PFC_HDRM, PFC_XOFF, PFC_XON (i = 0, 1, 2) of priority p of MAC k (R286). -/
abbrev A.pfcOf (k p i : Nat) : Nat := A.hidden + 0x30000 + 0x80 * k + 0x10 * p + 4 * i
/-- Telemetry queue q (port * 1024 + queue): 0 Q_CFG, 1 Q_RATE, 2 Q_BURST as written, 3 Q_RATE and
4 Q_BURST in force, 5 tokens, 6 drops (R298). -/
abbrev A.queueOf (q i : Nat) : Nat := A.hidden + 0x40000 + 0x20 * q + 4 * i
/-- Policer n: 0 CTRL, 1 CIR, 2 CBS, 3 PIR, 4 EPBS as written, 8-12 the same in force, 5 green, 6 yellow,
7 red arrivals, 13 drops (R300). -/
abbrev A.policerOf (n i : Nat) : Nat := A.hidden + 0x60000 + 0x40 * n + 4 * i
/-- Tenant t: 0 rights, 1 quota, 2 tag cap, 3 tags held, 4 commands, 5 errors (R28, R239, Table CS-20). -/
abbrev A.tenantOf (t i : Nat) : Nat := A.hidden + 0x70000 + 0x20 * t + 4 * i
/-- Source binding n: 0 SRC_CTRL, 1 ID_LO, 2 ID_HI, 3 SEQ, 4 CNT (R244, Table CS-20). -/
abbrev A.bindingOf (n i : Nat) : Nat := A.hidden + 0x80000 + 0x20 * n + 4 * i
/-- Thermistor input i: 0 RNOM, 1 B, 2 RBIAS (R354). -/
abbrev A.ntcOf (n i : Nat) : Nat := A.hidden + 0x90000 + 0x10 * n + 4 * i
/-- Gate list of MAC k, list l (0 admin, 1 operational, 2 pending): word 0 LEN, 1 CYCLE, 2 EXT, 3 BASE_LO,
4 BASE_HI; entry j has gates at 8 + 2 j and interval at 9 + 2 j (R278). -/
abbrev A.gclOf (k l w : Nat) : Nat := A.hidden + 0x100000 + 0x4000 * k + 0x1000 * l + 4 * w
/-- MAC k: 0 GCL_CTRL, 1 GCL_STAT, 2 GCL_OVSZ, 3 GCL_LT (Table TM-9). -/
abbrev A.gateMacOf (k i : Nat) : Nat := A.hidden + 0x150000 + 0x10 * k + 4 * i
/-- Histogram bin b of kind h (0 depth, 1 sojourn) of telemetry queue q (R299). -/
abbrev A.histOf (q h b : Nat) : Nat := A.hidden + 0x200000 + 0x80 * q + 0x40 * h + 4 * b
/-- MSI-X table word i (R374). -/
abbrev A.msixTable (i : Nat) : Nat := 0x404000 + 4 * i
/-- MSI-X pending-bit array word i (R374). -/
abbrev A.msixPba (i : Nat) : Nat := 0x405000 + 4 * i
/-- The copy of the _SEL register or HI-word latch at address a that belongs to requester r
(1 supervisors, 2 JTAG; the host's copy is the register itself) (R380, R381). -/
abbrev A.copyOf (r a : Nat) : Nat := A.hidden * (r + 1) + a

/-- One row of a register table: `n` by `n2` instances, and the masks of its bits by access type (Table SC-5).
Bits in no mask are RSV. -/
structure RegRow where
  base : Nat
  stride : Nat
  n : Nat
  stride2 : Nat
  n2 : Nat
  rw : Nat
  w1c : Nat
  w1s : Nat
  wo : Nat
  ro : Nat
deriving DecidableEq, Repr

/-- Does the row hold the register at address `a`? -/
def RegRow.holds (r : RegRow) (a : Nat) : Bool :=
  let x := a - r.base
  let i := if r.n = 1 then 0 else x / r.stride
  let y := x - i * r.stride
  let j := if r.n2 = 1 then 0 else y / r.stride2
  decide (r.base ≤ a) && decide (i < r.n) && decide (j < r.n2) && decide (a = r.base + i * r.stride + j * r.stride2)

/-- Rows of Table FL-10. -/
def rowsFL10 : List RegRow := [
  ⟨0x140000, 0x40, 12, 0x4, 1, 0x3, 0x0, 0x0, 0x80, 0x0⟩ /- TILE_CTRL -/,
  ⟨0x140004, 0x40, 12, 0x4, 1, 0x0, 0x0, 0x0, 0x0, 0xFFFF0000⟩ /- TILE_STAT -/,
  ⟨0x140008, 0x40, 12, 0x4, 1, 0x0, 0xFF, 0x0, 0x0, 0x0⟩ /- TILE_EVT -/,
  ⟨0x14000C, 0x40, 12, 0x4, 1, 0x0, 0x0, 0x0, 0x0, 0xFFFFFFFF⟩ /- TILE_UPSTAT -/,
  ⟨0x140010, 0x40, 12, 0x4, 1, 0x0, 0x0, 0x0, 0x0, 0xFFFFFFFF⟩ /- FCL_CNT0 -/,
  ⟨0x140014, 0x40, 12, 0x4, 1, 0x0, 0x0, 0x0, 0x0, 0xFFFFFFFF⟩ /- FCL_CNT1 -/,
  ⟨0x140018, 0x40, 12, 0x4, 1, 0x0, 0x0, 0x0, 0x0, 0xFFFF⟩ /- HFLT_LANE -/,
  ⟨0x14001C, 0x40, 12, 0x4, 1, 0xF, 0x0, 0x0, 0x0, 0x0⟩ /- HFLT_SEL -/,
  ⟨0x140020, 0x40, 12, 0x4, 1, 0x0, 0x0, 0x0, 0x0, 0xFFFFFFFF⟩ /- HFLT_MAP0 -/,
  ⟨0x140024, 0x40, 12, 0x4, 1, 0x0, 0x0, 0x0, 0x0, 0xFFFFFF⟩ /- HFLT_MAP1 -/,
  ⟨0x140028, 0x40, 12, 0x4, 1, 0x1F, 0x0, 0x0, 0x0, 0x0⟩ /- EML_DLY -/,
  ⟨0x14002C, 0x40, 12, 0x4, 1, 0x0, 0x0, 0x1, 0x0, 0x0⟩ /- PARK_CTRL -/,
  ⟨0x140030, 0x40, 12, 0x4, 1, 0x0, 0x0, 0x0, 0x0, 0xFFFFFFFF⟩ /- PARK_CRC -/,
  ⟨0x140034, 0x40, 12, 0x4, 1, 0x0, 0x0, 0x0, 0x0, 0xFFFF⟩ /- TILE_TEMP -/,
  ⟨0x140038, 0x40, 12, 0x4, 1, 0x0, 0x0, 0x0, 0x0, 0xFFFF⟩ /- TILE_ID -/,
  ⟨0x14003C, 0x40, 12, 0x4, 1, 0x0, 0x0, 0x0, 0x0, 0x0⟩ /- RSV -/]
/-- Rows of Table CV-5. -/
def rowsCV5 : List RegRow := [
  ⟨0x100000, 0x20, 192, 0x4, 1, 0x3, 0x0, 0x0, 0x80, 0x0⟩ /- EDL_CTRL -/,
  ⟨0x100004, 0x20, 192, 0x4, 1, 0x0, 0xF00, 0x0, 0x0, 0xF⟩ /- EDL_STAT -/,
  ⟨0x100008, 0x20, 192, 0x4, 1, 0x0, 0x0, 0x0, 0x0, 0xFFFF⟩ /- EDL_NANCNT -/,
  ⟨0x10000C, 0x20, 192, 0x4, 1, 0x0, 0x0, 0x0, 0x0, 0xFFFF⟩ /- EDL_SATCNT -/,
  ⟨0x100010, 0x20, 192, 0x4, 1, 0x0, 0x0, 0x0, 0x0, 0xFFFFFFFF⟩ /- EDL_PARKCRC -/,
  ⟨0x100014, 0x20, 192, 0x4, 3, 0x0, 0x0, 0x0, 0x0, 0x0⟩ /- RSV (R94) -/]
/-- Rows of Table CV-8. -/
def rowsCV8 : List RegRow := [
  ⟨0x120000, 0x20, 192, 0x4, 1, 0x7FF8F0FF, 0x0, 0x0, 0x80000000, 0x0⟩ /- EML_CTRL -/,
  ⟨0x120004, 0x20, 192, 0x4, 1, 0x0, 0xFF, 0x0, 0x0, 0xFFFFF000⟩ /- EML_STAT -/,
  ⟨0x120008, 0x20, 192, 0x4, 1, 0xFFFFFFFF, 0x0, 0x0, 0x0, 0x0⟩ /- EML_YIELD0 -/,
  ⟨0x12000C, 0x20, 192, 0x4, 1, 0xFFFFFF, 0x0, 0x0, 0x0, 0x0⟩ /- EML_YIELD1 -/,
  ⟨0x120010, 0x20, 192, 0x4, 1, 0xFFE0FFE0, 0x0, 0x0, 0x0, 0x0⟩ /- EML_INJ -/,
  ⟨0x120014, 0x20, 192, 0x4, 3, 0x0, 0x0, 0x0, 0x0, 0x0⟩ /- RSV (R94) -/]
/-- Rows of Table CV-11. -/
def rowsCV11 : List RegRow := [
  ⟨0x150000, 0x20, 24, 0x4, 1, 0x7, 0x0, 0x0, 0x0, 0x0⟩ /- BCO_CTRL -/,
  ⟨0x150004, 0x20, 24, 0x4, 1, 0xFFFF, 0x0, 0x0, 0x0, 0x0⟩ /- BCO_TARGET -/,
  ⟨0x150008, 0x20, 24, 0x4, 1, 0xFFFF, 0x0, 0x0, 0x0, 0x0⟩ /- BCO_SLEW -/,
  ⟨0x15000C, 0x20, 24, 0x4, 1, 0x0, 0xF, 0x0, 0x0, 0xFC000000⟩ /- BCO_STAT -/,
  ⟨0x150010, 0x20, 24, 0x4, 1, 0x0, 0x0, 0x0, 0x0, 0xFFFF⟩ /- BCO_IMEAS -/,
  ⟨0x150014, 0x20, 24, 0x4, 1, 0x0, 0x0, 0x0, 0x0, 0xFFF⟩ /- BCO_VMEAS -/,
  ⟨0x150018, 0x20, 24, 0x4, 1, 0x0, 0x0, 0x0, 0x0, 0x1FFFF⟩ /- BCO_PARK -/,
  ⟨0x15001C, 0x20, 24, 0x4, 1, 0x0, 0x0, 0x0, 0x0, 0xFFFF⟩ /- BCO_OUT -/]
/-- Rows of Table CV-13. -/
def rowsCV13 : List RegRow := [
  ⟨0x160000, 0x0, 1, 0x4, 1, 0x7, 0x0, 0x0, 0x0, 0x0⟩ /- TONE_CTRL -/,
  ⟨0x160004, 0x0, 1, 0x4, 1, 0x0, 0x7, 0x0, 0x0, 0x80000000⟩ /- TONE_STAT -/,
  ⟨0x160008, 0x0, 1, 0x4, 1, 0xFFFFFFFF, 0x0, 0x0, 0x0, 0x0⟩ /- PILOT_BASE -/,
  ⟨0x16000C, 0x0, 1, 0x4, 1, 0xFFFFFFFF, 0x0, 0x0, 0x0, 0x0⟩ /- PILOT_STEP -/,
  ⟨0x160010, 0x0, 1, 0x4, 1, 0xFF, 0x0, 0x0, 0x0, 0x0⟩ /- PILOT_DEPTH -/,
  ⟨0x160014, 0x0, 1, 0x4, 1, 0xFFFFFFFF, 0x0, 0x0, 0x0, 0x0⟩ /- DITHER_LO -/,
  ⟨0x160018, 0x0, 1, 0x4, 1, 0xFFFFFFFF, 0x0, 0x0, 0x0, 0x0⟩ /- DITHER_HI -/,
  ⟨0x16001C, 0x0, 1, 0x4, 1, 0xFFFFFFFF, 0x0, 0x0, 0x0, 0x0⟩ /- DITHER_PSAFE -/,
  ⟨0x160020, 0x0, 1, 0x4, 1, 0x3FFF, 0x0, 0x0, 0x0, 0x0⟩ /- CTX_SEL -/,
  ⟨0x160024, 0x0, 1, 0x4, 1, 0x0, 0x0, 0x0, 0x0, 0xFFFFFFFF⟩ /- CTX_FREQ -/,
  ⟨0x160028, 0x0, 1, 0x4, 1, 0x0, 0x0, 0x0, 0x0, 0xFFFFFFFF⟩ /- CTX_PHASE -/,
  ⟨0x16002C, 0x0, 1, 0x4, 1, 0x0, 0x0, 0x0, 0x0, 0x8FFF⟩ /- CTX_AMP -/,
  ⟨0x160030, 0x0, 1, 0x4, 1, 0x0, 0x0, 0x0, 0x0, 0xFFFF⟩ /- REFUSE_CNT -/,
  ⟨0x160034, 0x0, 1, 0x4, 1, 0x0, 0x0, 0x0, 0x0, 0x7FF⟩ /- PILOT_LIM -/,
  ⟨0x160038, 0x0, 1, 0x4, 6, 0x0, 0x0, 0x0, 0x0, 0x0⟩ /- RSV (R94) -/]
/-- Rows of Table LE-5. -/
def rowsLE5 : List RegRow := [
  ⟨0x202000, 0x10000, 12, 0x800, 8, 0x1, 0x0, 0x0, 0x2, 0x0⟩ /- ENG_CTRL -/,
  ⟨0x202004, 0x10000, 12, 0x800, 8, 0x0, 0x0, 0x0, 0x0, 0xFFF07F00⟩ /- ENG_STAT -/,
  ⟨0x202008, 0x10000, 12, 0x800, 8, 0x0, 0x3FF, 0x0, 0x0, 0x0⟩ /- ENG_EVT -/,
  ⟨0x20200C, 0x10000, 12, 0x800, 8, 0x3, 0x0, 0x0, 0x0, 0x0⟩ /- ENG_SWAP -/,
  ⟨0x202010, 0x10000, 12, 0x800, 8, 0x7, 0x0, 0x0, 0x8, 0x0⟩ /- ENG_SPBANK -/,
  ⟨0x202014, 0x10000, 12, 0x800, 8, 0x0, 0x0, 0x0, 0x0, 0xFFFFFFFF⟩ /- ENG_BUDGET -/,
  ⟨0x202018, 0x10000, 12, 0x800, 8, 0x0, 0x0, 0x0, 0x0, 0xFFFFFFFF⟩ /- ENG_CYC -/,
  ⟨0x20201C, 0x10000, 12, 0x800, 8, 0x0, 0x0, 0x0, 0x0, 0xFFFF⟩ /- ENG_OVRCNT -/,
  ⟨0x202020, 0x10000, 12, 0x800, 8, 0x0, 0x0, 0x0, 0x0, 0x1FFF⟩ /- ENG_PC -/,
  ⟨0x202024, 0x10000, 12, 0x800, 8, 0x0, 0xFFFF, 0x0, 0x0, 0x0⟩ /- ENG_NANSTK -/,
  ⟨0x202028, 0x10000, 12, 0x800, 8, 0x0, 0x0, 0x0, 0x0, 0xFFFFFFFF⟩ /- ENG_BANKCRC0 -/,
  ⟨0x20202C, 0x10000, 12, 0x800, 8, 0x0, 0x80000000, 0x0, 0x0, 0x3FFF⟩ /- ENG_LSMERR -/,
  ⟨0x202030, 0x10000, 12, 0x800, 8, 0x0, 0x80000000, 0x0, 0x0, 0x1FFF⟩ /- ENG_PMERR -/,
  ⟨0x202034, 0x10000, 12, 0x800, 8, 0x0, 0x0, 0x0, 0x0, 0xFFFFFFFF⟩ /- ENG_ECCCNT -/,
  ⟨0x202038, 0x10000, 12, 0x800, 8, 0xFFFFFFFF, 0x0, 0x0, 0x0, 0x0⟩ /- PARK_MASK0 -/,
  ⟨0x20203C, 0x10000, 12, 0x800, 8, 0xFFFFFFFF, 0x0, 0x0, 0x0, 0x0⟩ /- PARK_MASK1 -/,
  ⟨0x202040, 0x10000, 12, 0x800, 8, 0xFFFFFFFF, 0x0, 0x0, 0x0, 0x0⟩ /- PARK_MASK2 -/,
  ⟨0x202044, 0x10000, 12, 0x800, 8, 0xFFFF, 0x0, 0x0, 0x0, 0x0⟩ /- PARK_MASK3 -/,
  ⟨0x202048, 0x10000, 12, 0x800, 8, 0x0, 0x0, 0x0, 0x0, 0xFFFFFFFF⟩ /- ENG_BANKCRC1 -/,
  ⟨0x20204C, 0x10000, 12, 0x800, 8, 0x0, 0x0, 0x0, 0x0, 0x0⟩ /- RSV -/]
/-- Rows of Table LE-11. -/
def rowsLE11 : List RegRow := [
  ⟨0x200000, 0x10000, 12, 0x4, 1, 0x0, 0x0, 0x1, 0x2, 0x0⟩ /- CLU_CTRL -/,
  ⟨0x200004, 0x10000, 12, 0x4, 1, 0x0, 0x0, 0x0, 0x0, 0xFFF000FF⟩ /- CLU_STAT -/,
  ⟨0x200008, 0x10000, 12, 0x4, 1, 0x0, 0xF, 0x0, 0x0, 0x0⟩ /- CLU_EVT -/,
  ⟨0x20000C, 0x10000, 12, 0x4, 1, 0x0, 0x0, 0x0, 0x0, 0xFFFFFFFF⟩ /- ECT_CRC -/,
  ⟨0x200010, 0x10000, 12, 0x4, 1, 0x0, 0x0, 0x0, 0x0, 0xFFFF⟩ /- ECT_UPDCNT -/,
  ⟨0x200014, 0x10000, 12, 0x4, 1, 0x0, 0x0, 0x0, 0x0, 0xFFFFFFFF⟩ /- TBL_ECCCNT -/,
  ⟨0x200018, 0x10000, 12, 0x4, 1, 0x0, 0x80000000, 0x0, 0x0, 0xFFFFC⟩ /- TBL_ERRADDR -/,
  ⟨0x20001C, 0x10000, 12, 0x4, 1, 0x0, 0x0, 0x0, 0x0, 0xFFFFFFFF⟩ /- CLU_FRAME_LO -/,
  ⟨0x200020, 0x10000, 12, 0x4, 1, 0x0, 0x0, 0x0, 0x0, 0xFFFF⟩ /- CLU_FRAME_HI -/,
  ⟨0x200024, 0x10000, 12, 0x4, 23, 0x0, 0x0, 0x0, 0x0, 0x0⟩ /- RSV -/]
/-- Rows of Table HD-12. -/
def rowsHD12 : List RegRow := [
  ⟨0x360000, 0x0, 1, 0x4, 1, 0x1, 0x0, 0x0, 0x2, 0x0⟩ /- KLK_CTRL -/,
  ⟨0x360004, 0x0, 1, 0x4, 1, 0x0, 0x0, 0x0, 0x0, 0xFFFF⟩ /- KLK_STAT -/,
  ⟨0x360008, 0x0, 1, 0x4, 1, 0x0, 0x7F, 0x0, 0x0, 0x0⟩ /- KLK_EVT -/,
  ⟨0x36000C, 0x0, 1, 0x4, 1, 0x0, 0x0, 0x0, 0x0, 0xFFFF3FFF⟩ /- KLK_ADDR -/,
  ⟨0x360010, 0x0, 1, 0x4, 1, 0x3FFF, 0x0, 0x0, 0x0, 0x0⟩ /- KLK_NH_SEL -/,
  ⟨0x360014, 0x0, 1, 0x4, 1, 0xFFFFFFFF, 0x0, 0x0, 0x0, 0x0⟩ /- KLK_NH_DATA -/,
  ⟨0x360018, 0x0, 1, 0x4, 1, 0x0, 0x0, 0x0, 0x0, 0xFFFFFFFF⟩ /- KLK_FWDCNT -/,
  ⟨0x36001C, 0x0, 1, 0x4, 1, 0x0, 0x0, 0x0, 0x0, 0xFFFFFFFF⟩ /- KLK_DROPCNT -/,
  ⟨0x360020, 0x0, 1, 0x4, 1, 0xFFFF0003, 0x0, 0x0, 0x0, 0x0⟩ /- KLK_UDP_CTRL -/,
  ⟨0x360024, 0x0, 1, 0x4, 1, 0xFF, 0x0, 0x0, 0x0, 0x0⟩ /- KLK_TUN_SEL -/,
  ⟨0x360028, 0x0, 1, 0x4, 4, 0xFFFFFFFF, 0x0, 0x0, 0x0, 0x0⟩ /- KLK_TUN_ADDR0..3 -/,
  ⟨0x360038, 0x0, 1, 0x4, 1, 0x3, 0x0, 0x0, 0x0, 0x0⟩ /- KLK_TUN_CTRL -/,
  ⟨0x36003C, 0x0, 1, 0x4, 1, 0x0, 0x0, 0x0, 0x0, 0xFFFFFFFF⟩ /- KLK_UDPCNT -/,
  ⟨0x360040, 0x0, 1, 0x4, 16, 0x0, 0x0, 0x0, 0x0, 0x0⟩ /- RSV -/]
/-- Rows of Table HD-13. -/
def rowsHD13 : List RegRow := [
  ⟨0x360100, 0x40, 8, 0x4, 1, 0x7, 0x0, 0x0, 0x0, 0x0⟩ /- KLK_LCTRL -/,
  ⟨0x360104, 0x40, 8, 0x4, 1, 0x0, 0x0, 0x0, 0x0, 0xF⟩ /- KLK_LSTAT -/,
  ⟨0x360108, 0x40, 8, 0x4, 1, 0x0, 0x7, 0x0, 0x0, 0x0⟩ /- KLK_LEVT -/,
  ⟨0x36010C, 0x40, 8, 0x4, 1, 0x0, 0x0, 0x0, 0x0, 0xFFFF3FFF⟩ /- KLK_PEER -/,
  ⟨0x360110, 0x40, 8, 0x4, 1, 0xFFFFFFFF, 0x0, 0x0, 0x0, 0x0⟩ /- KLK_CRED -/,
  ⟨0x360114, 0x40, 8, 0x4, 1, 0x0, 0x0, 0x0, 0x0, 0xFFFFFFFF⟩ /- KLK_TXFRM -/,
  ⟨0x360118, 0x40, 8, 0x4, 1, 0x0, 0x0, 0x0, 0x0, 0xFFFFFFFF⟩ /- KLK_RXFRM -/,
  ⟨0x36011C, 0x40, 8, 0x4, 1, 0x0, 0x0, 0x0, 0x0, 0xFFFFFFFF⟩ /- KLK_RETRY -/,
  ⟨0x360120, 0x40, 8, 0x4, 1, 0x0, 0x0, 0x0, 0x0, 0xFFFFFFFF⟩ /- KLK_CRCERR -/,
  ⟨0x360124, 0x40, 8, 0x4, 1, 0x0, 0x0, 0x0, 0x0, 0xFFFFFFFF⟩ /- KLK_FECCOR -/,
  ⟨0x360128, 0x40, 8, 0x4, 1, 0x0, 0x0, 0x0, 0x0, 0xFFFF⟩ /- KLK_FECUNC -/,
  ⟨0x36012C, 0x40, 8, 0x4, 1, 0x0, 0x0, 0x0, 0x0, 0xFFFFFFFF⟩ /- KLK_STALL -/,
  ⟨0x360130, 0x40, 8, 0x4, 1, 0x0, 0x0, 0x0, 0x0, 0xFFFF⟩ /- KLK_RTT -/,
  ⟨0x360134, 0x40, 8, 0x4, 1, 0x0, 0x0, 0x0, 0x0, 0xFFFF⟩ /- KLK_LDROP -/,
  ⟨0x360138, 0x40, 8, 0x4, 2, 0x0, 0x0, 0x0, 0x0, 0x0⟩ /- RSV -/]
/-- Rows of Table HD-14. -/
def rowsHD14 : List RegRow := [
  ⟨0x370000, 0x0, 1, 0x4, 1, 0x1, 0x0, 0x0, 0x2, 0x0⟩ /- HDL_CTRL -/,
  ⟨0x370004, 0x0, 1, 0x4, 1, 0x7F, 0x0, 0x0, 0x0, 0x0⟩ /- HDL_G -/,
  ⟨0x370008, 0x0, 1, 0x4, 1, 0x3FF, 0x0, 0x0, 0x0, 0x0⟩ /- HDL_W -/,
  ⟨0x37000C, 0x0, 1, 0x4, 1, 0x3FF, 0x0, 0x0, 0x0, 0x0⟩ /- HDL_LAT -/,
  ⟨0x370010, 0x0, 1, 0x4, 1, 0x3FF, 0x0, 0x0, 0x0, 0x0⟩ /- HDL_RTX -/,
  ⟨0x370014, 0x0, 1, 0x4, 1, 0xFFFFF, 0x0, 0x0, 0x0, 0x0⟩ /- HDL_MINLEAD -/,
  ⟨0x370018, 0x0, 1, 0x4, 1, 0x0, 0x0, 0x0, 0x0, 0x7F007F⟩ /- HDL_STAT -/,
  ⟨0x37001C, 0x0, 1, 0x4, 1, 0x0, 0x3F, 0x0, 0x0, 0x0⟩ /- HDL_EVT -/,
  ⟨0x370020, 0x0, 1, 0x4, 32, 0x0, 0x0, 0x0, 0x0, 0xFFFFFFFF⟩ /- HDL_GSTAT0..31 -/]
/-- Rows of Table CS-18. -/
def rowsCS18 : List RegRow := [
  ⟨0x400000, 0x0, 1, 0x4, 1, 0x1, 0x0, 0x0, 0x2, 0x0⟩ /- CMD_CTRL -/,
  ⟨0x400004, 0x0, 1, 0x4, 1, 0x0, 0x0, 0x0, 0x0, 0x80001FFF⟩ /- CMD_STAT -/,
  ⟨0x400008, 0x0, 1, 0x4, 1, 0x0, 0xF, 0x0, 0x0, 0x0⟩ /- CMD_EVT -/,
  ⟨0x40000C, 0x0, 1, 0x4, 1, 0xFFF0FFF, 0x0, 0x0, 0x0, 0x0⟩ /- AQ_SIZE -/,
  ⟨0x400010, 0x0, 1, 0x4, 1, 0xFFFFF000, 0x0, 0x0, 0x0, 0x0⟩ /- ASQ_BASE_LO -/,
  ⟨0x400014, 0x0, 1, 0x4, 1, 0xFFFFFFFF, 0x0, 0x0, 0x0, 0x0⟩ /- ASQ_BASE_HI -/,
  ⟨0x400018, 0x0, 1, 0x4, 1, 0xFFFFF000, 0x0, 0x0, 0x0, 0x0⟩ /- ACQ_BASE_LO -/,
  ⟨0x40001C, 0x0, 1, 0x4, 1, 0xFFFFFFFF, 0x0, 0x0, 0x0, 0x0⟩ /- ACQ_BASE_HI -/,
  ⟨0x400020, 0x0, 1, 0x4, 1, 0xFFFF0003, 0x0, 0x0, 0x0, 0x0⟩ /- CMD_UDP -/,
  ⟨0x400024, 0x0, 1, 0x4, 1, 0x0, 0x0, 0x0, 0x0, 0xFFFFFFFF⟩ /- CMD_CNT -/,
  ⟨0x400028, 0x0, 1, 0x4, 1, 0x0, 0x0, 0x0, 0x0, 0xFFFFFFFF⟩ /- DGRAM_CNT -/,
  ⟨0x40002C, 0x0, 1, 0x4, 1, 0x0, 0x0, 0x0, 0x0, 0xFFFFFFFF⟩ /- Q_EXIST0 -/,
  ⟨0x400030, 0x0, 1, 0x4, 1, 0x0, 0x0, 0x0, 0x0, 0xFFFFFFFF⟩ /- Q_EXIST1 -/,
  ⟨0x400034, 0x0, 1, 0x4, 1, 0x0, 0x0, 0x0, 0x0, 0x1⟩ /- Q_EXIST2 -/,
  ⟨0x400038, 0x0, 1, 0x4, 2, 0x0, 0x0, 0x0, 0x0, 0x0⟩ /- RSV -/]
/-- Rows of Table CS-19. -/
def rowsCS19 : List RegRow := [
  ⟨0x402000, 0x0, 1, 0x4, 1, 0x0, 0x0, 0x0, 0x0, 0x1FF⟩ /- PCI_LSTAT -/,
  ⟨0x402004, 0x0, 1, 0x4, 1, 0x0, 0x7, 0x0, 0x0, 0x0⟩ /- PCI_EVT -/,
  ⟨0x402008, 0x0, 1, 0x4, 1, 0x0, 0x0, 0x0, 0x0, 0xFFFFFFFF⟩ /- PCI_ERRCNT -/,
  ⟨0x40200C, 0x0, 1, 0x4, 1, 0x0, 0x0, 0x0, 0x0, 0x0⟩ /- RSV -/]
/-- Rows of Table CS-20. -/
def rowsCS20 : List RegRow := [
  ⟨0x403000, 0x0, 1, 0x4, 1, 0x3F, 0x0, 0x0, 0x0, 0x0⟩ /- TEN_SEL -/,
  ⟨0x403004, 0x0, 1, 0x4, 1, 0x0, 0x0, 0x0, 0x0, 0xFFFF⟩ /- TEN_RIGHTS -/,
  ⟨0x403008, 0x0, 1, 0x4, 1, 0x0, 0x0, 0x0, 0x0, 0x7FF⟩ /- TEN_QUOTA -/,
  ⟨0x40300C, 0x0, 1, 0x4, 1, 0x0, 0x0, 0x0, 0x0, 0x7FF⟩ /- TEN_PROT -/,
  ⟨0x403010, 0x0, 1, 0x4, 1, 0xFFF, 0x0, 0x0, 0x0, 0x0⟩ /- TEN_TAGCAP -/,
  ⟨0x403014, 0x0, 1, 0x4, 1, 0x0, 0x0, 0x0, 0x0, 0x1FFF⟩ /- TEN_INFLIGHT -/,
  ⟨0x403018, 0x0, 1, 0x4, 1, 0x0, 0x0, 0x0, 0x0, 0xFFFF⟩ /- TEN_CMDCNT -/,
  ⟨0x40301C, 0x0, 1, 0x4, 1, 0x0, 0x0, 0x0, 0x0, 0xFFFF⟩ /- TEN_ERRCNT -/,
  ⟨0x403020, 0x0, 1, 0x4, 1, 0xFF, 0x0, 0x0, 0x0, 0x0⟩ /- SRC_SEL -/,
  ⟨0x403024, 0x0, 1, 0x4, 1, 0x0, 0x0, 0x0, 0x0, 0xFFE00000⟩ /- SRC_CTRL -/,
  ⟨0x403028, 0x0, 1, 0x4, 1, 0x0, 0x0, 0x0, 0x0, 0xFFFFFFFF⟩ /- SRC_ID_LO -/,
  ⟨0x40302C, 0x0, 1, 0x4, 1, 0x0, 0x0, 0x0, 0x0, 0xFFFFFFFF⟩ /- SRC_ID_HI -/,
  ⟨0x403030, 0x0, 1, 0x4, 1, 0x0, 0x0, 0x0, 0x0, 0xFFFFFFFF⟩ /- SRC_SEQ -/,
  ⟨0x403034, 0x0, 1, 0x4, 1, 0x0, 0x0, 0x0, 0x0, 0xFFFFFFFF⟩ /- SRC_CNT -/,
  ⟨0x403038, 0x0, 1, 0x4, 6, 0x0, 0x0, 0x0, 0x0, 0x0⟩ /- RSV -/]
/-- Rows of Table TM-4. -/
def rowsTM4 : List RegRow := [
  ⟨0x320000, 0x0, 1, 0x4, 1, 0x377, 0x0, 0x0, 0x80, 0x0⟩ /- PTP_CTRL -/,
  ⟨0x320004, 0x0, 1, 0x4, 1, 0x0, 0x0, 0x0, 0x0, 0xFF800000⟩ /- PTP_STAT -/,
  ⟨0x320008, 0x0, 1, 0x4, 1, 0x0, 0x3FF, 0x0, 0x0, 0x0⟩ /- PTP_EVT -/,
  ⟨0x32000C, 0x0, 1, 0x4, 1, 0xFF, 0x0, 0x0, 0x0, 0x0⟩ /- PTP_DOMAIN -/,
  ⟨0x320010, 0x0, 1, 0x4, 1, 0x0, 0x0, 0x0, 0x0, 0xFFFFFFFF⟩ /- TIME_NS_LO -/,
  ⟨0x320014, 0x0, 1, 0x4, 1, 0x0, 0x0, 0x0, 0x0, 0xFFFFFFFF⟩ /- TIME_NS_HI -/,
  ⟨0x320018, 0x0, 1, 0x4, 1, 0x0, 0x0, 0x0, 0x0, 0xFFFFFFFF⟩ /- TICK_LO -/,
  ⟨0x32001C, 0x0, 1, 0x4, 1, 0x0, 0x0, 0x0, 0x0, 0xFFFF⟩ /- TICK_HI -/,
  ⟨0x320020, 0x0, 1, 0x4, 1, 0x0, 0x0, 0x0, 0x0, 0xFFFFFFFF⟩ /- RATE_ADJ -/,
  ⟨0x320024, 0x0, 1, 0x4, 1, 0x0, 0x0, 0x0, 0x0, 0xFFFFFFFF⟩ /- OFFSET -/,
  ⟨0x320028, 0x0, 1, 0x4, 1, 0xFFFF, 0x0, 0x0, 0x0, 0x0⟩ /- SERVO_BW -/,
  ⟨0x32002C, 0x0, 1, 0x4, 1, 0xFFFFFFFF, 0x0, 0x0, 0x0, 0x0⟩ /- STEP_THR -/,
  ⟨0x320030, 0x0, 1, 0x4, 1, 0x3FF, 0x0, 0x0, 0x0, 0x0⟩ /- SYNC_THR -/,
  ⟨0x320034, 0x0, 1, 0x4, 1, 0xFFFF03FF, 0x0, 0x0, 0x0, 0x0⟩ /- PC_CTRL -/,
  ⟨0x320038, 0x0, 1, 0x4, 1, 0x7F, 0x0, 0x0, 0x0, 0x0⟩ /- HO_SYNC -/,
  ⟨0x32003C, 0x0, 1, 0x4, 1, 0x7FF, 0x0, 0x0, 0x0, 0x0⟩ /- LANE_OFS -/,
  ⟨0x320040, 0x0, 1, 0x4, 1, 0x0, 0x0, 0x0, 0x0, 0xFFFF⟩ /- FRAME_ERR -/,
  ⟨0x320044, 0x0, 1, 0x4, 1, 0x800FFFFF, 0x0, 0x0, 0x0, 0x0⟩ /- PPS_CTRL -/,
  ⟨0x320048, 0x0, 1, 0x4, 1, 0x0, 0x0, 0x0, 0x0, 0xFFFFFFFF⟩ /- PPS_IN_TS_LO -/,
  ⟨0x32004C, 0x0, 1, 0x4, 1, 0x0, 0x0, 0x0, 0x0, 0xFFFFFFFF⟩ /- PPS_IN_TS_HI -/,
  ⟨0x320050, 0x0, 1, 0x4, 1, 0xFFFFFFFF, 0x0, 0x0, 0x0, 0x0⟩ /- PPS_IN_DLY -/,
  ⟨0x320054, 0x0, 1, 0x4, 1, 0x0, 0x0, 0x0, 0x0, 0xFFFF⟩ /- TIME_STEPCNT -/,
  ⟨0x320058, 0x0, 1, 0x4, 10, 0x0, 0x0, 0x0, 0x0, 0x0⟩ /- RSV -/]
/-- Rows of Table TM-8. -/
def rowsTM8 : List RegRow := [
  ⟨0x320100, 0x80, 2, 0x4, 1, 0xFFFF1F, 0x0, 0x0, 0x0, 0x0⟩ /- PP_CTRL -/,
  ⟨0x320104, 0x80, 2, 0x4, 1, 0x0, 0x0, 0x0, 0x0, 0xF80000FF⟩ /- PP_STAT -/,
  ⟨0x320108, 0x80, 2, 0x4, 1, 0x0, 0x0, 0x0, 0x0, 0xFFFFFFFF⟩ /- PP_MASTER_LO -/,
  ⟨0x32010C, 0x80, 2, 0x4, 1, 0x0, 0x0, 0x0, 0x0, 0xFFFFFFFF⟩ /- PP_MASTER_HI -/,
  ⟨0x320110, 0x80, 2, 0x4, 1, 0xFFFFFFFF, 0x0, 0x0, 0x0, 0x0⟩ /- PP_ASYM -/,
  ⟨0x320114, 0x80, 2, 0x4, 1, 0x0, 0x0, 0x0, 0x0, 0xFFFFFFFF⟩ /- PP_TXCORR -/,
  ⟨0x320118, 0x80, 2, 0x4, 1, 0x0, 0x0, 0x0, 0x0, 0xFFFFFFFF⟩ /- PP_RXCORR -/,
  ⟨0x32011C, 0x80, 2, 0x4, 1, 0xFFFFFFFF, 0x0, 0x0, 0x0, 0x0⟩ /- PP_EXT_TX -/,
  ⟨0x320120, 0x80, 2, 0x4, 1, 0xFFFFFFFF, 0x0, 0x0, 0x0, 0x0⟩ /- PP_EXT_RX -/,
  ⟨0x320124, 0x80, 2, 0x4, 1, 0x0, 0x0, 0x0, 0x0, 0xFFFFFFFF⟩ /- PP_OFFSET -/,
  ⟨0x320128, 0x80, 2, 0x4, 1, 0x0, 0x0, 0x0, 0x0, 0xFFFFFFFF⟩ /- PP_DELAY -/,
  ⟨0x32012C, 0x80, 2, 0x4, 1, 0x0, 0x0, 0x0, 0x0, 0xFFFFFFFF⟩ /- PP_RXCNT -/,
  ⟨0x320130, 0x80, 2, 0x4, 1, 0x0, 0x0, 0x0, 0x0, 0xFFFFFFFF⟩ /- PP_ERRCNT -/,
  ⟨0x320134, 0x80, 2, 0x4, 19, 0x0, 0x0, 0x0, 0x0, 0x0⟩ /- RSV -/]
/-- Rows of Table TM-9. -/
def rowsTM9 : List RegRow := [
  ⟨0x320200, 0x0, 1, 0x4, 1, 0x1F00FF, 0x0, 0x0, 0x0, 0x0⟩ /- GCL_SEL -/,
  ⟨0x320204, 0x0, 1, 0x4, 1, 0xFF, 0x0, 0x0, 0x0, 0x0⟩ /- GCL_GATES -/,
  ⟨0x320208, 0x0, 1, 0x4, 1, 0x3FFFFFFF, 0x0, 0x0, 0x0, 0x0⟩ /- GCL_INTERVAL -/,
  ⟨0x32020C, 0x0, 1, 0x4, 1, 0x1FF, 0x0, 0x0, 0x0, 0x0⟩ /- GCL_LEN -/,
  ⟨0x320210, 0x0, 1, 0x4, 1, 0x3FFFFFFF, 0x0, 0x0, 0x0, 0x0⟩ /- GCL_CYCLE -/,
  ⟨0x320214, 0x0, 1, 0x4, 1, 0x3FFFFFFF, 0x0, 0x0, 0x0, 0x0⟩ /- GCL_EXT -/,
  ⟨0x320218, 0x0, 1, 0x4, 1, 0xFFFFFFFF, 0x0, 0x0, 0x0, 0x0⟩ /- GCL_BASE_LO -/,
  ⟨0x32021C, 0x0, 1, 0x4, 1, 0xFFFFFFFF, 0x0, 0x0, 0x0, 0x0⟩ /- GCL_BASE_HI -/,
  ⟨0x320220, 0x0, 1, 0x4, 1, 0x1, 0x0, 0x2, 0x0, 0x0⟩ /- GCL_CTRL -/,
  ⟨0x320224, 0x0, 1, 0x4, 1, 0x0, 0x2, 0x0, 0x0, 0x1⟩ /- GCL_STAT -/,
  ⟨0x320228, 0x0, 1, 0x4, 1, 0x0, 0x0, 0x0, 0x0, 0xFFFFFFFF⟩ /- GCL_OVSZ -/,
  ⟨0x32022C, 0x0, 1, 0x4, 1, 0x0, 0x0, 0x0, 0x0, 0xFFFFFFFF⟩ /- GCL_LT -/,
  ⟨0x320230, 0x0, 1, 0x4, 20, 0x0, 0x0, 0x0, 0x0, 0x0⟩ /- RSV -/]
/-- Rows of Table TT-9. -/
def rowsTT9 : List RegRow := [
  ⟨0x300000, 0x1000, 2, 0x4, 1, 0x31, 0x0, 0x0, 0x80, 0x0⟩ /- ETH_CTRL -/,
  ⟨0x300004, 0x1000, 2, 0x4, 1, 0x0, 0x0, 0x0, 0x0, 0xFFFF⟩ /- ETH_STAT -/,
  ⟨0x300008, 0x1000, 2, 0x4, 1, 0x0, 0x1F, 0x0, 0x0, 0x0⟩ /- ETH_EVT -/,
  ⟨0x30000C, 0x1000, 2, 0x4, 1, 0x0, 0x0, 0x0, 0x0, 0xFFFFFFFF⟩ /- ETH_BUF -/,
  ⟨0x300010, 0x1000, 2, 0x4, 1, 0x0, 0x0, 0x0, 0x0, 0xFFFFFFFF⟩ /- ETH_HBMOVF -/,
  ⟨0x300014, 0x1000, 2, 0x4, 59, 0x0, 0x0, 0x0, 0x0, 0x0⟩ /- RSV -/]
/-- Rows of Table TT-10. -/
def rowsTT10 : List RegRow := [
  ⟨0x300100, 0x1000, 2, 0x80, 8, 0xFFFF00, 0x0, 0x0, 0x0, 0x0⟩ /- MAC_CTRL -/,
  ⟨0x300104, 0x1000, 2, 0x80, 8, 0xFFFFFFFF, 0x0, 0x0, 0x0, 0x0⟩ /- MAC_ADDR_LO -/,
  ⟨0x300108, 0x1000, 2, 0x80, 8, 0xFFFF, 0x0, 0x0, 0x0, 0x0⟩ /- MAC_ADDR_HI -/,
  ⟨0x30010C, 0x1000, 2, 0x80, 8, 0xFFFFFFFF, 0x0, 0x0, 0x0, 0x0⟩ /- NH_MAC_LO -/,
  ⟨0x300110, 0x1000, 2, 0x80, 8, 0xFFFF, 0x0, 0x0, 0x0, 0x0⟩ /- NH_MAC_HI -/,
  ⟨0x300114, 0x1000, 2, 0x80, 8, 0xFFFFFFFF, 0x0, 0x0, 0x0, 0x0⟩ /- IPV4 -/,
  ⟨0x300118, 0x1000, 2, 0x80, 8, 0xFFFFFFFF, 0x0, 0x0, 0x0, 0x0⟩ /- IPV6_0..3 -/,
  ⟨0x30011C, 0x1000, 2, 0x80, 8, 0xFFFFFFFF, 0x0, 0x0, 0x0, 0x0⟩ /- IPV6_0..3 -/,
  ⟨0x300120, 0x1000, 2, 0x80, 8, 0xFFFFFFFF, 0x0, 0x0, 0x0, 0x0⟩ /- IPV6_0..3 -/,
  ⟨0x300124, 0x1000, 2, 0x80, 8, 0xFFFFFFFF, 0x0, 0x0, 0x0, 0x0⟩ /- IPV6_0..3 -/,
  ⟨0x300128, 0x1000, 2, 0x80, 8, 0xFFFF, 0x0, 0x0, 0x0, 0x0⟩ /- DEV_TAG -/,
  ⟨0x30012C, 0x1000, 2, 0x80, 8, 0x7, 0x0, 0x0, 0x0, 0x0⟩ /- PFC_SEL -/,
  ⟨0x300130, 0x1000, 2, 0x80, 8, 0x7FFFFF, 0x0, 0x0, 0x0, 0x0⟩ /- PFC_HDRM -/,
  ⟨0x300134, 0x1000, 2, 0x80, 8, 0x1FFFFF, 0x0, 0x0, 0x0, 0x0⟩ /- PFC_XOFF -/,
  ⟨0x300138, 0x1000, 2, 0x80, 8, 0x1FFFFF, 0x0, 0x0, 0x0, 0x0⟩ /- PFC_XON -/,
  ⟨0x30013C, 0x1000, 2, 0x80, 8, 0x0, 0x0, 0x0, 0x0, 0xFFFF⟩ /- PFC_STAT -/,
  ⟨0x300140, 0x1000, 2, 0x80, 8, 0x0, 0x0, 0x0, 0x0, 0xFFFFFFFF⟩ /- MAC_TXFRM -/,
  ⟨0x300144, 0x1000, 2, 0x80, 8, 0x0, 0x0, 0x0, 0x0, 0xFFFFFFFF⟩ /- MAC_RXFRM -/,
  ⟨0x300148, 0x1000, 2, 0x80, 8, 0x0, 0x0, 0x0, 0x0, 0xFFFFFFFF⟩ /- MAC_RXERR -/,
  ⟨0x30014C, 0x1000, 2, 0x80, 8, 0x0, 0x0, 0x0, 0x0, 0xFFFF⟩ /- PFC_DROP -/,
  ⟨0x300150, 0x1000, 2, 0x80, 8, 0x0, 0x0, 0x0, 0x0, 0xFFFFFFFF⟩ /- PFC_CNT -/,
  ⟨0x300154, 0x1000, 2, 0x80, 8, 0x0, 0x0, 0x0, 0x0, 0x0⟩ /- RSV -/,
  ⟨0x300158, 0x1000, 2, 0x80, 8, 0x0, 0x0, 0x0, 0x0, 0x0⟩ /- RSV -/,
  ⟨0x30015C, 0x1000, 2, 0x80, 8, 0x0, 0x0, 0x0, 0x0, 0x0⟩ /- RSV -/,
  ⟨0x300160, 0x1000, 2, 0x80, 8, 0x0, 0x0, 0x0, 0x0, 0x0⟩ /- RSV -/,
  ⟨0x300164, 0x1000, 2, 0x80, 8, 0x0, 0x0, 0x0, 0x0, 0x0⟩ /- RSV -/,
  ⟨0x300168, 0x1000, 2, 0x80, 8, 0x0, 0x0, 0x0, 0x0, 0x0⟩ /- RSV -/,
  ⟨0x30016C, 0x1000, 2, 0x80, 8, 0x0, 0x0, 0x0, 0x0, 0x0⟩ /- RSV -/,
  ⟨0x300170, 0x1000, 2, 0x80, 8, 0x0, 0x0, 0x0, 0x0, 0x0⟩ /- RSV -/,
  ⟨0x300174, 0x1000, 2, 0x80, 8, 0x0, 0x0, 0x0, 0x0, 0x0⟩ /- RSV -/,
  ⟨0x300178, 0x1000, 2, 0x80, 8, 0x0, 0x0, 0x0, 0x0, 0x0⟩ /- RSV -/,
  ⟨0x30017C, 0x1000, 2, 0x80, 8, 0x0, 0x0, 0x0, 0x0, 0x0⟩ /- RSV -/]
/-- Rows of Table TT-11. -/
def rowsTT11 : List RegRow := [
  ⟨0x310000, 0x100, 16, 0x4, 1, 0xF, 0x0, 0x0, 0x10, 0x0⟩ /- MS_CTRL -/,
  ⟨0x310004, 0x100, 16, 0x4, 1, 0x0, 0x0, 0x0, 0x0, 0xFF0F⟩ /- MS_STAT -/,
  ⟨0x310008, 0x100, 16, 0x4, 1, 0x0, 0xF, 0x0, 0x0, 0x0⟩ /- MS_EVT -/,
  ⟨0x31000C, 0x100, 16, 0x4, 1, 0xFFFFFFFF, 0x0, 0x0, 0x0, 0x0⟩ /- MS_SCI_LO -/,
  ⟨0x310010, 0x100, 16, 0x4, 1, 0xFFFFFFFF, 0x0, 0x0, 0x0, 0x0⟩ /- MS_SCI_HI -/,
  ⟨0x310014, 0x100, 16, 0x4, 1, 0x3FFFFFFF, 0x0, 0x0, 0x0, 0x0⟩ /- MS_REPLAY_WIN -/,
  ⟨0x310018, 0x100, 16, 0x4, 1, 0xFF, 0x0, 0x0, 0x0, 0x0⟩ /- MKA_PRIO -/,
  ⟨0x31001C, 0x100, 16, 0x4, 1, 0x0, 0x0, 0x0, 0x0, 0x0⟩ /- RSV -/,
  ⟨0x310020, 0x100, 16, 0x4, 8, 0x0, 0x0, 0x0, 0xFFFFFFFF, 0x0⟩ /- CAK0..7 -/,
  ⟨0x310040, 0x100, 16, 0x4, 8, 0xFFFFFFFF, 0x0, 0x0, 0x0, 0x0⟩ /- CKN0..7 -/,
  ⟨0x310060, 0x100, 16, 0x4, 1, 0x3F, 0x0, 0x0, 0x0, 0x0⟩ /- CKN_LEN -/,
  ⟨0x310064, 0x100, 16, 0x4, 1, 0x0, 0x0, 0x0, 0x1, 0x0⟩ /- CAK_CTRL -/,
  ⟨0x310068, 0x100, 16, 0x4, 1, 0x0, 0x0, 0x0, 0x0, 0xFFFFFFFF⟩ /- MS_TXPROT -/,
  ⟨0x31006C, 0x100, 16, 0x4, 1, 0x0, 0x0, 0x0, 0x0, 0xFFFFFFFF⟩ /- MS_RXOK -/,
  ⟨0x310070, 0x100, 16, 0x4, 1, 0x0, 0x0, 0x0, 0x0, 0xFFFFFFFF⟩ /- MS_RXDROP -/,
  ⟨0x310074, 0x100, 16, 0x4, 1, 0x0, 0x0, 0x0, 0x0, 0xFFFFFFFF⟩ /- MS_NOSC -/,
  ⟨0x310078, 0x100, 16, 0x4, 34, 0x0, 0x0, 0x0, 0x0, 0x0⟩ /- RSV -/]
/-- Rows of Table TT-12. -/
def rowsTT12 : List RegRow := [
  ⟨0x330000, 0x0, 1, 0x4, 1, 0x1, 0x0, 0x0, 0x2, 0x0⟩ /- TSH_CTRL -/,
  ⟨0x330004, 0x0, 1, 0x4, 1, 0x0, 0x0, 0x0, 0x0, 0x7FF⟩ /- TSH_STAT -/,
  ⟨0x330008, 0x0, 1, 0x4, 1, 0x0, 0xF, 0x0, 0x0, 0x0⟩ /- TSH_EVT -/,
  ⟨0x33000C, 0x0, 1, 0x4, 1, 0x7FF, 0x0, 0x0, 0x0, 0x0⟩ /- Q_SEL -/,
  ⟨0x330010, 0x0, 1, 0x4, 1, 0x1FC0FFFF, 0x0, 0x0, 0x0, 0x0⟩ /- Q_CFG -/,
  ⟨0x330014, 0x0, 1, 0x4, 1, 0xFFFFF, 0x0, 0x0, 0x0, 0x0⟩ /- Q_RATE -/,
  ⟨0x330018, 0x0, 1, 0x4, 1, 0x1FFFFF, 0x0, 0x0, 0x0, 0x0⟩ /- Q_BURST -/,
  ⟨0x33001C, 0x0, 1, 0x4, 1, 0x0, 0x0, 0x0, 0x1, 0x0⟩ /- Q_APPLY -/,
  ⟨0x330020, 0x0, 1, 0x4, 1, 0x0, 0x0, 0x0, 0x0, 0xFFFFFFFF⟩ /- Q_TOKENS -/,
  ⟨0x330024, 0x0, 1, 0x4, 1, 0x0, 0x0, 0x0, 0x0, 0xFFFFFFFF⟩ /- Q_DEPTH -/,
  ⟨0x330028, 0x0, 1, 0x4, 1, 0x0, 0x0, 0x0, 0x0, 0xFFFFFFFF⟩ /- Q_DROP -/,
  ⟨0x33002C, 0x0, 1, 0x4, 1, 0x1F, 0x0, 0x0, 0x0, 0x0⟩ /- HIST_SEL -/,
  ⟨0x330030, 0x0, 1, 0x4, 1, 0x0, 0x0, 0x0, 0x0, 0xFFFFFFFF⟩ /- HIST_BIN -/,
  ⟨0x330034, 0x0, 1, 0x4, 1, 0x0, 0x0, 0x0, 0x3, 0x0⟩ /- HIST_CLR -/,
  ⟨0x330038, 0x0, 1, 0x4, 1, 0xFFFF0000, 0x0, 0x0, 0x0, 0x0⟩ /- REP_CTRL -/,
  ⟨0x33003C, 0x0, 1, 0x4, 1, 0x0, 0x0, 0x0, 0x0, 0xE007FFFF⟩ /- REP_STAT -/,
  ⟨0x330040, 0x0, 1, 0x4, 1, 0x0, 0x0, 0x0, 0x0, 0xFFFFFFFF⟩ /- REP_TRIG_LO -/,
  ⟨0x330044, 0x0, 1, 0x4, 1, 0x0, 0x0, 0x0, 0x0, 0xFFFFFFFF⟩ /- REP_TRIG_HI -/,
  ⟨0x330048, 0x0, 1, 0x4, 1, 0x0, 0x0, 0x0, 0x0, 0xFFFFFFFF⟩ /- REP_OLDEST_LO -/,
  ⟨0x33004C, 0x0, 1, 0x4, 1, 0x0, 0x0, 0x0, 0x0, 0xFFFFFFFF⟩ /- REP_OLDEST_HI -/,
  ⟨0x330050, 0x0, 1, 0x4, 1, 0x0, 0x0, 0x0, 0x0, 0xFFFF0007⟩ /- REP_CAUSE -/,
  ⟨0x330054, 0x0, 1, 0x4, 1, 0x0, 0x0, 0x0, 0x0, 0xFFFFFFFF⟩ /- TLM_GAPCNT -/,
  ⟨0x330058, 0x0, 1, 0x4, 10, 0x0, 0x0, 0x0, 0x0, 0x0⟩ /- RSV -/]
/-- Rows of Table TT-13. -/
def rowsTT13 : List RegRow := [
  ⟨0x340000, 0x0, 1, 0x4, 1, 0xFF, 0x0, 0x0, 0x0, 0x0⟩ /- POL_SEL -/,
  ⟨0x340004, 0x0, 1, 0x4, 1, 0xFFFF001E, 0x0, 0x0, 0x1, 0x0⟩ /- POL_CTRL -/,
  ⟨0x340008, 0x0, 1, 0x4, 1, 0x7FFFFFF, 0x0, 0x0, 0x0, 0x0⟩ /- POL_CIR -/,
  ⟨0x34000C, 0x0, 1, 0x4, 1, 0x1FFFFF, 0x0, 0x0, 0x0, 0x0⟩ /- POL_CBS -/,
  ⟨0x340010, 0x0, 1, 0x4, 1, 0x7FFFFFF, 0x0, 0x0, 0x0, 0x0⟩ /- POL_PIR -/,
  ⟨0x340014, 0x0, 1, 0x4, 1, 0x1FFFFF, 0x0, 0x0, 0x0, 0x0⟩ /- POL_EPBS -/,
  ⟨0x340018, 0x0, 1, 0x4, 1, 0x0, 0x0, 0x0, 0x1, 0x0⟩ /- POL_APPLY -/,
  ⟨0x34001C, 0x0, 1, 0x4, 1, 0x0, 0x0, 0x0, 0x0, 0xFFFFFFFF⟩ /- POL_GREEN -/,
  ⟨0x340020, 0x0, 1, 0x4, 1, 0x0, 0x0, 0x0, 0x0, 0xFFFFFFFF⟩ /- POL_YELLOW -/,
  ⟨0x340024, 0x0, 1, 0x4, 1, 0x0, 0x0, 0x0, 0x0, 0xFFFFFFFF⟩ /- POL_RED -/,
  ⟨0x340028, 0x0, 1, 0x4, 1, 0x0, 0x0, 0x0, 0x0, 0xFFFFFFFF⟩ /- POL_DROP -/,
  ⟨0x34002C, 0x0, 1, 0x4, 1, 0x0, 0x3, 0x0, 0x0, 0x0⟩ /- POL_EVT -/,
  ⟨0x340030, 0x0, 1, 0x4, 4, 0x0, 0x0, 0x0, 0x0, 0x0⟩ /- RSV -/]
/-- Rows of Table MM-7. -/
def rowsMM7 : List RegRow := [
  ⟨0x500000, 0x0, 1, 0x4, 1, 0x1, 0x0, 0x0, 0x2, 0x0⟩ /- HBM_CTRL -/,
  ⟨0x500004, 0x0, 1, 0x4, 1, 0x0, 0x0, 0x0, 0x0, 0xE0FF0000⟩ /- HBM_STAT -/,
  ⟨0x500008, 0x0, 1, 0x4, 1, 0x0, 0x7F, 0x0, 0x0, 0x0⟩ /- HBM_EVT -/,
  ⟨0x50000C, 0x0, 1, 0x4, 1, 0xF, 0x0, 0x0, 0x0, 0x0⟩ /- HBM_APER -/,
  ⟨0x500010, 0x0, 1, 0x4, 1, 0x0, 0x0, 0x0, 0x0, 0xFFFFFFFF⟩ /- HBM_CECNT -/,
  ⟨0x500014, 0x0, 1, 0x4, 1, 0x0, 0x0, 0x0, 0x0, 0xFFFF⟩ /- HBM_UECNT -/,
  ⟨0x500018, 0x0, 1, 0x4, 1, 0x0, 0x0, 0x0, 0x0, 0xFFFFFFC0⟩ /- HBM_ERRADDR_LO -/,
  ⟨0x50001C, 0x0, 1, 0x4, 1, 0x0, 0x80000000, 0x0, 0x0, 0x7⟩ /- HBM_ERRADDR_HI -/,
  ⟨0x500020, 0x0, 1, 0x4, 1, 0x0, 0x0, 0x0, 0x0, 0x1FFF⟩ /- HBM_RETIRED -/,
  ⟨0x500024, 0x0, 1, 0x4, 1, 0x0, 0x0, 0x0, 0x0, 0xFFFF⟩ /- HBM_SCRUB -/,
  ⟨0x500028, 0x0, 1, 0x4, 2, 0x0, 0x0, 0x0, 0x0, 0x0⟩ /- RSV -/]
/-- Rows of Table MM-8. -/
def rowsMM8 : List RegRow := [
  ⟨0x500100, 0x20, 16, 0x4, 1, 0x0, 0x0, 0x0, 0x0, 0x80000000⟩ /- CH_STAT -/,
  ⟨0x500104, 0x20, 16, 0x4, 1, 0x0, 0x0, 0x0, 0x0, 0xFFFFFFFF⟩ /- CH_CECNT -/,
  ⟨0x500108, 0x20, 16, 0x4, 1, 0x0, 0x0, 0x0, 0x0, 0xFFFFFFFF⟩ /- CH_UECNT -/,
  ⟨0x50010C, 0x20, 16, 0x4, 1, 0x0, 0x0, 0x0, 0x0, 0x1FFF⟩ /- CH_RETIRED -/,
  ⟨0x500110, 0x20, 16, 0x4, 1, 0x0, 0x0, 0x0, 0x0, 0xFFFFFFFF⟩ /- CH_INNER -/,
  ⟨0x500114, 0x20, 16, 0x4, 3, 0x0, 0x0, 0x0, 0x0, 0x0⟩ /- RSV -/]
/-- Rows of Table MM-9. -/
def rowsMM9 : List RegRow := [
  ⟨0x7000, 0x0, 1, 0x4, 1, 0x1, 0x0, 0x0, 0x2, 0x0⟩ /- NVM_CTRL -/,
  ⟨0x7004, 0x0, 1, 0x4, 1, 0x0, 0x0, 0x0, 0x0, 0xF0000000⟩ /- NVM_STAT -/,
  ⟨0x7008, 0x0, 1, 0x4, 1, 0x0, 0xFF, 0x0, 0x0, 0x0⟩ /- NVM_EVT -/,
  ⟨0x700C, 0x0, 1, 0x4, 1, 0x0, 0x0, 0x0, 0x0, 0xFFFFFFFF⟩ /- NVM_TXN_LO -/,
  ⟨0x7010, 0x0, 1, 0x4, 1, 0x0, 0x0, 0x0, 0x0, 0xFFFF⟩ /- NVM_TXN_HI -/,
  ⟨0x7014, 0x0, 1, 0x4, 1, 0x0, 0x0, 0x0, 0x0, 0xFFFF⟩ /- NVM_RESULT -/,
  ⟨0x7018, 0x0, 1, 0x4, 1, 0x0, 0x0, 0x1, 0x0, 0x0⟩ /- NVM_PT_CTRL -/,
  ⟨0x701C, 0x0, 1, 0x4, 1, 0x0, 0x0, 0x0, 0x0, 0xFFFF⟩ /- NVM_PT_ERROFS -/,
  ⟨0x7020, 0x0, 1, 0x4, 1, 0x0, 0x0, 0x0, 0x0, 0xFFFFFFFF⟩ /- NVM_CECNT -/,
  ⟨0x7024, 0x0, 1, 0x4, 1, 0x0, 0x0, 0x0, 0x0, 0xFFFF⟩ /- NVM_UECNT -/,
  ⟨0x7028, 0x0, 1, 0x4, 1, 0x0, 0x80000000, 0x0, 0x0, 0x1FFFFF8⟩ /- NVM_ERRADDR -/,
  ⟨0x702C, 0x0, 1, 0x4, 1, 0x0, 0x0, 0x0, 0x0, 0xFFFFFFFF⟩ /- NVM_FLOG -/]
/-- Rows of Table MM-10. -/
def rowsMM10 : List RegRow := [
  ⟨0x7100, 0x20, 8, 0x4, 1, 0x0, 0x0, 0x0, 0x0, 0xFFFFFFFF⟩ /- RG_STAT -/,
  ⟨0x7104, 0x20, 8, 0x4, 1, 0x0, 0x0, 0x0, 0x0, 0xFFFFFFFF⟩ /- RG_WRCNT -/,
  ⟨0x7108, 0x20, 8, 0x4, 1, 0x0, 0x0, 0x0, 0x0, 0xFFFFFFFF⟩ /- RG_LASTTXN -/,
  ⟨0x710C, 0x20, 8, 0x4, 1, 0x0, 0x0, 0x0, 0x0, 0xFFFFFF⟩ /- RG_LASTIDX -/,
  ⟨0x7110, 0x20, 8, 0x4, 1, 0x0, 0x0, 0x0, 0x0, 0xFFFFFFFF⟩ /- RG_CECNT -/,
  ⟨0x7114, 0x20, 8, 0x4, 1, 0x0, 0x0, 0x0, 0x0, 0xFFFF⟩ /- RG_UECNT -/,
  ⟨0x7118, 0x20, 8, 0x4, 2, 0x0, 0x0, 0x0, 0x0, 0x0⟩ /- RSV -/]
/-- Rows of Table CK-8. -/
def rowsCK8 : List RegRow := [
  ⟨0x1000, 0x0, 1, 0x4, 1, 0x0, 0x0, 0x0, 0x0, 0xF8000000⟩ /- CLK_STAT -/,
  ⟨0x1004, 0x0, 1, 0x4, 1, 0x0, 0x1F, 0x0, 0x0, 0x0⟩ /- CLK_EVT -/,
  ⟨0x1008, 0x0, 1, 0x4, 1, 0xFFFFFFFF, 0x0, 0x0, 0x0, 0x0⟩ /- CLK_GATE0 -/,
  ⟨0x100C, 0x0, 1, 0x4, 1, 0xFFFFFFF, 0x0, 0x0, 0x0, 0x0⟩ /- CLK_GATE1 -/,
  ⟨0x1010, 0x0, 1, 0x4, 1, 0x0, 0xFFFFFFFF, 0x0, 0x0, 0x0⟩ /- CLK_XOVF0 -/,
  ⟨0x1014, 0x0, 1, 0x4, 1, 0x0, 0xFFFFFFF, 0x0, 0x0, 0x0⟩ /- CLK_XOVF1 -/,
  ⟨0x1018, 0x0, 1, 0x4, 1, 0x0, 0x0, 0x0, 0x0, 0xFFFF⟩ /- CLK_FDROP -/,
  ⟨0x101C, 0x0, 1, 0x4, 1, 0x0, 0x0, 0x0, 0x0, 0xFFFF⟩ /- CLK_LOSSCNT -/,
  ⟨0x1020, 0x0, 1, 0x4, 1, 0x0, 0x0, 0x0, 0x0, 0xFFFFFFFF⟩ /- CLK_REFMEAS -/,
  ⟨0x1024, 0x0, 1, 0x4, 55, 0x0, 0x0, 0x0, 0x0, 0x0⟩ /- RSV -/]
/-- Rows of Table CK-10. -/
def rowsCK10 : List RegRow := [
  ⟨0x2000, 0x0, 1, 0x4, 1, 0x0, 0x3F, 0x0, 0x0, 0x0⟩ /- RST_CAUSE -/,
  ⟨0x2004, 0x0, 1, 0x4, 1, 0x0, 0x0, 0x0, 0x0, 0x800001FF⟩ /- RST_UMPSRC -/,
  ⟨0x2008, 0x0, 1, 0x4, 1, 0x0, 0x0, 0x0, 0xFFFFFFFF, 0x0⟩ /- RST_SWRST -/,
  ⟨0x200C, 0x0, 1, 0x4, 1, 0x0, 0x0, 0x0, 0x0, 0x8000FFFF⟩ /- RST_WDT -/,
  ⟨0x2010, 0x0, 1, 0x4, 1, 0x0, 0x0, 0x0, 0x0, 0x80000007⟩ /- RST_PHASE -/,
  ⟨0x2014, 0x0, 1, 0x4, 1, 0x0, 0x0, 0x0, 0x0, 0x8000003F⟩ /- RST_BLKLAST -/,
  ⟨0x2018, 0x0, 1, 0x4, 1, 0x0, 0x0, 0x0, 0x0, 0xFFFF⟩ /- RST_BLKCNT -/,
  ⟨0x201C, 0x0, 1, 0x4, 1, 0x0, 0x0, 0x0, 0x0, 0xFFFF⟩ /- RST_COUNT -/,
  ⟨0x2020, 0x0, 1, 0x4, 1, 0x0, 0x3, 0x0, 0x0, 0x0⟩ /- RST_EVT -/,
  ⟨0x2024, 0x0, 1, 0x4, 7, 0x0, 0x0, 0x0, 0x0, 0x0⟩ /- RSV -/]
/-- Rows of Table CK-12. -/
def rowsCK12 : List RegRow := [
  ⟨0x3000, 0x0, 1, 0x4, 1, 0x0, 0x0, 0x0, 0x0, 0xFFF00000⟩ /- OPT_STAT -/,
  ⟨0x3004, 0x0, 1, 0x4, 1, 0x0, 0x0, 0x0, 0x0, 0xFFFFFFFF⟩ /- OPT_GEN -/,
  ⟨0x3008, 0x0, 1, 0x4, 1, 0x0, 0x0, 0x0, 0x0, 0xFFFFFFFF⟩ /- OPT_CRC -/,
  ⟨0x300C, 0x0, 1, 0x4, 1, 0x0, 0x0, 0x0, 0x0, 0x1⟩ /- OPT_PEND -/,
  ⟨0x3010, 0x0, 1, 0x4, 7, 0x0, 0x0, 0x0, 0x0, 0xFFFFFFFF⟩ /- OPT_IMG0..6 -/,
  ⟨0x302C, 0x0, 1, 0x4, 5, 0x0, 0x0, 0x0, 0x0, 0x0⟩ /- RSV -/]
/-- Rows of Table FT-9. -/
def rowsFT9 : List RegRow := [
  ⟨0x5000, 0x0, 1, 0x4, 1, 0x0, 0x0, 0x0, 0x3, 0x0⟩ /- UMP_CTRL -/,
  ⟨0x5004, 0x0, 1, 0x4, 1, 0x0, 0x0, 0x0, 0x0, 0xF0000000⟩ /- UMP_STAT -/,
  ⟨0x5008, 0x0, 1, 0x4, 1, 0x0, 0x0, 0x0, 0x0, 0xFFFFFF⟩ /- UMP_GRP -/,
  ⟨0x500C, 0x0, 1, 0x4, 1, 0x1FF, 0x0, 0x0, 0x0, 0x0⟩ /- UMP_SEL -/,
  ⟨0x5010, 0x0, 1, 0x4, 1, 0xBFF003FF, 0x0, 0x0, 0x0, 0x0⟩ /- UMP_CFG -/,
  ⟨0x5014, 0x0, 1, 0x4, 1, 0xFFFF, 0x0, 0x0, 0x0, 0x0⟩ /- UMP_THR -/,
  ⟨0x5018, 0x0, 1, 0x4, 1, 0xFFFFFFFF, 0x0, 0x0, 0x0, 0x0⟩ /- UMP_WIN -/,
  ⟨0x501C, 0x0, 1, 0x4, 1, 0x0, 0x0, 0x0, 0x0, 0xFFFFFFE0⟩ /- UMP_INFO -/,
  ⟨0x5020, 0x0, 1, 0x4, 1, 0x0, 0x0, 0x0, 0x0, 0xF00001FF⟩ /- UMP_FE_SRC -/,
  ⟨0x5024, 0x0, 1, 0x4, 1, 0x0, 0x0, 0x0, 0x0, 0xFFFFFFFF⟩ /- UMP_FE_ADDR_LO -/,
  ⟨0x5028, 0x0, 1, 0x4, 1, 0x0, 0x0, 0x0, 0x0, 0xFFFFFFFF⟩ /- UMP_FE_ADDR_HI -/,
  ⟨0x502C, 0x0, 1, 0x4, 1, 0x0, 0x0, 0x0, 0x0, 0xFFF0FFFF⟩ /- UMP_FE_INFO -/,
  ⟨0x5030, 0x0, 1, 0x4, 1, 0x0, 0x0, 0x0, 0x0, 0xFFFFFFFF⟩ /- UMP_FE_TIME_LO -/,
  ⟨0x5034, 0x0, 1, 0x4, 1, 0x0, 0x0, 0x0, 0x0, 0xFFFFFFFF⟩ /- UMP_FE_TIME_HI -/,
  ⟨0x5038, 0x0, 1, 0x4, 1, 0x0, 0x0, 0x0, 0x0, 0x800001FF⟩ /- UMP_SAFE_SRC -/,
  ⟨0x503C, 0x0, 1, 0x4, 1, 0x3, 0x0, 0x0, 0x0, 0x0⟩ /- UMP_EXT -/]
/-- Rows of Table FT-11. -/
def rowsFT11 : List RegRow := [
  ⟨0x4000, 0x0, 1, 0x4, 1, 0x0, 0x0, 0x0, 0x1, 0x0⟩ /- THM_CTRL -/,
  ⟨0x4004, 0x0, 1, 0x4, 1, 0x0, 0x0, 0x0, 0x0, 0xF8000000⟩ /- THM_STAT -/,
  ⟨0x4008, 0x0, 1, 0x4, 1, 0x0, 0x0, 0x0, 0x0, 0x3FFFFF⟩ /- THM_HOT -/,
  ⟨0x400C, 0x0, 1, 0x4, 1, 0x0, 0x0, 0x0, 0x0, 0xBF00FFFF⟩ /- THM_TRIP -/,
  ⟨0x4010, 0x0, 1, 0x4, 1, 0xFFFF, 0x0, 0x0, 0x0, 0x0⟩ /- THM_DIODE_N -/,
  ⟨0x4014, 0x0, 1, 0x4, 1, 0x7, 0x0, 0x0, 0x0, 0x0⟩ /- THM_NTC_SEL -/,
  ⟨0x4018, 0x0, 1, 0x4, 1, 0xFFFFFF, 0x0, 0x0, 0x0, 0x0⟩ /- THM_NTC_RNOM -/,
  ⟨0x401C, 0x0, 1, 0x4, 1, 0xFFFF, 0x0, 0x0, 0x0, 0x0⟩ /- THM_NTC_B -/,
  ⟨0x4020, 0x0, 1, 0x4, 1, 0xFFFFFF, 0x0, 0x0, 0x0, 0x0⟩ /- THM_NTC_RBIAS -/,
  ⟨0x4024, 0x0, 1, 0x4, 1, 0x0, 0x0, 0x0, 0x0, 0x7F⟩ /- THM_SMB -/,
  ⟨0x4028, 0x0, 1, 0x4, 1, 0x0, 0x0, 0x0, 0x0, 0xFFFF⟩ /- THM_BRKCNT -/,
  ⟨0x402C, 0x0, 1, 0x4, 5, 0x0, 0x0, 0x0, 0x0, 0x0⟩ /- RSV -/]
/-- Rows of Table FT-12. -/
def rowsFT12 : List RegRow := [
  ⟨0x4100, 0x10, 36, 0x4, 1, 0x0, 0x0, 0x0, 0x0, 0xFFFFFFFF⟩ /- THM_TEMP -/,
  ⟨0x4104, 0x10, 36, 0x4, 1, 0xC0F0FFFF, 0x0, 0x0, 0x0, 0x0⟩ /- THM_SCTRL -/,
  ⟨0x4108, 0x10, 36, 0x4, 1, 0xFFFFFFFF, 0x0, 0x0, 0x0, 0x0⟩ /- THM_THR -/,
  ⟨0x410C, 0x10, 36, 0x4, 1, 0x0, 0x0, 0x0, 0x0, 0xF0000000⟩ /- THM_SSTAT -/]
/-- Rows of Table SE-5. -/
def rowsSE5 : List RegRow := [
  ⟨0x6000, 0x0, 1, 0x4, 1, 0x0, 0x0, 0x0, 0x1, 0x0⟩ /- SEC_CTRL -/,
  ⟨0x6004, 0x0, 1, 0x4, 1, 0x0, 0x0, 0x0, 0x0, 0xFF800303⟩ /- SEC_STAT -/,
  ⟨0x6008, 0x0, 1, 0x4, 1, 0x0, 0x7, 0x0, 0x0, 0x0⟩ /- SEC_EVT -/,
  ⟨0x600C, 0x0, 1, 0x4, 1, 0x0, 0x0, 0x0, 0x0, 0xFF00FFFF⟩ /- SEC_ROMVER -/,
  ⟨0x6010, 0x0, 1, 0x4, 1, 0x0, 0x0, 0x0, 0x0, 0xFFFFFFFF⟩ /- SEC_PATCHVER -/,
  ⟨0x6014, 0x0, 1, 0x4, 1, 0x0, 0x0, 0x0, 0x0, 0xFFFFFFFF⟩ /- SEC_ARB -/,
  ⟨0x6018, 0x0, 1, 0x4, 1, 0x0, 0x0, 0x0, 0x0, 0xFFFFFFFF⟩ /- SEC_ENFSEQ -/,
  ⟨0x601C, 0x0, 1, 0x4, 1, 0x0, 0x0, 0x0, 0x0, 0xFFFFFFFF⟩ /- SEC_SIGCNT -/,
  ⟨0x6020, 0x0, 1, 0x4, 1, 0x0, 0x0, 0x0, 0x0, 0xFFFFFFFF⟩ /- SEC_UNLKCNT -/,
  ⟨0x6024, 0x0, 1, 0x4, 1, 0x0, 0x0, 0x0, 0x0, 0xFFFFFFFF⟩ /- SEC_CERT_LEN -/,
  ⟨0x6028, 0x0, 1, 0x4, 1, 0x7FF, 0x0, 0x0, 0x0, 0x0⟩ /- SEC_CERT_SEL -/,
  ⟨0x602C, 0x0, 1, 0x4, 1, 0x0, 0x0, 0x0, 0x0, 0xFFFFFFFF⟩ /- SEC_CERT_DATA -/,
  ⟨0x6030, 0x0, 1, 0x4, 4, 0x0, 0x0, 0x0, 0x0, 0x0⟩ /- RSV -/,
  ⟨0x6040, 0x0, 1, 0x4, 16, 0x0, 0x0, 0x0, 0x0, 0xFFFFFFFF⟩ /- SEC_ROMHASH0..15 -/,
  ⟨0x6080, 0x0, 1, 0x4, 16, 0x0, 0x0, 0x0, 0x0, 0xFFFFFFFF⟩ /- SEC_PATCHHASH0..15 -/,
  ⟨0x60C0, 0x0, 1, 0x4, 16, 0x0, 0x0, 0x0, 0x0, 0xFFFFFFFF⟩ /- SEC_OPTHASH0..15 -/]
/-- Rows of Table MP-3. -/
def rowsMP3 : List RegRow := [
  ⟨0x0, 0x0, 1, 0x4, 1, 0x0, 0x0, 0x0, 0x0, 0xFFFFFFFF⟩ /- ID_PART -/,
  ⟨0x4, 0x0, 1, 0x4, 1, 0x0, 0x0, 0x0, 0x0, 0xFF00FFFF⟩ /- ID_STEP -/,
  ⟨0x8, 0x0, 1, 0x4, 1, 0x0, 0x0, 0x0, 0x0, 0xFFFF⟩ /- ID_VARIANT -/,
  ⟨0xC, 0x0, 1, 0x4, 4, 0x0, 0x0, 0x0, 0x0, 0xFFFFFFFF⟩ /- ID_SERIAL0..3 -/,
  ⟨0x1C, 0x0, 1, 0x4, 1, 0xFFFFFFFF, 0x0, 0x0, 0x0, 0x0⟩ /- ID_SCRATCH -/,
  ⟨0x20, 0x0, 1, 0x4, 1, 0x0, 0x80000000, 0x0, 0x0, 0x60000000⟩ /- ID_BADADDR -/,
  ⟨0x24, 0x0, 1, 0x4, 1, 0x0, 0x0, 0x0, 0x0, 0xFFFF⟩ /- ID_BADCNT -/,
  ⟨0x28, 0x0, 1, 0x4, 1, 0x0, 0x0, 0x0, 0x0, 0xFFFFFFFF⟩ /- ID_BADOFS -/,
  ⟨0x2C, 0x0, 1, 0x4, 5, 0x0, 0x0, 0x0, 0x0, 0x0⟩ /- RSV -/]
/-- Rows of Table MP-4. -/
def rowsMP4 : List RegRow := [
  ⟨0xF00000, 0x0, 1, 0x4, 1, 0x7, 0x0, 0x0, 0x0, 0x0⟩ /- DBG_CTRL -/,
  ⟨0xF00004, 0x0, 1, 0x4, 1, 0x0, 0x0, 0x0, 0x0, 0xC0001FFF⟩ /- DBG_STAT -/,
  ⟨0xF00008, 0x0, 1, 0x4, 1, 0x3FFFFFC, 0x0, 0x0, 0x0, 0x0⟩ /- DBG_TRIG_ADDR -/,
  ⟨0xF0000C, 0x0, 1, 0x4, 1, 0x3FFFFFC, 0x0, 0x0, 0x0, 0x0⟩ /- DBG_TRIG_MASK -/,
  ⟨0xF00010, 0x0, 1, 0x4, 1, 0xFF, 0x0, 0x0, 0x0, 0x0⟩ /- DBG_FILTER -/,
  ⟨0xF00014, 0x0, 1, 0x4, 1, 0xFFF, 0x0, 0x0, 0x0, 0x0⟩ /- DBG_RD_SEL -/,
  ⟨0xF00018, 0x0, 1, 0x4, 4, 0x0, 0x0, 0x0, 0x0, 0xFFFFFFFF⟩ /- DBG_RD_DATA0..3 -/,
  ⟨0xF00028, 0x0, 1, 0x4, 6, 0x0, 0x0, 0x0, 0x0, 0x0⟩ /- RSV -/]
/-- Rows of Table CK-9. -/
def rowsCK9 : List RegRow := [
  ⟨0x1100, 0x4, 60, 0x4, 1, 0x0, 0x0, 0x0, 0x0, 0xF0FFFFFF⟩ /- CLK_DSTAT -/]
/-- Rows of Table FT-10. -/
def rowsFT10 : List RegRow := [
  ⟨0x5400, 0x4, 404, 0x4, 1, 0x0, 0xC0000000, 0x0, 0x20000000, 0xFFFF⟩ /- UMP_SRC -/]
/-- Rows of Table of R256 (doorbells). -/
def rowsR256 : List RegRow := [
  ⟨0x401000, 0x8, 65, 0x4, 2, 0xFFF, 0x0, 0x0, 0x0, 0x0⟩ /- doorbells -/]
/-- MSI-X table and pending-bit array (R374). -/
def rowsMsix : List RegRow := [⟨0x404000, 0, 1, 4, 264, 0xFFFFFFFF, 0, 0, 0, 0⟩, ⟨0x405000, 0, 1, 4, 4, 0, 0, 0, 0, 0xFFFFFFFF⟩]
/-- Every register and reserved word of BAR0 (Table MP-1). -/
def regRows : List RegRow :=
  rowsFL10 ++ rowsCV5 ++ rowsCV8 ++ rowsCV11 ++ rowsCV13 ++ rowsLE5 ++ rowsLE11 ++ rowsHD12 ++ rowsHD13 ++ rowsHD14 ++ rowsCS18 ++ rowsCS19 ++ rowsCS20 ++ rowsTM4 ++ rowsTM8 ++ rowsTM9 ++ rowsTT9 ++ rowsTT10 ++ rowsTT11 ++ rowsTT12 ++ rowsTT13 ++ rowsMM7 ++ rowsMM8 ++ rowsMM9 ++ rowsMM10 ++ rowsCK8 ++ rowsCK10 ++ rowsCK12 ++ rowsFT9 ++ rowsFT11 ++ rowsFT12 ++ rowsSE5 ++ rowsMP3 ++ rowsMP4 ++ rowsCK9 ++ rowsFT10 ++ rowsR256 ++ rowsMsix

/-- The row of the register at BAR0 address `a`; none where nothing is mapped (R377). -/
def regRow (a : Nat) : Option RegRow := regRows.find? (·.holds a)

/-- Is a BAR0 word address mapped (a register or a reserved word of Table MP-1)? -/
def regMapped (a : Nat) : Bool := regRows.any (·.holds a)

/-- A run of registers with the same reset value that is not 0. -/
structure ResetRow where
  base : Nat
  stride : Nat
  n : Nat
  stride2 : Nat
  n2 : Nat
  val : Nat
deriving DecidableEq, Repr

/-- Does the run hold address `a`? -/
def ResetRow.holds (r : ResetRow) (a : Nat) : Bool :=
  RegRow.holds ⟨r.base, r.stride, r.n, r.stride2, r.n2, 0, 0, 0, 0, 0⟩ a

/-- Reset values, part 0. -/
def resetRows0 : List ResetRow := [
  ⟨0x4284, 0x10, 12, 0, 1, 0xC0300F05⟩, /- THM_SCTRL, on-die -/
  ⟨0x4288, 0x10, 12, 0, 1, 0x7300640⟩, /- THM_THR, on-die -/
  ⟨0x140000, 0x40, 12, 0x4, 1, 0x1⟩, /- TILE_CTRL -/
  ⟨0x140004, 0x40, 12, 0x4, 1, 0x82000000⟩, /- TILE_STAT -/
  ⟨0x140028, 0x40, 12, 0x4, 1, 0xC⟩, /- EML_DLY -/
  ⟨0x140034, 0x40, 12, 0x4, 1, 0x8000⟩, /- TILE_TEMP -/
  ⟨0x120000, 0x20, 192, 0x4, 1, 0xC020⟩, /- EML_CTRL -/
  ⟨0x150000, 0x20, 24, 0x4, 1, 0x4⟩, /- BCO_CTRL -/
  ⟨0x150008, 0x20, 24, 0x4, 1, 0x100⟩, /- BCO_SLEW -/
  ⟨0x160000, 0x0, 1, 0x4, 1, 0x7⟩, /- TONE_CTRL -/
  ⟨0x160004, 0x0, 1, 0x4, 1, 0x80000000⟩, /- TONE_STAT -/
  ⟨0x160008, 0x0, 1, 0x4, 1, 0x624DD2F⟩, /- PILOT_BASE -/
  ⟨0x16000C, 0x0, 1, 0x4, 1, 0x83127⟩, /- PILOT_STEP -/
  ⟨0x160010, 0x0, 1, 0x4, 1, 0x32⟩, /- PILOT_DEPTH -/
  ⟨0x160014, 0x0, 1, 0x4, 1, 0x40000000⟩, /- DITHER_LO -/
  ⟨0x160018, 0x0, 1, 0x4, 1, 0x7999999A⟩, /- DITHER_HI -/
  ⟨0x16001C, 0x0, 1, 0x4, 1, 0x6C28F5C3⟩, /- DITHER_PSAFE -/
  ⟨0x360000, 0x0, 1, 0x4, 1, 0x1⟩, /- KLK_CTRL -/
  ⟨0x360020, 0x0, 1, 0x4, 1, 0xB7A60000⟩, /- KLK_UDP_CTRL -/
  ⟨0x360110, 0x40, 8, 0x4, 1, 0x82C0804⟩, /- KLK_CRED -/
  ⟨0x370000, 0x0, 1, 0x4, 1, 0x1⟩, /- HDL_CTRL -/
  ⟨0x370004, 0x0, 1, 0x4, 1, 0x2⟩, /- HDL_G -/
  ⟨0x370008, 0x0, 1, 0x4, 1, 0xA⟩, /- HDL_W -/
  ⟨0x37000C, 0x0, 1, 0x4, 1, 0x14⟩, /- HDL_LAT -/
  ⟨0x370010, 0x0, 1, 0x4, 1, 0xA⟩, /- HDL_RTX -/
  ⟨0x370014, 0x0, 1, 0x4, 1, 0x3E8⟩, /- HDL_MINLEAD -/
  ⟨0x400020, 0x0, 1, 0x4, 1, 0xB7A70000⟩, /- CMD_UDP -/
  ⟨0x320000, 0x0, 1, 0x4, 1, 0x12⟩, /- PTP_CTRL -/
  ⟨0x32000C, 0x0, 1, 0x4, 1, 0x18⟩, /- PTP_DOMAIN -/
  ⟨0x320028, 0x0, 1, 0x4, 1, 0x64⟩, /- SERVO_BW -/
  ⟨0x32002C, 0x0, 1, 0x4, 1, 0x3E8⟩, /- STEP_THR -/
  ⟨0x320030, 0x0, 1, 0x4, 1, 0x64⟩, /- SYNC_THR -/
  ⟨0x320034, 0x0, 1, 0x4, 1, 0x40100014⟩, /- PC_CTRL -/
  ⟨0x320038, 0x0, 1, 0x4, 1, 0x2⟩, /- HO_SYNC -/
  ⟨0x320044, 0x0, 1, 0x4, 1, 0x800003E8⟩, /- PPS_CTRL -/
  ⟨0x320100, 0x80, 2, 0x4, 1, 0xC8CC00⟩, /- PP_CTRL -/
  ⟨0x31000C, 0x100, 16, 0x4, 1, 0x1⟩, /- MS_SCI_LO -/
  ⟨0x310018, 0x100, 16, 0x4, 1, 0x80⟩ /- MKA_PRIO -/]
/-- Reset values, part 1. -/
def resetRows1 : List ResetRow := [
  ⟨0x330000, 0x0, 1, 0x4, 1, 0x1⟩, /- TSH_CTRL -/
  ⟨0x330038, 0x0, 1, 0x4, 1, 0xFA00000⟩, /- REP_CTRL -/
  ⟨0x500000, 0x0, 1, 0x4, 1, 0x1⟩, /- HBM_CTRL -/
  ⟨0x7000, 0x0, 1, 0x4, 1, 0x1⟩, /- NVM_CTRL -/
  ⟨0x2000, 0x0, 1, 0x4, 1, 0x1⟩, /- RST_CAUSE -/
  ⟨0x200C, 0x0, 1, 0x4, 1, 0x1F4⟩, /- RST_WDT -/
  ⟨0x4008, 0x0, 1, 0x4, 1, 0x8000⟩, /- THM_HOT -/
  ⟨0x400C, 0x0, 1, 0x4, 1, 0x8000⟩, /- THM_TRIP -/
  ⟨0x4010, 0x0, 1, 0x4, 1, 0x4083⟩, /- THM_DIODE_N -/
  ⟨0x4024, 0x0, 1, 0x4, 1, 0x4F⟩, /- THM_SMB -/
  ⟨0x4100, 0x10, 36, 0x4, 1, 0x80008000⟩, /- THM_TEMP -/
  ⟨0x4104, 0x10, 36, 0x4, 1, 0x300F05⟩, /- THM_SCTRL -/
  ⟨0x4108, 0x10, 36, 0x4, 1, 0x6400550⟩, /- THM_THR -/
  ⟨0x40400C, 0x10, 66, 0x4, 1, 0x1⟩, /- MSI-X vector control: masked (PRESUMED from PCI Express, log entry 3) -/
  ⟨0x600C, 0x0, 1, 0x4, 1, 0xB0000100⟩, /- SEC_ROMVER -/
  ⟨0x6024, 0x0, 1, 0x4, 1, 0x1CE0⟩, /- SEC_CERT_LEN -/
  ⟨0x0, 0x0, 1, 0x4, 1, 0x49480096⟩, /- ID_PART -/
  ⟨0x4, 0x0, 1, 0x4, 1, 0xB0000100⟩, /- ID_STEP -/
  ⟨0xF00010, 0x0, 1, 0x4, 1, 0xFF⟩, /- DBG_FILTER -/
  ⟨0x1100, 0x4, 60, 0x4, 1, 0x40000000⟩, /- CLK_DSTAT -/
  ⟨0x4030000, 0x80, 16, 0x10, 8, 0x2191C0⟩, /- PFC_HDRM -/
  ⟨0x4030004, 0x80, 16, 0x10, 8, 0x100000⟩, /- PFC_XOFF -/
  ⟨0x4030008, 0x80, 16, 0x10, 8, 0x80000⟩, /- PFC_XON -/
  ⟨0x4040000, 0x20, 2048, 0x0, 1, 0x10000001⟩, /- Q_CFG -/
  ⟨0x4040008, 0x20, 2048, 0x0, 1, 0x2400⟩, /- Q_BURST -/
  ⟨0x4040010, 0x20, 2048, 0x0, 1, 0x2400⟩, /- Q_BURST in force -/
  ⟨0x4040014, 0x20, 2048, 0x0, 1, 0x2400⟩, /- Q_TOKENS -/
  ⟨0x4060004, 0x40, 256, 0x0, 1, 0x40⟩, /- POL_CIR -/
  ⟨0x4060008, 0x40, 256, 0x0, 1, 0x2400⟩, /- POL_CBS -/
  ⟨0x406000C, 0x40, 256, 0x0, 1, 0x40⟩, /- POL_PIR -/
  ⟨0x4060010, 0x40, 256, 0x0, 1, 0x2400⟩, /- POL_EPBS -/
  ⟨0x4060024, 0x40, 256, 0x0, 1, 0x40⟩, /- POL_CIR in force -/
  ⟨0x4060028, 0x40, 256, 0x0, 1, 0x2400⟩, /- POL_CBS in force -/
  ⟨0x406002C, 0x40, 256, 0x0, 1, 0x40⟩, /- POL_PIR in force -/
  ⟨0x4060030, 0x40, 256, 0x0, 1, 0x2400⟩, /- POL_EPBS in force -/
  ⟨0x4070008, 0x20, 64, 0x0, 1, 0x3E⟩, /- TEN_TAGCAP -/
  ⟨0x4090000, 0x10, 8, 0x0, 1, 0x2710⟩, /- THM_NTC_RNOM -/
  ⟨0x4090004, 0x10, 8, 0x0, 1, 0xD6B⟩, /- THM_NTC_B -/
  ⟨0x4090008, 0x10, 8, 0x0, 1, 0x2710⟩, /- THM_NTC_RBIAS -/
  ⟨0x4000000, 4, 10, 0, 1, 0x81900004⟩, /- UMP_CFG from source 0 -/
  ⟨0x4001000, 4, 10, 0, 1, 4⟩]
/-- Reset values, part 2. -/
def resetRows2 : List ResetRow := [
  ⟨0x4002000, 4, 10, 0, 1, 1000000⟩,
  ⟨0x4000028, 4, 3, 0, 1, 0x80100008⟩, /- UMP_CFG from source 10 -/
  ⟨0x4001028, 4, 3, 0, 1, 4⟩,
  ⟨0x4002028, 4, 3, 0, 1, 1000000⟩,
  ⟨0x4000034, 4, 2, 0, 1, 0x80100008⟩, /- UMP_CFG from source 13 -/
  ⟨0x4001034, 4, 2, 0, 1, 8⟩,
  ⟨0x4002034, 4, 2, 0, 1, 1000000⟩,
  ⟨0x400003C, 8, 36, 0, 1, 0x80100008⟩, /- UMP_CFG from source 15 -/
  ⟨0x400103C, 8, 36, 0, 1, 16⟩,
  ⟨0x400203C, 8, 36, 0, 1, 1000000⟩,
  ⟨0x4000040, 8, 36, 0, 1, 0x81D00008⟩, /- UMP_CFG from source 16 -/
  ⟨0x4001040, 8, 36, 0, 1, 16⟩,
  ⟨0x4002040, 8, 36, 0, 1, 1000000⟩,
  ⟨0x400015C, 32, 12, 0, 1, 0x80000009⟩, /- UMP_CFG from source 87 -/
  ⟨0x400115C, 32, 12, 0, 1, 64⟩,
  ⟨0x400215C, 32, 12, 0, 1, 1000⟩,
  ⟨0x4000160, 32, 12, 0, 1, 0x80000009⟩, /- UMP_CFG from source 88 -/
  ⟨0x4001160, 32, 12, 0, 1, 64⟩,
  ⟨0x4002160, 32, 12, 0, 1, 1000⟩,
  ⟨0x4000164, 32, 12, 0, 1, 0x81900009⟩, /- UMP_CFG from source 89 -/
  ⟨0x4001164, 32, 12, 0, 1, 64⟩,
  ⟨0x4002164, 32, 12, 0, 1, 1000⟩,
  ⟨0x4000168, 32, 12, 0, 1, 0x81900009⟩, /- UMP_CFG from source 90 -/
  ⟨0x4001168, 32, 12, 0, 1, 64⟩,
  ⟨0x4002168, 32, 12, 0, 1, 1000⟩,
  ⟨0x400016C, 32, 12, 0, 1, 0x81900009⟩, /- UMP_CFG from source 91 -/
  ⟨0x400116C, 32, 12, 0, 1, 64⟩,
  ⟨0x400216C, 32, 12, 0, 1, 1000⟩,
  ⟨0x4000170, 32, 12, 0, 1, 0x80100009⟩, /- UMP_CFG from source 92 -/
  ⟨0x4001170, 32, 12, 0, 1, 64⟩,
  ⟨0x4002170, 32, 12, 0, 1, 1000⟩,
  ⟨0x4000174, 32, 12, 0, 1, 0x80100009⟩, /- UMP_CFG from source 93 -/
  ⟨0x4001174, 32, 12, 0, 1, 64⟩,
  ⟨0x4002174, 32, 12, 0, 1, 1000⟩,
  ⟨0x4000178, 32, 12, 0, 1, 0x80000009⟩, /- UMP_CFG from source 94 -/
  ⟨0x4001178, 32, 12, 0, 1, 64⟩,
  ⟨0x4002178, 32, 12, 0, 1, 1000⟩,
  ⟨0x40002DC, 8, 12, 0, 1, 0x82900029⟩, /- UMP_CFG from source 183 -/
  ⟨0x40012DC, 8, 12, 0, 1, 16⟩,
  ⟨0x40022DC, 8, 12, 0, 1, 1000⟩]
/-- Reset values, part 3. -/
def resetRows3 : List ResetRow := [
  ⟨0x40002E0, 8, 12, 0, 1, 0x80000009⟩, /- UMP_CFG from source 184 -/
  ⟨0x40012E0, 8, 12, 0, 1, 16⟩,
  ⟨0x40022E0, 8, 12, 0, 1, 1000⟩,
  ⟨0x400033C, 8, 12, 0, 1, 0x80900001⟩, /- UMP_CFG from source 207 -/
  ⟨0x400133C, 8, 12, 0, 1, 64⟩,
  ⟨0x400233C, 8, 12, 0, 1, 1000000⟩,
  ⟨0x4000340, 8, 12, 0, 1, 0x80000001⟩, /- UMP_CFG from source 208 -/
  ⟨0x4001340, 8, 12, 0, 1, 64⟩,
  ⟨0x4002340, 8, 12, 0, 1, 1000000⟩,
  ⟨0x400039C, 4, 24, 0, 1, 0x80900004⟩, /- UMP_CFG from source 231 -/
  ⟨0x400139C, 4, 24, 0, 1, 4⟩,
  ⟨0x400239C, 4, 24, 0, 1, 1000000⟩,
  ⟨0x40003FC, 4, 1, 0, 1, 0x80D00008⟩, /- UMP_CFG from source 255 -/
  ⟨0x40013FC, 4, 1, 0, 1, 16⟩,
  ⟨0x40023FC, 4, 1, 0, 1, 1000000⟩,
  ⟨0x4000400, 4, 1, 0, 1, 0x80100008⟩, /- UMP_CFG from source 256 -/
  ⟨0x4001400, 4, 1, 0, 1, 16⟩,
  ⟨0x4002400, 4, 1, 0, 1, 1000000⟩,
  ⟨0x4000404, 8, 12, 0, 1, 0x80000019⟩, /- UMP_CFG from source 257 -/
  ⟨0x4001404, 8, 12, 0, 1, 16⟩,
  ⟨0x4002404, 8, 12, 0, 1, 1000⟩,
  ⟨0x4000408, 8, 12, 0, 1, 0x80900019⟩, /- UMP_CFG from source 258 -/
  ⟨0x4001408, 8, 12, 0, 1, 16⟩,
  ⟨0x4002408, 8, 12, 0, 1, 1000⟩,
  ⟨0x4000464, 16, 12, 0, 1, 0x80000009⟩, /- UMP_CFG from source 281 -/
  ⟨0x4001464, 16, 12, 0, 1, 256⟩,
  ⟨0x4002464, 16, 12, 0, 1, 1000000⟩,
  ⟨0x4000468, 16, 12, 0, 1, 0x81900009⟩, /- UMP_CFG from source 282 -/
  ⟨0x4001468, 16, 12, 0, 1, 256⟩,
  ⟨0x4002468, 16, 12, 0, 1, 1000000⟩,
  ⟨0x400046C, 16, 12, 0, 1, 0x81900009⟩, /- UMP_CFG from source 283 -/
  ⟨0x400146C, 16, 12, 0, 1, 256⟩,
  ⟨0x400246C, 16, 12, 0, 1, 1000000⟩,
  ⟨0x4000470, 16, 12, 0, 1, 0x81D0000D⟩, /- UMP_CFG from source 284 -/
  ⟨0x4001470, 16, 12, 0, 1, 256⟩,
  ⟨0x4002470, 16, 12, 0, 1, 1000000⟩,
  ⟨0x4000524, 4, 1, 0, 1, 0x80000009⟩, /- UMP_CFG from source 329 -/
  ⟨0x4001524, 4, 1, 0, 1, 1024⟩,
  ⟨0x4002524, 4, 1, 0, 1, 1000000⟩,
  ⟨0x4000528, 4, 1, 0, 1, 0x80900009⟩ /- UMP_CFG from source 330 -/]
/-- Reset values, part 4. -/
def resetRows4 : List ResetRow := [
  ⟨0x4001528, 4, 1, 0, 1, 1024⟩,
  ⟨0x4002528, 4, 1, 0, 1, 1000000⟩,
  ⟨0x400052C, 4, 1, 0, 1, 0x80900009⟩, /- UMP_CFG from source 331 -/
  ⟨0x400152C, 4, 1, 0, 1, 1024⟩,
  ⟨0x400252C, 4, 1, 0, 1, 1000000⟩,
  ⟨0x4000530, 4, 1, 0, 1, 0x90F0000D⟩, /- UMP_CFG from source 332 -/
  ⟨0x4001530, 4, 1, 0, 1, 1024⟩,
  ⟨0x4002530, 4, 1, 0, 1, 1000000⟩,
  ⟨0x4000534, 4, 1, 0, 1, 0x80900009⟩, /- UMP_CFG from source 333 -/
  ⟨0x4001534, 4, 1, 0, 1, 1024⟩,
  ⟨0x4002534, 4, 1, 0, 1, 1000000⟩,
  ⟨0x4000538, 4, 1, 0, 1, 0x80900009⟩, /- UMP_CFG from source 334 -/
  ⟨0x4001538, 4, 1, 0, 1, 1024⟩,
  ⟨0x4002538, 4, 1, 0, 1, 1000000⟩,
  ⟨0x400053C, 4, 1, 0, 1, 0x80100009⟩, /- UMP_CFG from source 335 -/
  ⟨0x400153C, 4, 1, 0, 1, 1024⟩,
  ⟨0x400253C, 4, 1, 0, 1, 1000000⟩,
  ⟨0x4000540, 4, 1, 0, 1, 0x80000009⟩, /- UMP_CFG from source 336 -/
  ⟨0x4001540, 4, 1, 0, 1, 64⟩,
  ⟨0x4002540, 4, 1, 0, 1, 1000000⟩,
  ⟨0x4000544, 4, 1, 0, 1, 0x80900009⟩, /- UMP_CFG from source 337 -/
  ⟨0x4001544, 4, 1, 0, 1, 64⟩,
  ⟨0x4002544, 4, 1, 0, 1, 1000000⟩,
  ⟨0x4000548, 4, 1, 0, 1, 0x80D0000D⟩, /- UMP_CFG from source 338 -/
  ⟨0x4001548, 4, 1, 0, 1, 64⟩,
  ⟨0x4002548, 4, 1, 0, 1, 1000000⟩,
  ⟨0x400054C, 4, 1, 0, 1, 0x80D0000D⟩, /- UMP_CFG from source 339 -/
  ⟨0x400154C, 4, 1, 0, 1, 64⟩,
  ⟨0x400254C, 4, 1, 0, 1, 1000000⟩,
  ⟨0x4000550, 4, 1, 0, 1, 0x80100009⟩, /- UMP_CFG from source 340 -/
  ⟨0x4001550, 4, 1, 0, 1, 64⟩,
  ⟨0x4002550, 4, 1, 0, 1, 1000000⟩,
  ⟨0x4000554, 4, 1, 0, 1, 0x80100009⟩, /- UMP_CFG from source 341 -/
  ⟨0x4001554, 4, 1, 0, 1, 64⟩,
  ⟨0x4002554, 4, 1, 0, 1, 1000000⟩,
  ⟨0x4000558, 4, 1, 0, 1, 0x80100009⟩, /- UMP_CFG from source 342 -/
  ⟨0x4001558, 4, 1, 0, 1, 64⟩,
  ⟨0x4002558, 4, 1, 0, 1, 1000000⟩,
  ⟨0x400055C, 4, 1, 0, 1, 0x80100008⟩, /- UMP_CFG from source 343 -/
  ⟨0x400155C, 4, 1, 0, 1, 16⟩]
/-- Reset values, part 5. -/
def resetRows5 : List ResetRow := [
  ⟨0x400255C, 4, 1, 0, 1, 1000000⟩,
  ⟨0x4000560, 4, 1, 0, 1, 0x80D00008⟩, /- UMP_CFG from source 344 -/
  ⟨0x4001560, 4, 1, 0, 1, 16⟩,
  ⟨0x4002560, 4, 1, 0, 1, 1000000⟩,
  ⟨0x4000564, 4, 1, 0, 1, 0x80000009⟩, /- UMP_CFG from source 345 -/
  ⟨0x4001564, 4, 1, 0, 1, 64⟩,
  ⟨0x4002564, 4, 1, 0, 1, 1000000⟩,
  ⟨0x4000568, 4, 1, 0, 1, 0x90F0000D⟩, /- UMP_CFG from source 346 -/
  ⟨0x4001568, 4, 1, 0, 1, 64⟩,
  ⟨0x4002568, 4, 1, 0, 1, 1000000⟩,
  ⟨0x400056C, 4, 1, 0, 1, 0x80900009⟩, /- UMP_CFG from source 347 -/
  ⟨0x400156C, 4, 1, 0, 1, 64⟩,
  ⟨0x400256C, 4, 1, 0, 1, 1000000⟩,
  ⟨0x4000570, 4, 1, 0, 1, 0x90F0000D⟩, /- UMP_CFG from source 348 -/
  ⟨0x4001570, 4, 1, 0, 1, 64⟩,
  ⟨0x4002570, 4, 1, 0, 1, 1000000⟩,
  ⟨0x4000574, 4, 7, 0, 1, 0x80100008⟩, /- UMP_CFG from source 349 -/
  ⟨0x4001574, 4, 7, 0, 1, 64⟩,
  ⟨0x4002574, 4, 7, 0, 1, 1000000⟩,
  ⟨0x4000590, 4, 1, 0, 1, 0x80100008⟩, /- UMP_CFG from source 356 -/
  ⟨0x4001590, 4, 1, 0, 1, 64⟩,
  ⟨0x4002590, 4, 1, 0, 1, 1000000⟩,
  ⟨0x4000594, 4, 1, 0, 1, 0x80100008⟩, /- UMP_CFG from source 357 -/
  ⟨0x4001594, 4, 1, 0, 1, 64⟩,
  ⟨0x4002594, 4, 1, 0, 1, 1000000⟩,
  ⟨0x4000598, 4, 1, 0, 1, 0x80900008⟩, /- UMP_CFG from source 358 -/
  ⟨0x4001598, 4, 1, 0, 1, 64⟩,
  ⟨0x4002598, 4, 1, 0, 1, 1000000⟩,
  ⟨0x400059C, 4, 1, 0, 1, 0x80900008⟩, /- UMP_CFG from source 359 -/
  ⟨0x400159C, 4, 1, 0, 1, 64⟩,
  ⟨0x400259C, 4, 1, 0, 1, 1000000⟩,
  ⟨0x40005A0, 4, 1, 0, 1, 0x80100008⟩, /- UMP_CFG from source 360 -/
  ⟨0x40015A0, 4, 1, 0, 1, 64⟩,
  ⟨0x40025A0, 4, 1, 0, 1, 1000000⟩,
  ⟨0x40005A4, 4, 1, 0, 1, 0x80100008⟩, /- UMP_CFG from source 361 -/
  ⟨0x40015A4, 4, 1, 0, 1, 64⟩,
  ⟨0x40025A4, 4, 1, 0, 1, 1000000⟩,
  ⟨0x40005A8, 4, 1, 0, 1, 0x80100008⟩, /- UMP_CFG from source 362 -/
  ⟨0x40015A8, 4, 1, 0, 1, 64⟩,
  ⟨0x40025A8, 4, 1, 0, 1, 1000000⟩]
/-- Reset values, part 6. -/
def resetRows6 : List ResetRow := [
  ⟨0x40005AC, 4, 1, 0, 1, 0x80900008⟩, /- UMP_CFG from source 363 -/
  ⟨0x40015AC, 4, 1, 0, 1, 64⟩,
  ⟨0x40025AC, 4, 1, 0, 1, 1000000⟩,
  ⟨0x40005B0, 4, 1, 0, 1, 0x80900008⟩, /- UMP_CFG from source 364 -/
  ⟨0x40015B0, 4, 1, 0, 1, 64⟩,
  ⟨0x40025B0, 4, 1, 0, 1, 1000000⟩,
  ⟨0x40005B4, 4, 1, 0, 1, 0x80100008⟩, /- UMP_CFG from source 365 -/
  ⟨0x40015B4, 4, 1, 0, 1, 64⟩,
  ⟨0x40025B4, 4, 1, 0, 1, 1000000⟩,
  ⟨0x40005B8, 4, 1, 0, 1, 0x80100008⟩, /- UMP_CFG from source 366 -/
  ⟨0x40015B8, 4, 1, 0, 1, 64⟩,
  ⟨0x40025B8, 4, 1, 0, 1, 1000000⟩,
  ⟨0x40005BC, 4, 1, 0, 1, 0x80100008⟩, /- UMP_CFG from source 367 -/
  ⟨0x40015BC, 4, 1, 0, 1, 64⟩,
  ⟨0x40025BC, 4, 1, 0, 1, 1000000⟩,
  ⟨0x40005C0, 4, 1, 0, 1, 0x80100008⟩, /- UMP_CFG from source 368 -/
  ⟨0x40015C0, 4, 1, 0, 1, 64⟩,
  ⟨0x40025C0, 4, 1, 0, 1, 1000000⟩,
  ⟨0x40005C4, 4, 1, 0, 1, 0x80100008⟩, /- UMP_CFG from source 369 -/
  ⟨0x40015C4, 4, 1, 0, 1, 64⟩,
  ⟨0x40025C4, 4, 1, 0, 1, 1000000⟩,
  ⟨0x40005C8, 4, 1, 0, 1, 0x80100008⟩, /- UMP_CFG from source 370 -/
  ⟨0x40015C8, 4, 1, 0, 1, 16⟩,
  ⟨0x40025C8, 4, 1, 0, 1, 1000000⟩,
  ⟨0x40005CC, 4, 1, 0, 1, 0x80100008⟩, /- UMP_CFG from source 371 -/
  ⟨0x40015CC, 4, 1, 0, 1, 16⟩,
  ⟨0x40025CC, 4, 1, 0, 1, 1000000⟩,
  ⟨0x40005D0, 4, 1, 0, 1, 0x80900008⟩, /- UMP_CFG from source 372 -/
  ⟨0x40015D0, 4, 1, 0, 1, 16⟩,
  ⟨0x40025D0, 4, 1, 0, 1, 1000000⟩,
  ⟨0x40005D4, 4, 1, 0, 1, 0x80900008⟩, /- UMP_CFG from source 373 -/
  ⟨0x40015D4, 4, 1, 0, 1, 16⟩,
  ⟨0x40025D4, 4, 1, 0, 1, 1000000⟩,
  ⟨0x40005D8, 4, 1, 0, 1, 0x80100008⟩, /- UMP_CFG from source 374 -/
  ⟨0x40015D8, 4, 1, 0, 1, 16⟩,
  ⟨0x40025D8, 4, 1, 0, 1, 1000000⟩,
  ⟨0x40005DC, 4, 1, 0, 1, 0x80900008⟩, /- UMP_CFG from source 375 -/
  ⟨0x40015DC, 4, 1, 0, 1, 16⟩,
  ⟨0x40025DC, 4, 1, 0, 1, 1000000⟩,
  ⟨0x40005E0, 4, 1, 0, 1, 0x80100008⟩ /- UMP_CFG from source 376 -/]
/-- Reset values, part 7. -/
def resetRows7 : List ResetRow := [
  ⟨0x40015E0, 4, 1, 0, 1, 16⟩,
  ⟨0x40025E0, 4, 1, 0, 1, 1000000⟩,
  ⟨0x40005E4, 4, 1, 0, 1, 0x80100008⟩, /- UMP_CFG from source 377 -/
  ⟨0x40015E4, 4, 1, 0, 1, 16⟩,
  ⟨0x40025E4, 4, 1, 0, 1, 1000000⟩,
  ⟨0x40005E8, 4, 1, 0, 1, 0x80100008⟩, /- UMP_CFG from source 378 -/
  ⟨0x40015E8, 4, 1, 0, 1, 16⟩,
  ⟨0x40025E8, 4, 1, 0, 1, 1000000⟩,
  ⟨0x40005EC, 4, 1, 0, 1, 0x80100008⟩, /- UMP_CFG from source 379 -/
  ⟨0x40015EC, 4, 1, 0, 1, 16⟩,
  ⟨0x40025EC, 4, 1, 0, 1, 1000000⟩,
  ⟨0x40005F0, 4, 6, 0, 1, 0x80100008⟩, /- UMP_CFG from source 380 -/
  ⟨0x40015F0, 4, 6, 0, 1, 64⟩,
  ⟨0x40025F0, 4, 6, 0, 1, 1000000⟩,
  ⟨0x4000608, 4, 1, 0, 1, 0x80100008⟩, /- UMP_CFG from source 386 -/
  ⟨0x4001608, 4, 1, 0, 1, 16⟩,
  ⟨0x4002608, 4, 1, 0, 1, 1000000⟩,
  ⟨0x400060C, 4, 1, 0, 1, 0x80100008⟩, /- UMP_CFG from source 387 -/
  ⟨0x400160C, 4, 1, 0, 1, 16⟩,
  ⟨0x400260C, 4, 1, 0, 1, 1000000⟩,
  ⟨0x4000610, 4, 1, 0, 1, 0x80100008⟩, /- UMP_CFG from source 388 -/
  ⟨0x4001610, 4, 1, 0, 1, 16⟩,
  ⟨0x4002610, 4, 1, 0, 1, 1000000⟩,
  ⟨0x4000614, 4, 1, 0, 1, 0x80100008⟩, /- UMP_CFG from source 389 -/
  ⟨0x4001614, 4, 1, 0, 1, 16⟩,
  ⟨0x4002614, 4, 1, 0, 1, 1000000⟩,
  ⟨0x4000618, 4, 1, 0, 1, 0x80900008⟩, /- UMP_CFG from source 390 -/
  ⟨0x4001618, 4, 1, 0, 1, 16⟩,
  ⟨0x4002618, 4, 1, 0, 1, 1000000⟩,
  ⟨0x400061C, 4, 1, 0, 1, 0x80900008⟩, /- UMP_CFG from source 391 -/
  ⟨0x400161C, 4, 1, 0, 1, 16⟩,
  ⟨0x400261C, 4, 1, 0, 1, 1000000⟩,
  ⟨0x4000620, 4, 1, 0, 1, 0x80900008⟩, /- UMP_CFG from source 392 -/
  ⟨0x4001620, 4, 1, 0, 1, 16⟩,
  ⟨0x4002620, 4, 1, 0, 1, 1000000⟩,
  ⟨0x4000624, 4, 1, 0, 1, 0x80100008⟩, /- UMP_CFG from source 393 -/
  ⟨0x4001624, 4, 1, 0, 1, 16⟩,
  ⟨0x4002624, 4, 1, 0, 1, 1000000⟩,
  ⟨0x4000628, 4, 1, 0, 1, 0x80100008⟩, /- UMP_CFG from source 394 -/
  ⟨0x4001628, 4, 1, 0, 1, 16⟩]
/-- Reset values, part 8. -/
def resetRows8 : List ResetRow := [
  ⟨0x4002628, 4, 1, 0, 1, 1000000⟩,
  ⟨0x400062C, 4, 1, 0, 1, 0x80100008⟩, /- UMP_CFG from source 395 -/
  ⟨0x400162C, 4, 1, 0, 1, 16⟩,
  ⟨0x400262C, 4, 1, 0, 1, 1000000⟩,
  ⟨0x4000630, 4, 1, 0, 1, 0x80100008⟩, /- UMP_CFG from source 396 -/
  ⟨0x4001630, 4, 1, 0, 1, 16⟩,
  ⟨0x4002630, 4, 1, 0, 1, 1000000⟩,
  ⟨0x4000634, 4, 1, 0, 1, 0x80D00008⟩, /- UMP_CFG from source 397 -/
  ⟨0x4001634, 4, 1, 0, 1, 16⟩,
  ⟨0x4002634, 4, 1, 0, 1, 1000000⟩,
  ⟨0x4000638, 4, 1, 0, 1, 0x80D00008⟩, /- UMP_CFG from source 398 -/
  ⟨0x4001638, 4, 1, 0, 1, 16⟩,
  ⟨0x4002638, 4, 1, 0, 1, 1000000⟩,
  ⟨0x400063C, 4, 3, 0, 1, 0x80900004⟩, /- UMP_CFG from source 399 -/
  ⟨0x400163C, 4, 3, 0, 1, 8⟩,
  ⟨0x400263C, 4, 3, 0, 1, 1000000⟩,
  ⟨0x4000648, 4, 2, 0, 1, 0x80D00008⟩, /- UMP_CFG from source 402 -/
  ⟨0x4001648, 4, 2, 0, 1, 16⟩,
  ⟨0x4002648, 4, 2, 0, 1, 1000000⟩]
/-- Every register whose reset value is not 0. -/
def resetRows : List ResetRow :=
  resetRows0 ++ resetRows1 ++ resetRows2 ++ resetRows3 ++ resetRows4 ++ resetRows5 ++ resetRows6 ++ resetRows7 ++ resetRows8

/-- The reset value of the register (or hidden copy) at key `a` (R382). ID_VARIANT and the ROM hash are fixed by the
part and come from Config; every register with no row above resets to 0. -/
def regReset (a : Nat) : BitVec 32 :=
  if a = 0x8 then (if Config.variantX then 0x1802#32 else 0x1801#32)
  else if 0x6040 ≤ a ∧ a ≤ 0x607C then Config.romHashWord ((a - 0x6040) / 4)
  else match resetRows.find? (·.holds a) with
    | some r => BitVec.ofNat 32 r.val
    | none => 0#32

end Sys2Proof.Machine
end

