-- ==== Sys2Proof/Machine/Store.lean ====
section
/-!
DEFINITION. Sparse stores: one canonical form for registers, memories and every table of the device.
An unlisted key reads as `d key`; a write of that value removes the entry, so equal contents are equal lists.
-/

namespace Sys2Proof.Machine

/-- What the store reads at key `k`. -/
def sget {α : Type} (d : Nat → α) : SMap α → Nat → α
  | [], k => d k
  | (j, v) :: r, k => if j = k then v else sget d r k

/-- The store without an entry at `k`. -/
def sdel {α : Type} : SMap α → Nat → SMap α
  | [], _ => []
  | (j, v) :: r, k => if j = k then sdel r k else (j, v) :: sdel r k

/-- Insert by rising key, in front of the first larger one. -/
def sins {α : Type} (k : Nat) (v : α) : SMap α → SMap α
  | [] => [(k, v)]
  | (j, w) :: r => if k < j then (k, v) :: (j, w) :: r else (j, w) :: sins k v r

/-- Write `v` at `k`, keeping the canonical form. -/
def sset {α : Type} [DecidableEq α] (d : Nat → α) (m : SMap α) (k : Nat) (v : α) : SMap α :=
  if v = d k then sdel m k else sins k v (sdel m k)

/-- Drop every entry whose key lies in one of the ranges (each from its first key to its last). -/
def sdrop {α : Type} (rs : List (Nat × Nat)) (m : SMap α) : SMap α :=
  m.filter fun p => !(rs.any fun r => decide (r.1 ≤ p.1) && decide (p.1 ≤ r.2))

/-- Strictly rising keys. -/
def srising {α : Type} : SMap α → Bool
  | [] => true
  | [_] => true
  | a :: b :: r => decide (a.1 < b.1) && srising (b :: r)

/-- The canonical form: strictly rising keys, and no entry that holds what an unlisted key reads as. -/
def swf {α : Type} [DecidableEq α] (d : Nat → α) (m : SMap α) : Bool :=
  srising m && m.all fun p => !decide (p.2 = d p.1)

/-- A byte of HBM that no one has written reads 0 (spec/12_memories.md R310 gives it for the host scratch and the staging
buffers; DESIGN CHOICE elsewhere, log entry 4). -/
def blank (_ : Nat) : Byte := 0#8

/-- What a byte of an engine memory reads as before anything is written there: canonical NaNs in the mirror of the Element
Characterisation Table, which an absent record holds (R322, R401); 0 elsewhere (DESIGN CHOICE, log entry 4). -/
def memBlank (a : Nat) : Byte :=
  if 0x2000000 ≤ a ∧ a % 0x100000 < 0xE0000 then (if a % 4 = 3 then 0x7F#8 else if a % 4 = 2 then 0xC0#8 else 0#8) else 0#8

/-- What a byte of MRAM reads as as manufactured: both commit words hold transaction 0, everything else 0 (DESIGN CHOICE, log
entry 5). -/
def mramBlank (a : Nat) : Byte := if a = 0x4006 ∨ a = 0x4007 ∨ a = 0x400E ∨ a = 0x400F then 0xFF#8 else 0#8

/-- The canonical form of a byte memory whose unlisted bytes read as `d`. -/
def Memory.wf (d : Nat → Byte) (m : List Host.Cell) : Bool := swf d m

/-- Read one byte. -/
def readByte (d : Nat → Byte) (m : List Host.Cell) (a : Nat) : Byte := sget d m a

/-- Read `n` bytes at rising addresses. -/
def readBytes (d : Nat → Byte) (m : List Host.Cell) (a : Nat) : Nat → List Byte
  | 0 => []
  | n + 1 => readByte d m a :: readBytes d m (a + 1) n

/-- Write bytes at rising addresses. -/
def writeBytes (d : Nat → Byte) (m : List Host.Cell) (a : Nat) : List Byte → List Host.Cell
  | [] => m
  | b :: r => writeBytes d (sset d m a b) (a + 1) r

/-- The little-endian value of bytes, the first the lowest (R4, R241, R320). -/
def leNat : List Byte → Nat
  | [] => 0
  | b :: r => b.toNat + 256 * leNat r

/-- `n` bytes of a value, the lowest first. -/
def natLe : Nat → Nat → List Byte
  | 0, _ => []
  | n + 1, v => BitVec.ofNat 8 (v % 256) :: natLe n (v / 256)

/-- The big-endian value of bytes (Korotte frames, R209). -/
def beNat (l : List Byte) : Nat := leNat l.reverse

/-- A 32-bit little-endian word of an engine memory (R117). -/
def readWord (m : List Host.Cell) (a : Nat) : Word := BitVec.ofNat 32 (leNat (readBytes memBlank m a 4))

/-- `n` bytes of a list from offset `o`, 0 past its end. -/
def slice (l : List Byte) (o n : Nat) : List Byte :=
  let t := (l.drop o).take n
  t ++ List.replicate (n - t.length) 0#8

/-- The little-endian field of `n` bytes at offset `o`. -/
def leAt (l : List Byte) (o n : Nat) : Nat := leNat (slice l o n)

end Sys2Proof.Machine
end

