-- ==== Sys2Proof/Machine/State.lean ====
section
/-!
DEFINITION. The state of the IK96: every register, memory, buffer, counter, mode and link the spec gives it, and the
queue of the commands that wait. Each part's reset values stand beside its fields.
-/

namespace Sys2Proof.Machine

/-- Why the machine stops: nothing stops it. The spec turns every fault of the device into a status, an event, a park or a
reset, all of which are next states, so this type has no constructor. -/
inductive Fault where
deriving DecidableEq, Repr

/-- Why a command has no next state. -/
inductive Refusal where
  /-- Raised by an arm of `exec` whose command has no meaning yet (safe). -/
  | notModelled (mnemonic : String)
deriving DecidableEq, Repr

/-! ## Ethernet frames that the device sends (spec/11_telemetry_traffic.md R282, R292, R295) -/

/-- A PTP message that a port sends one-step: 1 Delay_Req, 2 Pdelay_Req, 3 Pdelay_Resp; its transport and group, domain and sequence number.
`stamp`, in units of 2^-16 ps, is the originTimestamp, or the turnaround time, that is written as it leaves, and until then the instant that the
turnaround counts from; `sub` is the root cycle of its tick at which it leaves, `peer` the port it answers. -/
structure PtpSent where
  port : Nat
  kind : Nat
  transport : PtpTransport
  dest : PtpDest
  domain : Nat
  seq : BitVec 16
  stamp : Int
  sub : Nat := 0
  peer : BitVec 64 := 0#64
  secured : Bool
deriving DecidableEq, Repr

/-- What a frame carries. -/
inductive NetBody where
  /-- A UDP datagram from the MAC's own address. -/
  | udp (v6 : Bool) (ip : Nat) (sport dport : Nat) (payload : List Byte)
  /-- An ARP reply, and a Neighbor Advertisement, for an own address. -/
  | arpReply (ip : Nat)
  | neighborAdv (ip : Nat)
  /-- PFC: priority and quanta. -/
  | pfc (prio quanta : Nat)
  | mka
  /-- A PTP message (R264, R295). -/
  | ptp (m : PtpSent)
deriving DecidableEq, Repr

/-- A frame of an egress queue. -/
structure NetFrame where
  /-- Destination MAC address. -/
  dst : Nat
  /-- TAG as in Table TT-6. -/
  tag : Nat := 0
  body : NetBody
  /-- Bytes from destination address through FCS, SecTAG and ICV apart. -/
  bytes : Nat
  /-- Launch time in ns (R277). -/
  launch : Option Nat := none
  /-- Instant of the device's time base at which it was queued. -/
  at_ : Nat := 0
  /-- It lies in the overflow area (R294). -/
  spilled : Bool := false
  /-- Subscription, slice and record frames of a telemetry packet. -/
  tele : Option (Nat × Nat × Nat) := none
deriving DecidableEq, Repr

/-- What the device puts on its pins, links and host port. -/
inductive Out where
  /-- An MSI-X interrupt on a vector (R238). -/
  | msix (vec : Nat)
  /-- A completion entry of 16 bytes to its slot of a queue's completion ring in host memory (R237, Table CS-3). -/
  | completion (queue addr : Nat) (entry : List Byte)
  /-- Response data of a command to RESP_ADDR, before its completion (R242). -/
  | response (tag addr : Nat) (data : List Byte)
  /-- The device reads host memory: a submission entry from its ring, or a payload from DATA_ADDR (R237, R241). -/
  | hostRead (addr len : Nat)
  /-- A register or memory read answered to a requester. -/
  | readData (v : Word)
  /-- The bytes that a read with byte enables, or of BAR2, asks for (R376). -/
  | readBytes (l : List Byte)
  /-- A read answered with Completer Abort (R376). -/
  | completerAbort
  /-- SMBus answers (Table FT-8). -/
  | smbByte (v : Nat)
  | smbWord (v : Nat)
  | smbBlock (bs : List Byte)
  | smbNack
  /-- The packet error code that the target appends to what it answers (R359). -/
  | smbPec (c : Byte)
  /-- The interrupt and the non-maskable trap to the supervisors (Table FT-2). -/
  | supvInt (source : Nat)
  | supvNmi (source : Nat)
  /-- A downlink frame to a tile: pairs D0 and D1, bit 0 first (Table FL-3). -/
  | downlink (tile : Nat) (d0 d1 : List Bool)
  /-- The 64 samples of an EDL lane in one frame (Table FL-1). -/
  | lane (lane : Nat) (samples : List (BitVec 16))
  /-- A Korotte frame on a lane (R209). -/
  | korotte (lane : Nat) (bytes : List Byte)
  /-- A HELLO on a link: domain and address, the sender's partition and the timestamp in ticks (R207). -/
  | hello (lane : Nat) (addr cred : Word) (stamp : Nat)
  /-- An Ethernet frame on a MAC, protected by MACsec or in clear. -/
  | ethernet (mac : Nat) (f : NetFrame) (protected_ : Bool)
  /-- A PTP message leaves a port (R264, R265). -/
  | ptp (m : PtpSent) (frame : List Byte)
  /-- The currentUtcOffset of the selected master's Announce, reported and never used (R257). -/
  | utcOffset (port : Nat) (v : BitVec 16)
  /-- PPS_OUT rises or falls (R275). -/
  | pps (level : Bool)
deriving DecidableEq, Repr

/-! ## Clocks and reset (spec/13_clocks_reset.md) -/

/-- Clock and reset state that no register shows. -/
structure ClkSt where
  /-- Ticks of 1/768 MHz counted since power-on; the device's own measure of elapsed time. -/
  mono : Nat := 0
  /-- REFCLK has given its 1,024 edges and the AON domain runs (R325, R335). -/
  aon : Bool := false
  /-- A power-on reset is in progress (R389). -/
  por : Bool := false
  /-- A chip reset request is sampled and its entry not yet done (R337). -/
  req : Bool := false
  /-- The device is in chip reset (Table CK-5). -/
  inReset : Bool := false
  /-- RESET_N is low (Table CK-4). -/
  pinLow : Bool := false
  /-- A loss of REFCLK or of the root waits for its clock to return before its chip reset; the Umpire source (Table CK-3). -/
  lossReset : Option Nat := none
  /-- Domains that lost clock-good and are not requalified. -/
  lost : List Nat := []
  /-- Register values of a lost or block-reset domain, to be restored (R330). -/
  saved : SMap Word := []
  /-- Option loads restarted in this power cycle (OPT_STAT.RESTARTS is loaded from it). -/
  restarts : Nat := 0
  /-- Domains that entered reset alone, whose crossing FIFOs wait for their handshake (R333). -/
  resync : List Nat := []
  /-- The POR of this power cycle has not yet been followed by an option load (R356). -/
  firstLoad : Bool := true
  /-- Park Table in force is unreadable, and step 4 waits for a commit (R400). -/
  noPark : Bool := false
deriving DecidableEq, Repr

/-! ## Umpire and temperature (spec/14_faults_thermal.md) -/

/-- Umpire state that no register shows. -/
structure UmpSt where
  /-- Run count k of each source (R346). -/
  run : SMap Nat := []
  /-- Start instant ts0 of each source's run. -/
  ts0 : SMap Nat := []
  /-- The mask a set bit applied when it rose: key 2n for FLAG of source n, 2n + 1 for SEVERE (R344, R345). -/
  applied : SMap Nat := []
  /-- Level sources whose level holds (R341, R347). -/
  level : List Nat := []
deriving DecidableEq, Repr

/-- What the device keeps of one temperature sensor beside its registers (R353-R356). -/
structure Sensor where
  /-- The latest 101 readings, newest first, none where broken, disabled or not taken. -/
  hist : List (Option Int) := []
  /-- Consecutive good readings since the last broken one. -/
  good : Nat := 0
deriving DecidableEq, Repr

/-- Temperature state. -/
structure ThmSt where
  sensors : SMap Sensor := []
  /-- On-die sensors whose THM_THR software has written (R356). -/
  thrSet : List Nat := []
  /-- The THERMTRIP latch (R357). -/
  tripped : Bool := false
  /-- GPIO[15:14] as sampled when AON left POR (R359). -/
  gpio : Nat := 3
deriving DecidableEq, Repr

/-! ## MRAM, Option Area and Park Table (spec/12_memories.md) -/

/-- A command that waits for its answer: the tag it holds. -/
structure Waiter where
  tag : Nat
deriving DecidableEq, Repr

/-- What follows the commit of a transaction (R315). -/
inductive NvmAfter where
  | nothing
  /-- A new Park Table image. -/
  | park (img : List Byte)
  /-- ECT records of these elements. -/
  | ect (es : List Nat)
  /-- The characterisation of this element succeeded. -/
  | charact (e : Nat)
  /-- A map was stored in a persistent slot. -/
  | mapStored (slot : Nat)
  /-- Anti-rollback counters and the patch slot of a firmware extension. -/
  | patch (version : Nat)
  /-- The customer keys. -/
  | keys
  /-- A new Option Area image, and ENF_PROG and ENF_ECT where ENFORCE_SET wrote it. -/
  | options (img : List Byte) (enforce : Option (Bool × Bool))
deriving DecidableEq, Repr

/-- One record to write: region code, index, payload and the trailer's AUX (R313). -/
structure NvmRec where
  region : Nat
  index : Nat
  payload : List Byte
  aux : Nat := 0
deriving DecidableEq, Repr

/-- A transaction asked of the NVM engine (R314). An Option Area write carries its image three times and no record. -/
structure NvmTxn where
  recs : List NvmRec := []
  options : Option (List Byte) := none
  after : NvmAfter := .nothing
  /-- The command that waits; none for the Park Table commit of NVM_PT_CTRL and for a characterisation. -/
  tag : Option Nat := none
  /-- The first result word of the command when it succeeds. -/
  result0 : Nat := 0
deriving DecidableEq, Repr

/-- The transaction in progress: what is left to write, and which slots a later scan would clear. -/
structure NvmRun where
  txn : NvmTxn
  num : Nat
  /-- The steps left, at most 56 words each: MRAM offset and bytes of each word. -/
  steps : List (List (Nat × List Byte))
  /-- First byte and trailer of each slot it writes. -/
  slots : List (Nat × Nat)
deriving DecidableEq, Repr

/-- A fault log entry that waits for the NVM engine (Table FT-4). -/
structure FlogEntry where
  time : Nat
  kind : Nat
  source : Nat
  cls : Nat
  react : Nat
  occ : Nat
  rstcnt : Nat
  addr : Nat
  info : Nat
  hot : Nat
deriving DecidableEq, Repr

/-- NVM engine state. -/
structure NvmSt where
  queue : List NvmTxn := []
  run : Option NvmRun := none
  /-- Slots of an abandoned transaction, cleared before the next (R316). -/
  clear : List Nat := []
  /-- Entries of the list of retired HBM lines that wait to be written (R307). -/
  retire : List (Nat × List Byte) := []
  flog : List FlogEntry := []
  /-- Entries written since manufacture (SEQ of Table FT-4). -/
  flogSeq : Nat := 0
  /-- MRAM writes are stopped: TXN_FATAL or THERMTRIP (R314, R317). -/
  stopped : Bool := false
  /-- Committed transaction number TXN_C as the recovery scan found it (R314). -/
  txnC : Nat := 0
  /-- The Option Area image in force; empty before the option load. -/
  opt : List Byte := []
  /-- A newer Park Table image that takes effect at the next frame boundary (R321). -/
  parkNext : Option (List Byte) := none
  /-- The Park Table image in force; empty where there is none. -/
  park : List Byte := []
  /-- The Park Table image copied by a COMMIT that runs (R321). -/
  parkRewrite : Bool := false
deriving DecidableEq, Repr

/-! ## Register access (spec/16_register_map.md) -/

/-- The trace buffer (R384). -/
structure DbgSt where
  /-- Entries held, oldest first, each of four words. -/
  trace : List (Word × Word × Word × Word) := []
  /-- Entries still to capture after the trigger. -/
  left : Option Nat := none
deriving DecidableEq, Repr

/-! ## Host port (spec/09_command_set.md) -/

/-- An event record that waits in a queue (Table CS-7); DROPPED is filled in when it is delivered. -/
structure EvRec where
  code : Nat
  source : Nat
  object : Nat
  time : Nat
  connTag : Nat := 0
  tenant : Nat := 0x40
  detail : Nat := 0
deriving DecidableEq, Repr

/-- A completion that waits to be posted (Table CS-3). -/
structure Completion where
  tag : Nat
  status : Nat
  r0 : Nat := 0
  r1 : Nat := 0
  data : List Byte := []
deriving DecidableEq, Repr

/-- A queue pair (R237, R238). Its doorbells are registers. -/
structure QPair where
  sqSize : Nat
  cqSize : Nat
  sqBase : Nat
  cqBase : Nat
  vec : Nat
  /-- Index of the next entry to fetch, and of the next completion slot. -/
  sqHead : Nat := 0
  cqTail : Nat := 0
  phase : Bool := true
  /-- The tag of the QUEUE_DELETE that waits for its last tag (R249). -/
  deleting : Option Nat := none
deriving DecidableEq, Repr

/-- A fetched command: it holds a tag until its completion is posted (R239). -/
structure Cmd where
  tag : Nat
  queue : Nat
  /-- Acceptance order. -/
  num : Nat
  entry : Entry
  /-- Binding, SEQ and source of a datagram. -/
  dgram : Option (Nat × Nat × Source) := none
  /-- The payload of a datagram, its copy of the staging buffer included (R245). -/
  payload : List Byte := []
  /-- First byte of that copy that lay on an uncorrectable line. -/
  bad : Option Nat := none
  started : Bool := false
  /-- Its queue was deleted after it started: its completion is discarded (R249). -/
  dropped : Bool := false
deriving DecidableEq, Repr

/-- The record of a SEQ that a binding accepted: the response, once there is one (R244). -/
structure SeqSeen where
  seq : Nat
  response : Option (List Byte) := none
deriving DecidableEq, Repr

/-- An EVENT_WAIT that waits (R250). -/
structure EvWait where
  tag : Nat
  queue : Nat
  count : Nat
deriving DecidableEq, Repr

/-- The host port's queues, tags, bindings and events. -/
structure HostSt where
  pairs : SMap (Option QPair) := []
  /-- Commands that hold a tag, in acceptance order. -/
  cmds : List Cmd := []
  /-- Commands accepted since reset. -/
  accepted : Nat := 0
  /-- The tenant queue served last (R239). -/
  served : Nat := 64
  /-- The last 64 SEQ values of each binding, newest last (R244). -/
  seqs : SMap (List SeqSeen) := []
  waits : List EvWait := []
  /-- Event queue of each queue pair, oldest first (R250). -/
  evq : SMap (List EvRec) := []
  /-- Records dropped since the last delivered. -/
  evDrop : SMap Nat := []
  /-- Records appended to the event log in HBM since reset. -/
  logNext : Nat := 0
  /-- Commands that ended, oldest first. -/
  done : List Completion := []
deriving DecidableEq, Repr

/-! ## Network time (spec/10_network_time.md) -/

/-- A port's PTP state that no register shows. Times are in units of 2^-16 ps. -/
structure PtpPort where
  /-- The dataset of the selected master. -/
  gm : Option GmData := none
  /-- Exchanges, newest first, up to 320: the Sync's t2 - t1 - correction, and the path delay. -/
  exch : List (Int × Int) := []
  /-- The average delay, frozen during PATH_HOLD. -/
  held : Option Int := none
  /-- Of the latest Sync: t2 - t1 - correction. -/
  raw : Option Int := none
  /-- A two-step Sync that waits for its Follow_Up: its sequence number and t2 - correction. -/
  pending : Option (BitVec 16 × Int) := none
  /-- The latest request: its sequence number and transmit time. -/
  req : Option (BitVec 16 × Int) := none
  nextSeq : BitVec 16 := 0#16
  /-- Instants of the device's time base of the latest Sync, of the latest delay response and of the latest request. -/
  syncAt : Nat := 0
  delayAt : Nat := 0
  reqAt : Option Nat := none
  /-- Exchanges in a row at which the port was in SLAVE with a steady delay (R271). -/
  steady : Nat := 0
deriving DecidableEq, Repr

/-- Network time state that no register shows. -/
structure TimSt where
  /-- TICK, modulo 2^48 (R258). -/
  tick : Nat := 0
  /-- The anchor tick A. -/
  anchor : Nat := 0
  /-- N_A in units of 1/(96 * 2^41) ns. -/
  nA : NetTime := 0
  /-- Lane frames since reset (CLU_FRAME, R97, R257). -/
  frames : Nat := 0
  /-- What the network frame number exceeds that count by (R257). -/
  frameOfs : Int := 0
  ports : SMap PtpPort := []
  /-- The last 64 values of RATE_ADJ, newest first (R266). -/
  rates : List Int := []
  /-- Consecutive Syncs with a filtered offset below SYNC_THR; consecutive measurements beyond STEP_THR (Table TM-3, R269). -/
  lockRun : Nat := 0
  stepRun : Nat := 0
  /-- The source is new, or the servo begins ACQUIRING: its next measurement is a first one (R269). -/
  first : Bool := false
  /-- Instant of the device's time base of the entry into HOLDOVER or PATH_HOLD from a synchronised state; none once HO_SYNC has
  run out. -/
  heldAt : Option Nat := none
  /-- Entry into PATH_HOLD, and exchanges of the source since then; the port of the last path change. -/
  pathAt : Nat := 0
  pathCount : Nat := 0
  pathPort : Nat := 0
  /-- The step, in units of 2^-16 ps, that acts on the frame grid at the next frame boundary (R273). -/
  stepPend : Option Int := none
  /-- The whole second PPS_OUT rose at last; its level, and the instant of the device's time base it rose. -/
  ppsSec : Nat := 0
  ppsHigh : Bool := false
  ppsAt : Nat := 0
  /-- Instant of the device's time base of the last PPS_IN edge; its miss is reported. -/
  ppsInAt : Option Nat := none
  ppsMissed : Bool := false
deriving DecidableEq, Repr

/-! ## Replay Recorder (spec/11_telemetry_traffic.md R302-R304) -/

/-- Recorder state that no register shows. -/
structure RepSt where
  /-- Frames still to write after a trigger. -/
  left : Nat := 0
  /-- Newest lane frame recorded. -/
  newest : Option Nat := none
  /-- Oldest lane frame recorded. -/
  oldest : Option Nat := none
  /-- Triggers that found it posting or frozen. -/
  ignored : Nat := 0
deriving DecidableEq, Repr

/-! ## Lanes, fabric control links, converters and bias outputs (spec/02_fabric_lanes.md, spec/03_converters.md) -/

/-- A directed monitor point: an entry of an INJECT message (Table FL-5). -/
structure InjEntry where
  lane : Nat
  eslot : Nat
  point : Nat
  tgt : Nat
deriving DecidableEq, Repr

/-- A downlink message (Table FL-5); lanes are local lanes 0-15. -/
inductive Msg where
  | slotValid (lane : Nat) (mask : BitVec 60)
  | inject (entries : List InjEntry)
  | parkDrive (lane first : Nat) (codes : List (BitVec 16))
  | parkTrim (lane first : Nat) (trims : List (BitVec 12))
  | parkCommit (crc : Word)
deriving DecidableEq, Repr

/-- A downlink frame that the tile has not acknowledged yet. -/
structure Sent where
  seq : Nat
  frame : Nat
  msg : Option Msg
deriving DecidableEq, Repr

/-- How far a park store load has come (R50, R63). -/
inductive LoadStage where
  | idle | data | commit | acked
deriving DecidableEq, Repr

/-- The device's side of one tile's Fabric Control Link. -/
structure TileLink where
  /-- SEQ of the next downlink frame (R46). -/
  seq : Nat := 0
  /-- Messages that wait, oldest first. -/
  queue : List Msg := []
  sent : List Sent := []
  /-- Consecutive good uplink frames, up to 4 (R52). -/
  good : Nat := 0
  /-- Consecutive frames without SYNCU. -/
  syncMiss : Nat := 0
  /-- Consecutive lane frames without a good uplink frame (R59). -/
  missing : Nat := 0
  /-- A good uplink frame, and any uplink frame, arrived in the present lane frame. -/
  gotGood : Bool := false
  gotAny : Bool := false
  /-- The absence of SYNCU in the present lane frame is counted. -/
  noSync : Bool := false
  /-- Uplink lock was gained since LCLK last started. -/
  everLocked : Bool := false
  /-- Local indices whose hold-cell fault flag is set (R53). -/
  hflt : List Nat := []
  load : LoadStage := .idle
  /-- A park store reload that could not be sent, or was cut off, is owed (R63). -/
  owed : Bool := false
  /-- The EML_DLY sweep of this bring-up is still to come (Table FL-9). -/
  sweepDue : Bool := false
  /-- Instant of the device's time base at which FAB_HOLD last rose (R59). -/
  heldAt : Nat := 0
  /-- FAB_HOLD is driven; until bring-up step 4 it is released to the tile's pull-up (Table CK-7). -/
  driven : Bool := false
deriving DecidableEq, Repr

/-- A range change in progress (Table CV-1). -/
structure Rchg where
  /-- Frame F. -/
  start : Nat
  /-- The range it goes to: true is 1.0 V. -/
  target : Bool
  prev : BitVec 60
  sent : Bool := false
  cleared : Bool := false
  /-- Frame in which the cleared mask was acknowledged. -/
  clearedAt : Nat := 0
  /-- Frame of the range switch. -/
  switched : Option Nat := none
  restoring : Bool := false
  restored : Bool := false
  timedOut : Bool := false
deriving DecidableEq, Repr

/-- A lane pair's state that no register shows. -/
structure Lane where
  /-- Slot-valid mask last sent and the mask the tile acknowledged (R39). -/
  mask : BitVec 60 := 0#60
  acked : BitVec 60 := 0#60
  rchg : Option Rchg := none
deriving DecidableEq, Repr

/-- An injected sequence's entry placed in a slot, to be converted in the next frame (R85). -/
structure Placed where
  index : Nat
  lane : Nat
  slot : Nat
  claimed : Bool
  /-- The frame that directs it was not acknowledged (R51). -/
  lost : Bool := false
deriving DecidableEq, Repr

/-- A lane group's state that no register shows (R80-R87). -/
structure Group where
  /-- Lane frame at which REFBUF_EN rose. -/
  refAt : Nat := 0
  /-- The device itself sets CONV_EN at REFBUF_RDY (R82, bring-up). -/
  autoConv : Bool := false
  /-- Frames converted since conversions started, up to 1,025. -/
  conv : Nat := 0
  /-- The first 1,025 converted frames are over (R80). -/
  settled : Bool := false
  /-- Frames since low-power mode was entered. -/
  lpCount : Nat := 0
  /-- Frames of re-settling left after low-power mode, and one more until they are declared over. -/
  resettle : Nat := 0
  /-- Index of the next entry of the running sequence (INJ_POS shows its low bits). -/
  pos : Nat := 0
  /-- Entries placed in the last frame. -/
  placed : List Placed := []
  /-- Entries converted in the present frame, whose INJECT frame may still prove unacknowledged (R51). -/
  converted : List Placed := []
  /-- Lane and element slot claimed in the last frame. -/
  claims : List (Nat × Nat) := []
  /-- An armed time trigger, in 250 ns intervals since the epoch (R84). -/
  timeTrig : Option Nat := none
deriving DecidableEq, Repr

/-- A dyadic fraction num / 2^exp, for the averages of R80. -/
structure Dyadic where
  num : Int := 0
  exp : Nat := 0
deriving DecidableEq, Repr

/-- An ADC slice (R80, R81). -/
structure Slice where
  high : Dyadic := {}
  low : Dyadic := {}
  /-- The averages hold a first sample. -/
  started : Bool := false
  /-- Consecutive reference samples left out. -/
  left : Nat := 0
  /-- Consecutive frames with the conditions of R81 met, while in CAL_FAULT. -/
  good : Nat := 0
  /-- The last good correction, which CAL_FAULT keeps. -/
  keptHigh : Dyadic := {}
  keptLow : Dyadic := {}
deriving DecidableEq, Repr

/-- A frozen-feedback detector (R88). -/
structure Frz where
  last : Option (BitVec 14) := none
  same : Nat := 0
  sat : Nat := 0
  missing : Nat := 0
  frozen : Bool := false
deriving DecidableEq, Repr

/-- A tone context (R72, R75). -/
structure ToneCtx where
  freq : Word := 0#32
  phase : Word := 0#32
  amp : Nat := 0
  pilot : Bool := false
deriving DecidableEq, Repr

/-- A bias output channel's state that no register shows (R89-R92). -/
structure Bco where
  /-- A range change ramps to 0 and then switches (R90). -/
  rchg : Bool := false
deriving DecidableEq, Repr

/-- Lanes, links, converters, tones and bias outputs. -/
structure LaneSt where
  tiles : SMap TileLink := []
  lanes : SMap Lane := []
  groups : SMap Group := []
  /-- Slice j of lane n at key 4n + j. -/
  slices : SMap Slice := []
  /-- Slot k of lane n at key 112n + k. -/
  frz : SMap Frz := []
  /-- Slot s of lane n at key 56n + s. -/
  tones : SMap ToneCtx := []
  /-- One more than the running heater trim of an element that heater offload has moved (R164); 0 is its park trim. -/
  trims : SMap Nat := []
  bco : SMap Bco := []
  /-- Frames since the last trimmed frame, up to 3 (R34). -/
  sinceTrim : Nat := 3
  /-- The root cycle of the device's time base, 8 to a tick, at which the next lane frame begins: a frame has 1,536 of them, one more or less where
  it is trimmed (R34, R272). -/
  frameDue : Nat := 0
  /-- Last code of each slot, for STALE samples: slot k of lane n at key 112n + k (Table CV-3). -/
  lastCode : SMap (BitVec 14) := []
  /-- Codes emitted in the present lane frame and in the one before it, by element (R291). -/
  emit : SMap (BitVec 16) := []
  emitPrev : SMap (BitVec 16) := []
deriving DecidableEq, Repr

/-! ## Loop engines (spec/04_loop_engines.md, spec/05_gloit_isa.md) -/

/-- A monitor sample as an engine sees it (Table CV-3); a cleared entry is code 0 and MISSING (R99). -/
structure Sample where
  code : BitVec 14 := 0#14
  missing : Bool := true
  sat : Bool := false
  frozen : Bool := false
  stale : Bool := false
  laneHold : Bool := false
deriving DecidableEq, Repr

/-- An entry of a drive-out buffer: the drive in volts, which becomes a code by the range of the lane frame it leaves in, or the
mark that the element carries its park code (R100, R101, R140). -/
inductive Drive where
  | park
  | volts (v : Word)
deriving DecidableEq, Repr

/-- A tone update that takes effect with the next drives (R74, R141): what it writes, the amplitude still in volts. -/
structure ToneUpd where
  freq : Option Word := none
  amp : Option Word := none
  /-- Amplitudes of earlier TONEs of the frame, which this one supersedes. -/
  older : List Word := []
  phase : Option Word := none
  pilot : Bool := false
deriving DecidableEq, Repr

/-- An engine's sequencing state. -/
structure Eng where
  /-- Group base register (R102). -/
  gb : Nat := 0
  /-- Index of the next instruction of the frame program, and the index after GRP. -/
  pc : Nat := 0
  grpPc : Nat := 0
  /-- Inside the group body. -/
  inBody : Bool := false
  /-- Engine cycle within the frame (R98). -/
  cycle : Nat := 0
  /-- The frame program runs: begun, and neither ended nor abandoned. -/
  active : Bool := false
  /-- Groups whose OUT.DRV has issued this frame, bit g (R104). -/
  done : BitVec 7 := 0#7
  /-- The last frame ended in an overrun. -/
  overran : Bool := false
  /-- SPEV of this frame (Table GI-6). -/
  spev : BitVec 32 := 0#32
  /-- A start (true) or a stop that the next engine frame takes up (R101). -/
  runReq : Option Bool := none
  /-- Banks that hold the SLP-1 ROM image, bit b (R146). -/
  rom : BitVec 2 := 0#2
  /-- The ROM image was loaded and the engine's LSM does not hold its initial words yet (R146). -/
  initDue : Bool := false
  /-- Event queue entries that wait, oldest first, and the count of those dropped (R138). -/
  evq : List (BitVec 64) := []
  dropped : Nat := 0
  /-- Lane frame count at which the engine halted, for R163. -/
  haltedAt : Nat := 0
  /-- Lane frame count until which the supervisors keep FPARK set after a start (R163). -/
  parkTo : Nat := 0
deriving DecidableEq, Repr

/-- An element table update of a cluster (R114): the element, its new entries and how many engine frames it has run. -/
structure EctUpd where
  elem : Nat
  image : List Byte
  frames : Nat := 0
deriving DecidableEq, Repr

/-- The engines. -/
structure EngSt where
  /-- Net trim of lane frames not yet taken up by an engine frame, in root cycles, and the cycles of this engine frame
  (R98). -/
  trim : Int := 0
  frameLen : Nat := 384
  /-- FRAME of the engine frame in progress (Table GI-6). -/
  frame : Nat := 0
  /-- A commit strobe falls on the lane frame that begins next (R109). -/
  strobe : Bool := false
  engs : SMap Eng := []
  /-- Lane l of V r of engine e at key (32e + r) * 16 + l. -/
  vregs : SMap Word := []
  /-- S r of engine e at key 32e + r. -/
  sregs : SMap Word := []
  /-- P p of engine e at key 8e + p. -/
  pregs : SMap (BitVec 16) := []
  /-- Sample-in buffers, the side engines read and the side that fills: point m of element n at key 2n + m. -/
  smpRead : SMap Sample := []
  smpFill : SMap Sample := []
  /-- Drive-out buffers, the emission side and the fill side, by element. -/
  drvEmit : SMap Drive := []
  drvFill : SMap Drive := []
  /-- Tone updates of this engine frame, by element. -/
  tonePend : SMap (Option ToneUpd) := []
  /-- Tone updates of the engine frame before, which take effect in the lane frame that begins next (R141). -/
  toneDue : SMap (Option ToneUpd) := []
  /-- The CRC of each cluster's master tables, as the supervisors computed it (R322). -/
  masterCrc : SMap (Option Word) := []
  /-- The element update in progress of each cluster. -/
  ect : SMap (Option EctUpd) := []
  /-- Dwell frames left of an element in CAL (R165). -/
  calDwell : SMap Nat := []
  /-- Elements whose present HOLD has reached its limit (R161; the program's own memory of it, log entry 117). -/
  holdEnd : SMap Bool := []
  /-- Elements whose master record changed and whose mirror has not been updated. -/
  ectWait : List Nat := []
deriving DecidableEq, Repr

/-! ## The fabric as the controller sees it (spec/01_fabric_model.md) -/

/-- An element record (Table FM-4): VOA or MZI, and the role of Table FM-5. -/
structure ElemRec where
  voa : Bool
  role : Nat
deriving DecidableEq, Repr

/-- A cell record (Table FM-3). -/
structure CellRec where
  elemA : Nat
  elemB : Option Nat
  invA : Bool
  invB : Bool
deriving DecidableEq, Repr

/-- A port record (Table FM-6). -/
structure PortRec where
  output : Bool
  transit : Bool
  port : Nat
  link : Nat
  voa : Option Nat
  peerDev : Nat
  peerPort : Nat
deriving DecidableEq, Repr

/-- A topology table as loaded (R14-R18). -/
structure Topo where
  id : Nat
  benes : Bool
  stages : Nat
  dilation : Nat
  cellsPerStage : Nat
  /-- Cell c of stage s at s x cellsPerStage + c. -/
  cells : List CellRec
  elems : SMap (Option ElemRec)
  /-- Entry L of block b: the input link of stage b + 1 that output link L of stage b feeds. -/
  wiring : List (List Nat)
  ports : List PortRec
  image : List Byte
deriving DecidableEq, Repr

/-- A connection of a map (Table FM-8). `admin` marks a connection no tenant owns (R252). -/
structure Conn where
  inp : Nat
  out : Nat
  tenant : Nat
  cls : Nat
  noVerify : Bool
  outAtten : Nat
  tag : Nat
deriving DecidableEq, Repr

/-- A connection and its route: bit k of `bits` is the state of the cell it crosses in stage k, 1 for CROSS. -/
structure Routed where
  conn : Conn
  bits : Nat
deriving DecidableEq, Repr

/-- A connection map with the cell states and the element settings that make its set-point image (R148, R181). -/
structure FabMap where
  conns : List Routed := []
  /-- Cells in CROSS, by index in the cell section (R11); every other cell is in BAR. -/
  cells : SMap Bool := []
  /-- Window words that element commands set, word 104 + k of element n at key 8n + k (Table SL-1). -/
  words : SMap (Option Word) := []
deriving DecidableEq, Repr

/-- Topology, maps, ports. -/
structure FabSt where
  topo : Option Topo := none
  /-- The map in force. -/
  map : FabMap := {}
  /-- Owner of each input and output port; 64 is unowned (R27, R29). -/
  inOwner : SMap Nat := []
  outOwner : SMap Nat := []
deriving DecidableEq, Repr

/-! ## The commit pipeline and Line Call (spec/07_reconfiguration.md) -/

/-- A change entry (R218, R252): a removal, or a connection to add or replace. -/
structure Change where
  del : Bool
  conn : Conn
deriving DecidableEq, Repr

/-- What a request asks of a commit. -/
inductive Ask where
  | changes (l : List Change)
  | replace (l : List Conn)
  /-- Window words of elements, keyed as in `FabMap.words`. -/
  | words (l : List (Nat × Word))
  /-- A characterisation of element e begins or ends: MODE_REQ and CBANK to give it, and the connection from the CAL source to
  the CAL sink (R165, R166). -/
  | cal (e : Nat) (enter : Bool) (mode cbank : Word) (conn : Option Conn)
deriving DecidableEq, Repr

/-- Who made a request. -/
inductive ReqBy where
  | command (tag : Nat)
  | group (id : Nat)
  | calEnter
  | calLeave
deriving DecidableEq, Repr

/-- An accepted request (R172). Owner 64 is the admin. -/
structure Req where
  id : Nat
  by_ : ReqBy
  owner : Nat
  ask : Ask
  time : Option Nat := none
  /-- Words outside the windows that its command wrote before it, as (element, word, value before): they return where it fails (R248). -/
  undo : List (Nat × Nat × Word) := []
  /-- Elements whose G_NOM was not known before its command. -/
  unknown : List Nat := []
deriving DecidableEq, Repr

/-- A request of a batch with what the solver found for it, and what came of it. -/
structure Solved where
  req : Req
  answer : RouteAnswer
  status : Nat
  /-- The entry that a failed check names (Table CS-5). -/
  index : Nat := 0
  /-- Failure record of R179; of a request that was routed, the connections it preempts. -/
  failure : List Conn := []
  /-- The search ended without a route that R21 assures: it is not over. -/
  owed : Bool := false
deriving DecidableEq, Repr

/-- Stages of a commit (Table CM-2, Table CM-3). -/
inductive Stage where
  /-- Solved; waits for the previous outcome. -/
  | solved
  /-- The transit image is staged and armed. -/
  | armed
  /-- The transit strobe was taken; settling. -/
  | settling
  /-- B is staged; the light strobe is due at `at_`. -/
  | light (at_ : Nat)
  /-- B is current and A retained (a Huddle group). -/
  | applied
  /-- To be reverted. -/
  | reverting
  /-- X(B->A) is staged and armed. -/
  | revArmed
  /-- X(B->A) is current. -/
  | revSettling
deriving DecidableEq, Repr

/-- A commit from map A to map B. -/
structure Commit where
  reqs : List Solved
  group : Option Nat := none
  /-- T, in 250 ns intervals since the PTP epoch, and the lane frame j of the last transit strobe. -/
  time : Nat
  frame : Nat := 0
  stage : Stage := .solved
  mapA : FabMap
  mapB : FabMap
  /-- Output ports of the gated set (R181). -/
  gated : List Nat
  /-- Settle set, and of it the elements that settled and those that had a usable sample since the strobe (R185). -/
  settle : List Nat := []
  settled : List Nat := []
  used : List Nat := []
  /-- Engine frame of the last SETTLED among them. -/
  lastAt : Nat := 0
  /-- Of a revert: the lane frame in which X(B->A) was staged, that of its transit strobe, and the engine frame in which its
  settle set was resolved (R192). -/
  stagedAt : Nat := 0
  revAt : Nat := 0
  resolvedAt : Option Nat := none
  /-- Elements whose window words the commit changes (Table CM-5). -/
  changed : List Nat := []
  /-- Connections the requests preempt (R179). -/
  preempted : List Conn := []
  /-- Staging was complete when it was done (Table CM-5). -/
  complete : Bool := false
  /-- Engines that did not rotate at the transit strobe, their windows not rewritten since (Table CM-5). -/
  missed : List Nat := []
  /-- Of a group's commit whose light strobe fell before the revert: the outputs that were lit again, and the frame of the REVERT strobe
  (R192). -/
  relit : List Nat := []
  againAt : Nat := 0
  /-- Why it is reverted. -/
  why : Nat := 0
deriving DecidableEq, Repr

/-- The result of one connection or entry (Table CS-16); none while its Line Call window is open. -/
structure ConnRes where
  tag : Nat
  inp : Nat
  out : Nat
  lc : Option Nat
  pending : Bool := false
  exceeded : Bool := false
  ungated : Bool := false
  dark : Nat := 0
  /-- First frame of a dark interval that lasts (R253). -/
  darkFrom : Option Nat := none
deriving DecidableEq, Repr

/-- A command whose outcome is final and whose Line Call is under way. -/
structure Report where
  id : Nat
  tag : Nat
  time : Nat
  recs : List ConnRes
deriving DecidableEq, Repr

/-- A Line Call window on an output (R194-R196). -/
structure LcWin where
  out : Nat
  /-- First lane frame. -/
  start : Nat
  open_ : Bool := false
  audit : Bool := false
  /-- The result goes out as an event: an audit, or a connection left dark that got light. -/
  event : Bool := false
  /-- It is a new window for an escalation whose recorder had frozen (R196). -/
  second : Bool := false
  /-- It closed with light and no expected pilot, and the scan runs. -/
  scanning : Bool := false
  /-- Codes of the output VOA's m0 in the frames from `start` on, none where the sample is flagged (R194). -/
  samples : List (Option (BitVec 14)) := []
  /-- The output's tile was parked while it was open (R195). -/
  parked : Bool := false
deriving DecidableEq, Repr

/-- A connection left dark at a strobe (R187): its output, and the elements whose SETTLED it waits for. -/
structure DarkConn where
  out : Nat
  elems : List Nat
  since : Nat
deriving DecidableEq, Repr

/-- A barrier: it waits for every request accepted before it (R175). -/
structure Barrier where
  tag : Nat
  id : Nat
deriving DecidableEq, Repr

/-- A change of ports, rights or bindings that waits for the step between two batches (Table CS-6): its command, which of PORT_ASSIGN,
RIGHTS_SET and SOURCE_BIND it is, and its entries. -/
structure Edit where
  tag : Nat
  kind : Fin 3
  entries : List Nat
deriving DecidableEq, Repr

/-- The commit pipeline, Line Call and their parameters. -/
structure PipeSt where
  nextId : Nat := 0
  waiting : List Req := []
  batch : Option (List Req) := none
  /-- A solved commit that waits to be staged. -/
  next : Option Commit := none
  /-- The commit that is armed, settling or awaiting its outcome. -/
  cur : Option Commit := none
  reports : List Report := []
  barriers : List Barrier := []
  edits : List Edit := []
  dark : List DarkConn := []
  wins : List LcWin := []
  /-- Output ports blocked by Line Call (R198). -/
  blocked : List Nat := []
  /-- Last Line Call result of each output, for MAP_READ. -/
  results : SMap (Option ConnRes) := []
  calPath : Option (Nat × Nat) := none
  scoreAvoid : Nat := 128
  lcPresent : Word := 0x3E800000#32
  lcLightMin : Word := 0x3B83126F#32
  lcBlock : Bool := true
  lcAudit : Nat := 1000
  /-- Instant of the device's time base of the next audit. -/
  auditAt : Nat := 768000000
  /-- The TIME domain was lost while a commit was armed (Table CK-3). -/
  stepFail : Bool := false
deriving DecidableEq, Repr

/-! ## The supervisors' slow loops (spec/06_standard_loop.md R159-R167) -/

/-- What the supervisors keep of an element. -/
structure SupElem where
  /-- Subscores of Table SL-6. -/
  headroom : Nat := 255
  lock : Nat := 255
  settle : Nat := 255
  drift : Nat := 255
  /-- The score of the last window. -/
  score : Nat := 0
  /-- SNU and SNN of the last window that counts for drift. -/
  mean : Option (Word × Word) := none
  /-- Characterised since reset, or word 70 written (R167); characterised since reset (R164). -/
  known : Bool := false
  charact : Bool := false
  /-- Day of the last successful characterisation since reset. -/
  calDay : Option Nat := none
  calFail : Bool := false
  /-- PARK_WEAK: 1 in force, 2 once a Park Table commit changed the park code (R184). -/
  weak : Nat := 0
  /-- G_est exceeds twice G_NOM (R159). -/
  gainOver : Bool := false
  /-- A heater step up lowers the drive that holds the element (R164). -/
  heatUp : Bool := false
  /-- The windows that the last two heater steps disturbed, each one more than its number of 4,096 frames (R167). -/
  stepped : List Nat := []
  /-- SETTLE_T of the first settle since the last soft start. -/
  settleT : Option Nat := none
deriving DecidableEq, Repr

/-- Where a characterisation stands (Table SL-5). -/
inductive CalStage where
  | enter
  | dark
  | sweep (k : Nat)
  | phase
  /-- The fit is recorded; the ECT record is being written. -/
  | record
  | leave
deriving DecidableEq, Repr

/-- The characterisation that runs. -/
structure CalRun where
  elem : Nat
  tag : Option Nat
  stage : CalStage := .enter
  /-- MODE_REQ to restore. -/
  mode : Word
  /-- The light source's input VOA, where it is another element. -/
  source : Option Nat
  /-- The connection made for the sweep (R166). -/
  conn : Option Conn := none
  /-- The bank in force and the bank that takes the rescaled coefficients, as CBANK. -/
  bank : Word := 0#32
  dk0 : Word := 0#32
  dk1 : Word := 0#32
  /-- Largest m0 - DK0 of the sweep, and m0 - DK0 at the step nearest PARK_V. -/
  best : Word := 0#32
  parkM : Word := 0#32
  /-- Frames that count so far, and those of them that were usable. -/
  counted : Nat := 0
  usable : Nat := 0
  /-- What the fit gave. -/
  fit : Option CalFit := none
deriving DecidableEq, Repr

/-- A CAL_REQUEST: the elements still to do and the results (Table CS-10). -/
structure CalJob where
  tag : Nat
  /-- The elements as the command lists them. -/
  elems : List Nat := []
  left : List Nat
  results : List (Nat × Nat) := []
deriving DecidableEq, Repr

/-- The supervisors' slow loops. -/
structure SupSt where
  elems : SMap SupElem := []
  /-- Elements queued for characterisation, and the command that asked. -/
  queue : List (Nat × Option Nat) := []
  run : Option CalRun := none
  jobs : List CalJob := []
deriving DecidableEq, Repr

/-! ## Korotte links and Huddle (spec/08_huddle.md) -/

/-- A Korotte link, by its lead lane (R208-R212). -/
structure KLink where
  /-- Lanes of the bond; 0 while the lane leads no enabled link. -/
  lanes : Nat := 0
  /-- Consecutive good HELLOs, up to 4, and the instant of the last on the device's time base. -/
  good : Nat := 0
  lastHello : Nat := 0
  /-- The last HELLO had another domain or the device's own address. -/
  barred : Bool := false
  /-- Partition announced by the peer and the device's own in force, as KLK_CRED. -/
  peerCred : Word := 0x082C0804#32
  ownCred : Word := 0x082C0804#32
  /-- Credits left, by class, and credits to return to the peer. -/
  credits : SMap Nat := []
  owed : SMap Nat := []
  /-- Frames that wait, by class: their bytes 0 to 15 + LEN with the link fields 0. -/
  queues : SMap (List (List Byte)) := []
  /-- LSEQ of the next new frame, and the frames sent and not acknowledged, oldest first. -/
  txSeq : Nat := 0
  unacked : List (Nat × List Byte) := []
  /-- Frames of `unacked`, counted from the oldest, already sent since the last resend began. -/
  sent : Nat := 0
  /-- Resends without progress, and the instant of the last progress. -/
  tries : Nat := 0
  progress : Nat := 0
  /-- LSEQ expected, a NAK sent for it, an acknowledgement due. -/
  rxSeq : Nat := 0
  nak : Bool := false
  nakDue : Bool := false
  ackDue : Bool := false
  /-- One more than the instant at which each class ran out of credit with a frame waiting (KLK_STALL). -/
  stallAt : SMap Nat := []
deriving DecidableEq, Repr

/-- Korotte links. -/
structure KlkSt where
  links : SMap KLink := []
deriving DecidableEq, Repr

/-- What a member has said, as a group's member or initiator keeps it (R223-R228). -/
structure Heard where
  vote : Option Nat := none
  /-- DECIDE, OUTCOME (result and status) and FINAL exchanges with it. -/
  decideAcked : Bool := false
  outcome : Option (Nat × Nat) := none
  outcomeAcked : Bool := false
  finalAcked : Bool := false
  revertedAcked : Bool := false
  repairAcked : Bool := false
  /-- An ACK of FINAL with STATE FINAL_HELD, or a message with STATE CLOSED_NEW. -/
  confirmed : Bool := false
  /-- Holds A: OUTCOME NOT_APPLIED or REVERTED, or STATE CLOSED_OLD or UNKNOWN. -/
  old : Bool := false
  /-- State last heard. -/
  state : Nat := 0
deriving DecidableEq, Repr

/-- An open commit group (R216-R232). -/
structure Group_ where
  id : Nat
  /-- Own member index, and the addresses of all members. -/
  index : Nat
  members : List Nat
  /-- T in 250 ns intervals, and the group's parameters: G, HDL_LAT and HDL_RTX in us, W in ms. -/
  time : Nat
  g : Nat
  w : Nat
  lat : Nat
  rtx : Nat
  /-- State of Table HD-7. -/
  state : Nat := 1
  /-- The initiator's command and its owner. -/
  tag : Option Nat := none
  owner : Nat := 64
  /-- The initiator's entries for each member; a member's own in place 0 of its list. -/
  sets : List (List (BitVec 64)) := []
  /-- PREPARE fragments held, by index; the count of fragments, entries and the CRC of fragment 0. -/
  frags : SMap (List (BitVec 64)) := []
  fragCount : Nat := 0
  entries : Nat := 0
  crc : Word := 0#32
  voted : Option Nat := none
  /-- DECIDE held: commit or abort. -/
  decide_ : Option Bool := none
  heard : SMap Heard := []
  /-- Output ports held dark as cross-device outputs (R228). -/
  outs : List Nat := []
  /-- OUTCOME sent, FINAL sent, REPAIR sent, scheduled revert. -/
  outcome : Option (Nat × Nat) := none
  final : Bool := false
  repair : Option Nat := none
  tRev : Option Nat := none
  /-- Every PREPARE fragment has arrived and matches; what Table CM-1 then gave for T, or HUDDLE_T_BUSY (R221). -/
  ready : Bool := false
  tStatus : Nat := 0
  /-- The check at T - G was made, and left the member DECIDED (R224). -/
  checked : Bool := false
  go : Bool := false
  /-- The light strobe was taken. -/
  applied : Bool := false
  /-- The status with which the group's commit ended in the pipeline. -/
  fail : Option Nat := none
  /-- Its end was reported; a revert at T_REV is under way; a revert was forced by the admin; SPLIT was raised. -/
  ended : Bool := false
  leaving : Bool := false
  forced : Bool := false
  split : Bool := false
  /-- Status of the initiator's command where it is not that of the outcome. -/
  result : Nat := 0
  /-- First member that did not apply: index and status (R232). -/
  bad : Option (Nat × Nat) := none
  /-- Members whose confirmation, or outcome, was missing when SPLIT was raised (R231, R232). -/
  missing : List Nat := []
  /-- Network time in ns from which the resend timer of HDL_RTX lets messages be sent again (R220). -/
  resendAt : Nat := 0
deriving DecidableEq, Repr

/-- A closed group's record (R217). -/
structure Closed where
  id : Nat
  state : Nat
  owner : Nat
  /-- The device's member index, which its answers carry (Table HD-5). -/
  index : Nat := 0
deriving DecidableEq, Repr

/-- Huddle. -/
structure HdlSt where
  /-- Open groups by slot, lowest free slot first. -/
  slots : SMap (Option Group_) := []
  closed : List Closed := []
  /-- Closed groups with messages still to be answered or outputs still dark (R220, R228). -/
  tails : List Group_ := []
  serial : Nat := 0
  /-- Commands that wait for groups of their queue to close (R247): tag and the groups' numbers. -/
  barriers : List (Nat × List Nat) := []
  /-- Messages dropped as inconsistent with their group (R220). -/
  dropped : Nat := 0
deriving DecidableEq, Repr

/-! ## Security core and test port (spec/15_security.md) -/

/-- What attestation knows of the program in a bank (Table SE-4). -/
structure ProgInfo where
  hash : List Byte
  count : Nat
  signed : Bool := false
  forced : Bool := false
deriving DecidableEq, Repr

/-- Security state that no register shows. -/
structure SecSt where
  /-- The program of bank b of engine e at key 2e + b. -/
  progs : SMap (Option ProgInfo) := []
  /-- The challenge that stands (R372). -/
  challenge : Option (List Byte) := none
  /-- Instant of the device's time base of the last failed unlock. -/
  failedAt : Option Nat := none
  /-- ENF_PROG, ENF_ECT and JTAG_LOCK in force, bits 0 to 2 (R318, R370, R372). -/
  enf : BitVec 3 := 0#3
  /-- The JTAG domain's unlock latch, and whether it was set since the power-on reset. -/
  jtagOpen : Bool := false
  jtagEver : Bool := false
  /-- The patch image that the boot ROM applied; empty where none. -/
  patch : List Byte := []
deriving DecidableEq, Repr

/-! ## Ethernet, MACsec, telemetry and policers (spec/11_telemetry_traffic.md) -/

/-- An egress queue (R295-R298). -/
structure EgQueue where
  /-- Frames, the head first. -/
  frames : List NetFrame := []
  /-- Tags of the head: S, and F of the last frame that had a tag. -/
  start : Nat := 0
  finish : Nat := 0
  /-- Tokens in 1/6,144 byte, and the instant of the device's time base they hold for. -/
  tok : Int := 56623104
  tokAt : Nat := 0
deriving DecidableEq, Repr

/-- A receive secure channel: its SCI and the next packet number. -/
structure RxSc where
  sci : Nat
  /-- Its live SAs, the newest first: AN and the next packet number. -/
  sas : List (Nat × Nat) := []
deriving DecidableEq, Repr

/-- A MAC's state that no register shows. -/
structure Mac where
  /-- The instant from which it may start a frame, in units of 1/12 ps of the device's time base. -/
  free : Nat := 0
  /-- Virtual time and the largest F served, of each class (R297). -/
  vt : SMap Nat := []
  maxF : SMap Nat := []
  /-- Received frames that wait to be taken up: their priority and bytes (R285). -/
  rx : List (Nat × Nat) := []
  /-- End of the pause of each priority, and when its last XOFF was sent, in the unit of `free`. -/
  paused : SMap Nat := []
  xoffAt : SMap Nat := []
  /-- The pending list's change time, and the operational entry in force with its end, in ns (R278). -/
  changeAt : Option Nat := none
  gate : Option (Nat × Nat) := none
  /-- The installed CAK and CKN (R284). -/
  cak : Option (List Byte × List Byte) := none
  txPn : Nat := 1
  scs : List RxSc := []
deriving DecidableEq, Repr

/-- A slice of a subscription: the packet under construction (R292, R293). -/
structure TelSlice where
  seq : Nat := 0
  first : Nat := 0
  /-- Records, oldest first. -/
  recs : List (List Byte) := []
  masked : Bool := false
  step : Bool := false
  /-- Record frames lost since the last packet delivered. -/
  lost : Nat := 0
deriving DecidableEq, Repr

/-- A telemetry subscription (R289): its descriptor, its owner (64 the admin), SLICE and BATCH in force, and the frame of its first record. -/
structure Sub where
  image : List Byte
  owner : Nat
  sliceLen : Nat
  batch : Nat
  start : Nat
  /-- The newest record: its network frame, and the device's frame count then. -/
  last : Option (Nat × Nat) := none
  slices : SMap TelSlice := []
deriving DecidableEq, Repr

/-- The buckets of a policer in 1/6,144,000 byte: C, and E or P (R300). -/
structure PolBucket where
  c : Nat := 0
  e : Nat := 0
  at_ : Nat := 0
deriving DecidableEq, Repr

/-- The network side of the device. -/
structure NetSt where
  /-- Telemetry queue q of port p at key 1024p + q; internal queue i of MAC k at 2048 + 4k + i (Table of R295). -/
  queues : SMap EgQueue := []
  macs : SMap Mac := []
  subs : SMap (Option Sub) := []
  pols : SMap PolBucket := []
deriving DecidableEq, Repr

/-- The state of the device and of its command queue. -/
structure State where
  /-- Commands that wait, the first to be taken first (the model's queue). -/
  pending : List Instr
  /-- Every register of BAR0 by address, and every hidden copy, where it differs from `regReset`. -/
  regs : SMap Word
  /-- The engine memories by BAR2 address: LSM physical banks, program banks, cluster tables (Table MP-2). -/
  mem : List Host.Cell
  /-- Words of those memories that read uncorrectable (R115, R116, R311). -/
  memBad : List Nat
  /-- The HBM by byte address (Table MM-1). -/
  hbm : List Host.Cell
  /-- Uncorrectable HBM lines, by line address (R307). -/
  hbmBad : List Nat
  /-- The MRAM by byte offset (Table MM-2). -/
  mram : List Host.Cell
  /-- Uncorrectable MRAM words, by word address (R312). -/
  mramBad : List Nat
  /-- Clocks and resets. -/
  clk : ClkSt
  /-- The Umpire. -/
  ump : UmpSt
  /-- Temperature sensors and the trip latch. -/
  thm : ThmSt
  /-- The NVM engine, the Option Area and the Park Table. -/
  nvm : NvmSt
  /-- Queues, tags, events and bindings of the host port. -/
  host : HostSt
  /-- Lanes, fabric control links, converters, tones and bias outputs. -/
  lane : LaneSt
  /-- The loop engines. -/
  eng : EngSt
  /-- Topology, maps and ports. -/
  fab : FabSt
  /-- The commit pipeline and Line Call. -/
  pipe : PipeSt
  /-- The supervisors' slow loops. -/
  sup : SupSt
  /-- Korotte links. -/
  klk : KlkSt
  /-- Huddle groups. -/
  hdl : HdlSt
  /-- Network time. -/
  tim : TimSt
  /-- Ethernet, MACsec, telemetry and policers. -/
  net : NetSt
  /-- The security core and the test port. -/
  sec : SecSt
  /-- The Replay Recorder. -/
  rep : RepSt
  /-- The trace buffer. -/
  dbg : DbgSt
  /-- How many free values were taken: the model's own, no part of the device (log entry 1). -/
  free : Nat
  /-- What left the device since power-on, oldest first: the model's own record of its outputs (log entry 2). -/
  outs : List Out
deriving DecidableEq, Repr

/-- The machine right after the release of a power-on reset (spec/13_clocks_reset.md R335-R338): every register at its reset value,
nothing listed in a memory, no clock good yet, and no command waiting. -/
def State.reset : State where
  pending := []
  regs := []
  mem := []
  memBad := []
  hbm := []
  hbmBad := []
  mram := []
  mramBad := []
  clk := {}
  ump := {}
  thm := {}
  nvm := {}
  host := {}
  lane := {}
  eng := {}
  fab := {}
  pipe := {}
  sup := {}
  klk := {}
  hdl := {}
  tim := {}
  net := {}
  sec := {}
  rep := {}
  dbg := {}
  free := 0
  outs := []

end Sys2Proof.Machine
end

