-- ==== Sys2Proof/Machine/Act.lean ====
section
/-!
DEFINITION. What a command does to the state is an `Act`: a sequence of updates, each of one part of the state, and of looks
at the state as it then stands. Every store keeps its canonical form because an update writes it through `sset` and `sdrop`.
-/

namespace Sys2Proof.Machine

/-- One update of one part of the state. -/
inductive Upd where
  /-- The register (or hidden copy) at key `a` takes `v`. -/
  | reg (a : Nat) (v : Word)
  /-- The registers of these key ranges take their reset values. -/
  | regsDrop (rs : List (Nat × Nat))
  /-- Bytes of the engine memories, at BAR2 addresses of the physical banks. -/
  | mem (a : Nat) (bs : List Byte)
  | memDrop (rs : List (Nat × Nat))
  | memBad (l : List Nat)
  /-- Bytes of the HBM. -/
  | hbm (a : Nat) (bs : List Byte)
  | hbmDrop (rs : List (Nat × Nat))
  | hbmBad (l : List Nat)
  /-- Bytes of the MRAM. -/
  | mram (a : Nat) (bs : List Byte)
  | mramBad (l : List Nat)
  /-- The next free value is taken. -/
  | free
  /-- Something leaves the device. -/
  | out (o : Out)
  | clk (x : ClkSt)
  | ump (x : UmpSt)
  | thm (x : ThmSt)
  | nvm (x : NvmSt)
  | host (x : HostSt)
  | lane (x : LaneSt)
  | eng (x : EngSt)
  | fab (x : FabSt)
  | pipe (x : PipeSt)
  | sup (x : SupSt)
  | klk (x : KlkSt)
  | hdl (x : HdlSt)
  | tim (x : TimSt)
  | net (x : NetSt)
  | sec (x : SecSt)
  | rep (x : RepSt)
  | dbg (x : DbgSt)

/-- The state after an update. -/
def Upd.apply (u : Upd) (s : State) : State :=
  match u with
  | .reg a v => { s with regs := sset regReset s.regs a v }
  | .regsDrop rs => { s with regs := sdrop rs s.regs }
  | .mem a bs => { s with mem := writeBytes memBlank s.mem a bs }
  | .memDrop rs => { s with mem := sdrop rs s.mem }
  | .memBad l => { s with memBad := l }
  | .hbm a bs => { s with hbm := writeBytes blank s.hbm a bs }
  | .hbmDrop rs => { s with hbm := sdrop rs s.hbm }
  | .hbmBad l => { s with hbmBad := l }
  | .mram a bs => { s with mram := writeBytes mramBlank s.mram a bs }
  | .mramBad l => { s with mramBad := l }
  | .free => { s with free := s.free + 1 }
  | .out o => { s with outs := s.outs ++ [o] }
  | .clk x => { s with clk := x }
  | .ump x => { s with ump := x }
  | .thm x => { s with thm := x }
  | .nvm x => { s with nvm := x }
  | .host x => { s with host := x }
  | .lane x => { s with lane := x }
  | .eng x => { s with eng := x }
  | .fab x => { s with fab := x }
  | .pipe x => { s with pipe := x }
  | .sup x => { s with sup := x }
  | .klk x => { s with klk := x }
  | .hdl x => { s with hdl := x }
  | .tim x => { s with tim := x }
  | .net x => { s with net := x }
  | .sec x => { s with sec := x }
  | .rep x => { s with rep := x }
  | .dbg x => { s with dbg := x }

/-- A sequence of updates and looks. -/
inductive Act where
  | done
  | upd (u : Upd) (k : Act)
  | look (k : State → Act)

/-- The state after an act. -/
def Act.run : Act → State → State
  | .done, s => s
  | .upd u k, s => k.run (u.apply s)
  | .look k, s => (k s).run s

/-- One act, then another. -/
def Act.seq : Act → Act → Act
  | .done, b => b
  | .upd u k, b => .upd u (k.seq b)
  | .look k, b => .look fun s => (k s).seq b

/-- The acts of a list, in order. -/
def Act.all : List Act → Act
  | [] => .done
  | a :: r => a.seq (Act.all r)

/-- An act for each element of a list, in order. -/
def Act.each {α : Type} : List α → (α → Act) → Act
  | [], _ => .done
  | x :: r, f => (f x).seq (Act.each r f)

/-- An act under a condition. -/
def Act.when (c : Bool) (a : Act) : Act := if c then a else .done

/-- An act under a condition on the state as it stands. -/
def Act.whenS (c : State → Bool) (a : Act) : Act := .look fun s => Act.when (c s) a

/-- An act for each index below `n`, rising. -/
def Act.upto (n : Nat) (f : Nat → Act) : Act := Act.each (List.range n) f

/-- A command's outcome when it runs: the next state. -/
def Act.next (a : Act) (s : State) : Host.Outcome State Fault Refusal := .next (a.run s)

/-- The register at key `a` takes `v`. -/
def wr (a : Nat) (v : Word) : Act := .upd (.reg a v) .done
/-- The registers of these ranges take their reset values. -/
def dropRegs (rs : List (Nat × Nat)) : Act := .upd (.regsDrop rs) .done
/-- Something leaves the device. -/
def emit (o : Out) : Act := .upd (.out o) .done
/-- Change the part `clk` of the state. -/
def updClk (f : ClkSt → ClkSt) : Act := .look fun s => .upd (.clk (f s.clk)) .done
/-- Change the part `ump` of the state. -/
def updUmp (f : UmpSt → UmpSt) : Act := .look fun s => .upd (.ump (f s.ump)) .done
/-- Change the part `thm` of the state. -/
def updThm (f : ThmSt → ThmSt) : Act := .look fun s => .upd (.thm (f s.thm)) .done
/-- Change the part `nvm` of the state. -/
def updNvm (f : NvmSt → NvmSt) : Act := .look fun s => .upd (.nvm (f s.nvm)) .done
/-- Change the part `host` of the state. -/
def updHost (f : HostSt → HostSt) : Act := .look fun s => .upd (.host (f s.host)) .done
/-- Change the part `lane` of the state. -/
def updLane (f : LaneSt → LaneSt) : Act := .look fun s => .upd (.lane (f s.lane)) .done
/-- Change the part `eng` of the state. -/
def updEng (f : EngSt → EngSt) : Act := .look fun s => .upd (.eng (f s.eng)) .done
/-- Change the part `fab` of the state. -/
def updFab (f : FabSt → FabSt) : Act := .look fun s => .upd (.fab (f s.fab)) .done
/-- Change the part `pipe` of the state. -/
def updPipe (f : PipeSt → PipeSt) : Act := .look fun s => .upd (.pipe (f s.pipe)) .done
/-- Change the part `sup` of the state. -/
def updSup (f : SupSt → SupSt) : Act := .look fun s => .upd (.sup (f s.sup)) .done
/-- Change the part `klk` of the state. -/
def updKlk (f : KlkSt → KlkSt) : Act := .look fun s => .upd (.klk (f s.klk)) .done
/-- Change the part `hdl` of the state. -/
def updHdl (f : HdlSt → HdlSt) : Act := .look fun s => .upd (.hdl (f s.hdl)) .done
/-- Change the part `tim` of the state. -/
def updTim (f : TimSt → TimSt) : Act := .look fun s => .upd (.tim (f s.tim)) .done
/-- Change the part `net` of the state. -/
def updNet (f : NetSt → NetSt) : Act := .look fun s => .upd (.net (f s.net)) .done
/-- Change the part `sec` of the state. -/
def updSec (f : SecSt → SecSt) : Act := .look fun s => .upd (.sec (f s.sec)) .done
/-- Change the part `rep` of the state. -/
def updRep (f : RepSt → RepSt) : Act := .look fun s => .upd (.rep (f s.rep)) .done
/-- Change the part `dbg` of the state. -/
def updDbg (f : DbgSt → DbgSt) : Act := .look fun s => .upd (.dbg (f s.dbg)) .done

end Sys2Proof.Machine
end

