-- ==== Sys2Proof/Machine/Ops.lean ====
section
/-!
DEFINITION. The named operations every command is built from: registers and their fields, counters, time, events to the
host, the Replay Recorder's trigger and the queue of the fault log.
-/

namespace Sys2Proof.Machine

/-! ## Registers -/

/-- The register (or hidden copy) at key `a`. -/
def rd (s : State) (a : Nat) : Word := sget regReset s.regs a

/-- Bits `hi` to `lo` of a word, as a number. -/
def bits (v : Word) (hi lo : Nat) : Nat := (v.extractLsb' lo (hi + 1 - lo)).toNat

/-- Bits `hi` to `lo` of the register at `a`. -/
def fld (s : State) (a hi lo : Nat) : Nat := bits (rd s a) hi lo

/-- Bit `i` of the register at `a`. -/
def bit (s : State) (a i : Nat) : Bool := (rd s a).getLsbD i

/-- The word with `x` in bits `hi` to `lo`. -/
def putBits (v : Word) (hi lo x : Nat) : Word :=
  let m : Word := (BitVec.ofNat 32 (2 ^ (hi + 1 - lo) - 1)) <<< lo
  (v &&& ~~~m) ||| ((BitVec.ofNat 32 x <<< lo) &&& m)

/-- A signed field of `w` bits. -/
def signed (w x : Nat) : Int :=
  let y := x % 2 ^ w
  if 2 ^ (w - 1) ≤ y then Int.ofNat y - Int.ofNat (2 ^ w) else Int.ofNat y

/-- The two's complement form of an integer in `w` bits. -/
def unsigned (w : Nat) (x : Int) : Nat := (x % Int.ofNat (2 ^ w)).toNat

/-- Put `x` in bits `hi` to `lo` of the register at `a`. -/
def setFld (a hi lo x : Nat) : Act := .look fun s => wr a (putBits (rd s a) hi lo x)

/-- Set bit `i` of the register at `a`. -/
def setBit (a i : Nat) : Act := .look fun s => wr a (rd s a ||| BitVec.twoPow 32 i)

/-- Clear bit `i` of the register at `a`. -/
def clrBit (a i : Nat) : Act := .look fun s => wr a (rd s a &&& ~~~(BitVec.twoPow 32 i))

/-- Give bit `i` of the register at `a` the value `b`. -/
def putBit (a i : Nat) (b : Bool) : Act := if b then setBit a i else clrBit a i

/-- Add `n` to the counter in bits `hi` to `lo` of the register at `a`; it saturates (R117, R324). -/
def bump (a hi lo : Nat) (n : Nat := 1) : Act :=
  .look fun s => setFld a hi lo (min (fld s a hi lo + n) (2 ^ (hi + 1 - lo) - 1))

/-- The whole register at `a` takes the value `x`. -/
def wrNat (a x : Nat) : Act := wr a (BitVec.ofNat 32 x)

/-- A 64-bit value in a LO and a HI register. -/
def wrPair (lo hi x : Nat) : Act := .all [wrNat lo (x % 2 ^ 32), wrNat hi (x / 2 ^ 32 % 2 ^ 32)]

/-- The value of a LO and a HI register. -/
def rdPair (s : State) (lo hi : Nat) : Nat := (rd s lo).toNat + 2 ^ 32 * (rd s hi).toNat

/-- Each of the registers takes its reset value. -/
def clearRegs (l : List Nat) : Act := dropRegs (l.map fun a => (a, a))

/-! ## Domains -/

/-- Domain `d` is held in reset (CLK_DSTAT.IN_RESET, Table CK-9). -/
def domInReset (s : State) (d : Nat) : Bool := bit s (A.clkDstat d) 30

/-- Domain `d` has clock-good (R328). -/
def domGood (s : State) (d : Nat) : Bool := bit s (A.clkDstat d) 31

/-- Domain `d` answers what reaches it: clock-good and out of reset; a gated domain wakes for an access or a crossing (R334). -/
def domUp (s : State) (d : Nat) : Bool := domGood s d && !domInReset s d

/-- The FIFOs into and out of domain `d` carry no data until their handshake (R333). -/
def fifoHeld (s : State) (d : Nat) : Bool := s.clk.resync.contains d

/-- The CLK_GATE register of a domain; its bit there is d mod 32. -/
def gateReg (d : Nat) : Nat := if d < 32 then A.clkGate0 else A.clkGate1

/-- Signature or attestation work waits or runs: a SECURITY command, or a load that carries a signature. -/
def secQueued (s : State) : Bool := s.host.cmds.any fun c =>
  let op := c.entry.opcode.toNat
  decide (0x0901 ≤ op ∧ op ≤ 0x0906) || (decide (op = 0x0301 ∨ op = 0x030A) && decide (c.entry.p3.toNat ≠ 0))

/-- The gateable condition of a domain (Table CK-2). -/
def gateOk (s : State) (d : Nat) : Bool :=
  if d < 12 then (List.range 8).all fun i => !bit s (A.engCtrl (8 * d + i)) 0
  else if d = 14 then !secQueued s
  else if d < 27 then !bit s (A.tileCtrl (d - 15)) 1
  else if d < 39 then !bit s (A.tileCtrl (d - 27)) 1 && !bit s (A.emlCtrl (16 * (d - 27))) 20
  else if d < 48 then !bit s (A.ethCtrl ((d - 44) / 2)) 0
  else if d < 56 then !bit s (A.klkLctrl (d - 48)) 0
  else (List.range 8).all fun n => !bit s (A.klkLctrl n) 0

/-- The domains at the other ends of domain d's sample and drive FIFOs: cluster t, EDL group t and EML group t of a tile (Table CV-3). Its other
FIFOs end in domains that no reset takes alone. -/
def fifoPeers (d : Nat) : List Nat :=
  if d < 12 then [15 + d, 27 + d] else if 15 ≤ d ∧ d < 27 then [d - 15] else if 27 ≤ d ∧ d < 39 then [d - 27] else []

/-- A crossing into or out of domain d is in progress: a FIFO of its own or of a peer waits for its handshake. Every other crossing ends within
the command that makes it. -/
def crossing (s : State) (d : Nat) : Bool := (d :: fifoPeers d).any (fifoHeld s)

/-- Domain `d`'s clock is stopped (CLK_DSTAT.GATED): its CLK_GATE bit stands while it is idle, no crossing is in progress and no wake (R334). What
ends one of these starts the clock and what brings all of them back stops it; an access wakes the domain for its own length, within its command. -/
def clkGated (s : State) (d : Nat) : Bool :=
  bit s (gateReg d) (d % 32) && gateOk s d && !crossing s d && !bit s (A.clkDstat d) 28

/-- Domain `d` runs: clock-good, out of reset, not gated. -/
def domRuns (s : State) (d : Nat) : Bool := domGood s d && !domInReset s d && !clkGated s d

/-! ## Time -/

/-- Units of network time in one nanosecond. -/
abbrev unitsPerNs : Nat := 96 * 2 ^ 41

/-- Network time now (R258), in units of 1/(96 * 2^41) ns: a tick lasts 1,000/768 = 125/96 ns, times 1 + RATE_ADJ * 2^-41. -/
def netNow (s : State) : NetTime :=
  let d := (s.tim.tick + 2 ^ 48 - s.tim.anchor) % 2 ^ 48
  (Int.ofNat s.tim.nA + Int.ofNat (d * 125) * (2 ^ 41 + (rd s A.rateAdj).toInt)).toNat

/-- Network time now in whole nanoseconds, in 64 bits (R257). -/
def nowNs (s : State) : Nat := netNow s / unitsPerNs % 2 ^ 64

/-- The number of the 250 ns interval that network time is in (R257). -/
def nowFrame (s : State) : Nat := nowNs s / 250

/-- Ticks from now until an instant of network time in ns: it is converted to a tick through the anchor in force, and the difference to
TICK is read as a signed 48-bit value (R259). -/
def ticksTo (s : State) (ns : Int) : Int :=
  let perTick : Int := 125 * (2 ^ 41 + (rd s A.rateAdj).toInt)
  let k := Int.ofNat s.tim.anchor - (Int.ofNat s.tim.nA - ns * Int.ofNat unitsPerNs) / perTick
  signed 48 ((k - Int.ofNat s.tim.tick) % 2 ^ 48).toNat

/-- Ticks until an instant of 250 ns intervals less a lead in ns. -/
def dueIn (s : State) (t : Nat) (lead : Nat) : Int := ticksTo s (250 * Int.ofNat t - Int.ofNat lead)

/-- An instant of network time in ns is reached (R259). -/
def reached (s : State) (ns : Nat) : Bool := decide (ticksTo s (Int.ofNat ns) ≤ 0)
/-- What a step that waits for the next frame boundary moves network time by, in ns: until then launch times, armed triggers and gate schedules
follow the time before it (R269). -/
def heldStep (s : State) : Int := (s.tim.stepPend.getD 0) / 65536000
/-- Network time in ns as launch times and gates follow it. -/
def schedNow (s : State) : Nat := (Int.ofNat (nowNs s) - heldStep s).toNat
/-- An instant in ns is reached by that time. -/
def schedReached (s : State) (ns : Nat) : Bool := decide (ticksTo s (Int.ofNat ns + heldStep s) ≤ 0)
/-- An instant of 250 ns intervals less a lead in ns is reached. -/
def dueBy (s : State) (t lead : Nat) : Bool := decide (dueIn s t lead ≤ 0)

/-- Ticks of the device's own time base in one microsecond. -/
abbrev ticksPerUs : Nat := 768

/-- The network frame number of the present lane frame: the device's count and the offset the supervisors keep (R257). -/
def netFrame (s : State) : Nat := (Int.ofNat s.tim.frames + s.tim.frameOfs).toNat

/-- Microseconds of the device's own time since an instant of its time base. -/
def usSince (s : State) (t : Nat) : Nat := (s.clk.mono - t) / ticksPerUs

/-- The device is synchronised (PTP_STAT.SYNC, R267). -/
def timeSync (s : State) : Bool := bit s A.ptpStat 27

/-! ## Free values -/

/-- Take a fresh value the spec leaves open (log entry 1). -/
def withFree (f : Word → Act) : Act := .look fun s => .upd .free (f (Config.freeWord s.free))

/-! ## Memories -/

def writeMem (a : Nat) (bs : List Byte) : Act := .upd (.mem a bs) .done
def writeHbm (a : Nat) (bs : List Byte) : Act := .upd (.hbm a bs) .done
def writeMram (a : Nat) (bs : List Byte) : Act := .upd (.mram a bs) .done
/-- Store a 32-bit word in an engine memory, little-endian (R117). -/
def writeMemWord (a : Nat) (w : Word) : Act := writeMem a (natLe 4 w.toNat)

/-! ## Events to the host -/

/-- The PCIe link is up (PCI_LSTAT.LINK_UP, Table CS-19). -/
def pcieUp (s : State) : Bool := bit s A.pciLstat 8

/-- Raise an MSI-X vector: its table entry's mask bit holds it pending (R238, R374). -/
def raiseMsix (vec : Nat) : Act := .look fun s =>
  if bit s (A.msixTable (4 * vec + 3)) 0 then setBit (A.msixPba (vec / 32)) (vec % 32)
  else Act.when (pcieUp s) (emit (.msix vec))

/-- The 32 bytes of an event record (Table CS-7). -/
def EvRec.bytes (e : EvRec) (dropped : Nat) : List Byte :=
  natLe 2 e.code ++ natLe 1 (min dropped 255) ++ natLe 1 e.source ++ natLe 4 e.object ++ natLe 8 e.time ++
  natLe 2 e.connTag ++ natLe 2 e.tenant ++ natLe 4 0 ++ natLe 8 e.detail

/-- HBM address of the event log, and how many records it rings through (Table MM-1). -/
abbrev eventLogBase : Nat := 0x514000000
abbrev eventLogLen : Nat := 8388608

/-- Append a record to the event log, while the HBM works (R250, R308). -/
def logEvent (e : EvRec) : Act := .look fun s =>
  Act.when (bit s A.hbmStat 31) (.all [
    writeHbm (eventLogBase + 32 * (s.host.logNext % eventLogLen)) (e.bytes 0),
    updHost fun h => { h with logNext := h.logNext + 1 }])

/-- Put a record in the event queue of queue `q`: 256 records, the rest are dropped and counted (R250). -/
def pushEventQ (q : Nat) (e : EvRec) : Act := updHost fun h =>
  let l := sget (fun _ => []) h.evq q
  if l.length < 256 then { h with evq := sset (fun _ => []) h.evq q (l ++ [e]) }
  else { h with evDrop := sset (fun _ => 0) h.evDrop q (sget (fun _ => 0) h.evDrop q + 1) }

/-- An event of the device: the admin queue always receives it, a tenant's queue as well where it is the tenant's own
(R250). -/
def pushEvent (e : EvRec) : Act := .all [
  pushEventQ 0 e,
  Act.when (e.tenant < 64) (pushEventQ (e.tenant + 1) e),
  logEvent e]

/-! ## Replay Recorder trigger (R303) -/

/-- REP_STAT bits. -/
abbrev repFrozen : Nat := 31
abbrev repKept : Nat := 30
abbrev repPosting : Nat := 29

/-- Trigger the recorder: `cause` is REP_CAUSE's code; the safe state and THERMTRIP freeze it at once, the others post
POST_FRAMES more frames. A trigger while it posts or is frozen is counted and ignored, but a freeze ends a posting. -/
def replayTrigger (cause source : Nat) : Act := .look fun s =>
  let atOnce := decide (3 ≤ cause)
  if bit s A.repStat repFrozen then updRep fun r => { r with ignored := r.ignored + 1 }
  else if bit s A.repStat repPosting then
    if atOnce then .all [clrBit A.repStat repPosting, setBit A.repStat repFrozen, setBit A.tshEvt 1, updRep fun r => { r with left := 0 }]
    else updRep fun r => { r with ignored := r.ignored + 1 }
  else .all [
    wrPair A.repTrigLo A.repTrigHi (netFrame s),
    wrNat A.repCause (source * 2 ^ 16 + cause),
    if atOnce || decide (fld s A.repCtrl 31 16 = 0) then .all [setBit A.repStat repFrozen, setBit A.tshEvt 1]
    else .all [setBit A.repStat repPosting, updRep fun r => { r with left := fld s A.repCtrl 31 16 }]]

/-! ## Fault log queue (R316, R350) -/

/-- The hottest on-die reading, in THM_TEMP format (Table FT-4). -/
def hottestDie (s : State) : Nat :=
  let rs := (List.range 12).map fun k => fld s (A.thmTemp (24 + k)) 15 0
  rs.foldl (fun m r => if r = 0x8000 then m else if m = 0x8000 ∨ signed 16 m < signed 16 r then r else m) 0x8000

/-- Queue a fault log entry. During the write inhibit 64 entries wait; those that find no place are counted and lost. -/
def queueLog (e : FlogEntry) : Act := .look fun s =>
  if bit s A.nvmStat 28 && decide (64 ≤ s.nvm.flog.length) then bump A.nvmFlog 31 16
  else updNvm fun n => { n with flog := n.flog ++ [e] }

end Sys2Proof.Machine
end

