-- ==== Sys2Proof/Machine/Parts.lean ====
section
/-!
DEFINITION. Reading and changing one entry of a table of the state: a tile's link, a lane, an engine, a register of an engine.
-/

namespace Sys2Proof.Machine

/-- Change the entry at `k`. -/
def smod {α : Type} [DecidableEq α] (d : Nat → α) (m : SMap α) (k : Nat) (f : α → α) : SMap α :=
  sset d m k (f (sget d m k))

/-! ## Lanes -/

def tileLink (s : State) (t : Nat) : TileLink := sget (fun _ => {}) s.lane.tiles t
def updTile (t : Nat) (f : TileLink → TileLink) : Act := updLane fun x => { x with tiles := smod (fun _ => {}) x.tiles t f }
def laneOf (s : State) (n : Nat) : Lane := sget (fun _ => {}) s.lane.lanes n
def updLaneN (n : Nat) (f : Lane → Lane) : Act := updLane fun x => { x with lanes := smod (fun _ => {}) x.lanes n f }
def groupOf (s : State) (t : Nat) : Group := sget (fun _ => {}) s.lane.groups t
def updGroup (t : Nat) (f : Group → Group) : Act := updLane fun x => { x with groups := smod (fun _ => {}) x.groups t f }
def sliceOf (s : State) (n j : Nat) : Slice := sget (fun _ => {}) s.lane.slices (4 * n + j)
def updSlice (n j : Nat) (f : Slice → Slice) : Act :=
  updLane fun x => { x with slices := smod (fun _ => {}) x.slices (4 * n + j) f }
def frzOf (s : State) (n k : Nat) : Frz := sget (fun _ => {}) s.lane.frz (112 * n + k)
def setFrz (n k : Nat) (z : Frz) : Act := updLane fun x => { x with frz := sset (fun _ => {}) x.frz (112 * n + k) z }
def toneOf (s : State) (n k : Nat) : ToneCtx := sget (fun _ => {}) s.lane.tones (56 * n + k)
def setTone (n k : Nat) (c : ToneCtx) : Act := updLane fun x => { x with tones := sset (fun _ => {}) x.tones (56 * n + k) c }
def bcoOf (s : State) (b : Nat) : Bco := sget (fun _ => {}) s.lane.bco b
def updBco (b : Nat) (f : Bco → Bco) : Act := updLane fun x => { x with bco := smod (fun _ => {}) x.bco b f }
def lastCode (s : State) (n k : Nat) : BitVec 14 := sget (fun _ => 0#14) s.lane.lastCode (112 * n + k)
def setLastCode (n k : Nat) (c : BitVec 14) : Act :=
  updLane fun x => { x with lastCode := sset (fun _ => 0#14) x.lastCode (112 * n + k) c }

/-! ## The units that own an element (Table FM-1) -/

abbrev lanePairOf (e : Nat) : Nat := e / 56
abbrev slotOf (e : Nat) : Nat := e % 56
abbrev tileOfElem (e : Nat) : Nat := e / 896
abbrev engineOf (e : Nat) : Nat := e / 112
abbrev loopOf (e : Nat) : Nat := e % 112
/-- Tile-local index: local lane x 56 + slot (R48). -/
abbrev localOf (e : Nat) : Nat := e % 896
/-- Elements of the device (Table SC-3). -/
abbrev numElems : Nat := 10752

/-! ## Engines -/

def engOf (s : State) (e : Nat) : Eng := sget (fun _ => {}) s.eng.engs e
def updEngN (e : Nat) (f : Eng → Eng) : Act := updEng fun x => { x with engs := smod (fun _ => {}) x.engs e f }
def vreg (s : State) (e r l : Nat) : Word := sget (fun _ => 0#32) s.eng.vregs ((32 * e + r) * 16 + l)
def setVreg (e r l : Nat) (v : Word) : Act :=
  updEng fun x => { x with vregs := sset (fun _ => 0#32) x.vregs ((32 * e + r) * 16 + l) v }
def sreg (s : State) (e r : Nat) : Word := sget (fun _ => 0#32) s.eng.sregs (32 * e + r)
def setSreg (e r : Nat) (v : Word) : Act := updEng fun x => { x with sregs := sset (fun _ => 0#32) x.sregs (32 * e + r) v }
def preg (s : State) (e p : Nat) : BitVec 16 := sget (fun _ => 0#16) s.eng.pregs (8 * e + p)
def setPreg (e p : Nat) (v : BitVec 16) : Act :=
  updEng fun x => { x with pregs := sset (fun _ => 0#16) x.pregs (8 * e + p) v }
/-- Monitor point `m` of element `n` as the engines read it now (R99). -/
def sampleOf (s : State) (n m : Nat) : Sample := sget (fun _ => {}) s.eng.smpRead (2 * n + m)
def setSample (n m : Nat) (v : Sample) : Act := updEng fun x => { x with smpFill := sset (fun _ => {}) x.smpFill (2 * n + m) v }
def driveOf (s : State) (n : Nat) : Drive := sget (fun _ => .park) s.eng.drvEmit n
def setDrive (n : Nat) (v : Drive) : Act := updEng fun x => { x with drvFill := sset (fun _ => .park) x.drvFill n v }

/-! ## Loop State Memory (R105, R106, Table LE-4) -/

/-- The rotation of an engine's set-point windows. -/
def rotOf (s : State) (e : Nat) : Nat := fld s (A.engStat e) 23 22

/-- The physical word that logical word `w` maps to under rotation `r`: window x maps to bank (x + r) mod 3 (R106). -/
def physWord (r w : Nat) : Nat := if w < 104 then w else 104 + 8 * (((w - 104) / 8 + r) % 3) + (w - 104) % 8

/-- BAR2 address of physical word `w` of loop `i` of engine `e` (Table LE-4). -/
def lsmAddr (e i w : Nat) : Nat := e * 0x10000 + 4 * (16 * (128 * (i / 16) + w) + i % 16)

/-- LSM word `w` of loop `i` of engine `e`, through the present rotation. -/
def lsmWord (s : State) (e i w : Nat) : Word := readWord s.mem (lsmAddr e i (physWord (rotOf s e) w))

/-- Write LSM word `w` of loop `i`; a bad word becomes good when it is rewritten (R115). -/
def setLsmWord (e i w : Nat) (v : Word) : Act := .look fun s =>
  let a := lsmAddr e i (physWord (rotOf s e) w)
  .all [writeMemWord a v, Act.when (s.memBad.contains a) (.upd (.memBad (s.memBad.filter (· != a))) .done)]

/-- Word `w` of element `n`. -/
def elemWord (s : State) (n w : Nat) : Word := lsmWord s (engineOf n) (loopOf n) w
def setElemWord (n w : Nat) (v : Word) : Act := setLsmWord (engineOf n) (loopOf n) w v

/-! ## The Park Table in force (Table MM-5) -/

/-- PARK_RANGE of a lane: true is 1.0 V. -/
def parkRange (s : State) (n : Nat) : Bool := decide (leAt s.nvm.park (64 + 128 * n) 1 % 2 = 1)
/-- Park code of a lane's slot, on the 1.0 V scale (R66). -/
def parkCode (s : State) (n k : Nat) : BitVec 16 := BitVec.ofNat 16 (leAt s.nvm.park (64 + 128 * n + 8 + 2 * k) 2)
/-- Park trim of an element. -/
def parkTrim (s : State) (e : Nat) : Nat := leAt s.nvm.park (24640 + 2 * e) 2 % 4096
/-- BCO word of a channel: [16] park range, [15:0] park code. -/
def bcoParkWord (img : List Byte) (b : Nat) : Nat := leAt img (46144 + 4 * b) 4

/-! ## The topology table in force -/

/-- The record of an element, where the topology table lists it (R16). -/
def elemRec (s : State) (n : Nat) : Option ElemRec := s.fab.topo.bind fun p => sget (fun _ => none) p.elems n
/-- The element is assigned (R16). -/
def elemAssigned (s : State) (n : Nat) : Bool := (elemRec s n).isSome
/-- The element is a VOA. -/
def elemVoa (s : State) (n : Nat) : Bool := match elemRec s n with
  | some r => r.voa
  | none => false

end Sys2Proof.Machine
end

