-- ==== Sys2Proof/Machine/Flags.lean ====
section
/-!
DEFINITION. The Umpire's sources (spec/14_faults_thermal.md Table FT-1): class, group, tile, domains, level and forced
reaction bits of each, and the places of the reaction bits.
-/

namespace Sys2Proof.Machine

/-- Number of sources (R341). -/
abbrev numSources : Nat := 404

/-- Reaction bits (Table FT-2). -/
abbrev reINT : Nat := 0
abbrev reNMI : Nat := 1
abbrev reFLT : Nat := 2
abbrev reLOG : Nat := 3
abbrev reREC : Nat := 4
abbrev reTPK : Nat := 5
abbrev reDPK : Nat := 6
abbrev reBLK : Nat := 7
abbrev reCHP : Nat := 8
abbrev reSAFE : Nat := 9

/-- Class of a source: 0 counted, 1 corrected, 2 uncorrected-contained, 3 fatal (Tables FT-1, FT-4). -/
def sourceClass (n : Nat) : Nat :=
  if 281 ≤ n ∧ n ≤ 328 then (if (n - 281) % 4 = 0 then 1 else if (n - 281) % 4 = 3 then 3 else 2)
  else if n = 329 ∨ n = 336 ∨ n = 343 ∨ n = 345 then 1
  else if n = 330 ∨ n = 331 ∨ n = 337 ∨ n = 344 ∨ n = 347 then 2
  else if n = 332 ∨ n = 338 ∨ n = 339 ∨ n = 346 ∨ n = 348 then 3
  else 0

/-- First source of each group, and the number after the last. -/
def groupStarts : List Nat :=
  [0, 13, 15, 47, 63, 87, 183, 207, 231, 255, 257, 281, 329, 336, 343, 345, 349, 356, 370, 380, 386, 393, 399, 402, 404]

/-- Group of a source (Table FT-1). -/
def sourceGroup (n : Nat) : Nat := (groupStarts.filter (· ≤ n)).length - 1

/-- Tile of a source, where it has one: groups 5-8, 10 and 11 (Table FT-2). -/
def sourceTile (n : Nat) : Option Nat :=
  if 87 ≤ n ∧ n ≤ 182 then some ((n - 87) / 8)
  else if 183 ≤ n ∧ n ≤ 206 then some ((n - 183) / 2)
  else if 207 ≤ n ∧ n ≤ 230 then some ((n - 207) / 2)
  else if 231 ≤ n ∧ n ≤ 254 then some ((n - 231) / 2)
  else if 257 ≤ n ∧ n ≤ 280 then some ((n - 257) / 2)
  else if 281 ≤ n ∧ n ≤ 328 then some ((n - 281) / 4)
  else none

/-- Domains of a source, for a block reset (Table FT-2). -/
def sourceDomains (n : Nat) : List Nat :=
  if 183 ≤ n ∧ n ≤ 206 then [15 + (n - 183) / 2]
  else if 207 ≤ n ∧ n ≤ 230 then [27 + (n - 207) / 2]
  else if 257 ≤ n ∧ n ≤ 280 then [(n - 257) / 2]
  else if 281 ≤ n ∧ n ≤ 328 then [(n - 281) / 4]
  else if 356 ≤ n ∧ n ≤ 365 then [44 + 2 * ((n - 356) / 5), 45 + 2 * ((n - 356) / 5)]
  else if 349 ≤ n ∧ n ≤ 355 then [57, 58]
  else []

/-- A level source: its FLAG stays while its level holds (Table FT-1, R347). -/
def sourceLevel (n : Nat) : Bool :=
  decide (15 ≤ n ∧ n ≤ 86) || decide (231 ≤ n ∧ n ≤ 254) || decide (402 ≤ n ∧ n ≤ 403)

/-- Bits forced in EV_REACT and in SEV_REACT (Table FT-3). -/
def forcedEv (n : Nat) : Nat :=
  (if 183 ≤ n ∧ n ≤ 206 ∧ (n - 183) % 2 = 0 then 2 ^ reTPK else 0) +
  (if sourceClass n = 3 then 2 ^ reFLT + 2 ^ reLOG else if sourceClass n = 2 then 2 ^ reLOG else 0)

def forcedSev (n : Nat) : Nat :=
  (if 183 ≤ n ∧ n ≤ 206 ∧ (n - 183) % 2 = 0 then 2 ^ reTPK else 0) +
  (if sourceClass n = 3 then 2 ^ reFLT + 2 ^ reLOG else 0)

/-- The mask a FLAG applies, and the one a SEVERE applies: the configured bits and the forced ones (R343). -/
def evReact (s : State) (n : Nat) : Nat := fld s (A.umpCfgOf n) 29 20 ||| forcedEv n
def sevReact (s : State) (n : Nat) : Nat := fld s (A.umpCfgOf n) 9 0 ||| forcedSev n

/-- FLAG and SEVERE of a source. -/
def srcFlag (s : State) (n : Nat) : Bool := bit s (A.umpSrc n) 31
def srcSevere (s : State) (n : Nat) : Bool := bit s (A.umpSrc n) 30

/-- The mask that a bit applied when it rose, while that bit stays set: `sev` is SEVERE (R344, R345). -/
def appliedMask (s : State) (n : Nat) (sev : Bool) : Nat :=
  sget (fun _ => 0) s.ump.applied (2 * n + if sev then 1 else 0)

/-- The device is in the safe state (UMP_STAT.SAFE). -/
def inSafe (s : State) : Bool := bit s A.umpStat 31

/-- FAULT_N is asserted (R344). -/
def faultN (s : State) : Bool :=
  s.ump.applied.any (fun p => p.2.testBit reFLT) || inSafe s || s.thm.tripped

end Sys2Proof.Machine
end

