-- ==== Sys2Proof/Machine/Holds.lean ====
section
/-!
DEFINITION. FAB_HOLD and the causes that hold it (spec/02_fabric_lanes.md R54-R61, Table FL-12).
-/

namespace Sys2Proof.Machine

/-- TILE_STAT bits (Table FL-12). -/
abbrev tsHoldOut : Nat := 31
abbrev tsUpLock : Nat := 30
abbrev tsParked : Nat := 29
abbrev tsPstore : Nat := 28
abbrev tsPload : Nat := 27
abbrev tsDlLock : Nat := 26
abbrev tsCauseSw : Nat := 25
abbrev tsCauseUploss : Nat := 24
abbrev tsCauseSelf : Nat := 23
abbrev tsCauseFault : Nat := 22
abbrev tsCauseDis : Nat := 21

/-- FAB_HOLD[t] at the ball: driven by TILE_STAT.HOLD_OUT, or released to the tile's pull-up (R57, Table CK-7). -/
def fabHold (s : State) (t : Nat) : Bool := !(tileLink s t).driven || bit s (A.tileStat t) tsHoldOut

/-- The output VOA of port q lies on tile t. -/
def outOnTile (s : State) (t q : Nat) : Bool := s.fab.topo.any fun p => p.ports.any fun r =>
  r.output && decide (r.port = q) && r.voa.any fun n => decide (n / 896 = t)

/-- The device drives FAB_HOLD high; a pulse lasts at least 1 µs from here (R59). The park ends the Line Call windows of the tile's outputs
as INCOMPLETE (R195). -/
def assertHold (t : Nat) : Act := .look fun s =>
  Act.when (!bit s (A.tileStat t) tsHoldOut)
    (.all [setBit (A.tileStat t) tsHoldOut, updTile t fun x => { x with heldAt := s.clk.mono },
      updPipe fun p => { p with wins := p.wins.map fun w => if outOnTile s t w.out then { w with parked := true } else w }])

/-- An applied reaction mask parks tile `t`: DPK, or TPK of a source of that tile (R345). -/
def maskParks (t : Nat) (p : Nat × Nat) : Bool :=
  p.2.testBit reDPK || (p.2.testBit reTPK && sourceTile (p.1 / 2) == some t)

/-- A fault holds tile `t`: an Umpire park whose bit stays set, the safe state, THERMTRIP, or a loss of clock-good of its
EDL, EML or cluster domain (Tables FL-8, CK-3). -/
def faultCause (s : State) (t : Nat) : Bool :=
  inSafe s || s.thm.tripped || s.ump.applied.any (maskParks t) ||
  s.clk.lost.contains t || s.clk.lost.contains (15 + t) || s.clk.lost.contains (27 + t)

/-- Bring CAUSE_FAULT of tile `t` up to date, and hold the tile where it is set. -/
def refreshFault (t : Nat) : Act := .look fun s =>
  .all [putBit (A.tileStat t) tsCauseFault (faultCause s t), Act.when (faultCause s t) (assertHold t)]

/-- Park a tile: TILE_CTRL.HOLD := 1 and FAB_HOLD high (R345). -/
def parkTile (t : Nat) : Act :=
  .all [setBit (A.tileCtrl t) 0, setBit (A.tileStat t) tsCauseSw, assertHold t, refreshFault t]

/-- Every condition under which FAB_HOLD may fall (R61). -/
def releaseOk (s : State) (t : Nat) : Bool :=
  bit s (A.tileCtrl t) 1 && !bit s (A.tileCtrl t) 0 && decide (fld s (A.tileStat t) 25 21 = 0) &&
  bit s (A.tileStat t) tsUpLock && bit s (A.tileStat t) tsDlLock && bit s (A.tileStat t) tsPstore &&
  !bit s (A.tileStat t) tsPload

/-- LCLK and the downlink of tile `t` run: the tile is enabled, its EDL domain runs and its lanes are driven (R62, R400). -/
def lclkRuns (s : State) (t : Nat) : Bool :=
  bit s (A.tileCtrl t) 1 && domRuns s (15 + t) && bit s (A.edlStat (16 * t)) 0

/-- The device's side of a tile's link starts afresh when LCLK starts (Table FL-9). -/
def freshLink (t : Nat) : Act := .all [
  updTile t fun x => { x with
    seq := 0, queue := [], sent := [], good := 0, syncMiss := 0, missing := 0, gotGood := false, gotAny := false, noSync := false,
    everLocked := false, load := .idle, owed := x.owed || x.load != .idle },
  setFld (A.tileStat t) 20 16 0,
  clrBit (A.tileStat t) tsUpLock, clrBit (A.tileStat t) tsDlLock, clrBit (A.tileStat t) tsPstore,
  clrBit (A.tileStat t) tsPload, clrBit (A.parkCtrl t) 0]

end Sys2Proof.Machine
end

