-- ==== Sys2Proof/Machine/Inject.lean ====
section
/-!
DEFINITION. Injected sequences: triggers, placement, results (spec/03_converters.md R84-R87).
-/

namespace Sys2Proof.Machine

/-- The group's control and status registers are those of its local lane 0 (R94). -/
abbrev grpCtrl (t : Nat) : Nat := A.emlCtrl (16 * t)
abbrev grpStat (t : Nat) : Nat := A.emlStat (16 * t)

/-- BAR2 address of result word i of group t (R87). -/
abbrev injResult (t i : Nat) : Nat := 0x2000000 + 0x100000 * t + 0xFFF80 + 4 * i

/-- INJ_LEN of a group. -/
def injLen (s : State) (t : Nat) : Nat := fld s (grpCtrl t) 29 24

/-- INJ_LEN gives no sequence. -/
def injBadLen (s : State) (t : Nat) : Bool := decide (injLen s t = 0 ∨ 32 < injLen s t)

/-- A trigger of group t's sequence (R84): a bad length and a running sequence each ignore it and say so; otherwise every VALID bit clears
and the sequence starts at entry 0. -/
def injStart (t : Nat) : Act := .look fun s =>
  if injBadLen s t || bit s (grpStat t) 28 then .all [
    Act.when (injBadLen s t) (setBit (grpStat t) 5), Act.when (bit s (grpStat t) 28) (setBit (grpStat t) 4)]
  else .all [
    Act.upto 32 fun i => .look fun s => writeMemWord (injResult t i) (readWord s.mem (injResult t i) &&& 0x7FFFFFFF#32),
    setBit (grpStat t) 28, setFld (grpStat t) 27 23 0,
    updGroup t fun g => { g with pos := 0, placed := [], converted := [], claims := [] }]

/-- Entry i of group t's sequence: local lane, element slot, point (Table CV-8, EML_INJ). -/
def injEntry (s : State) (t i : Nat) : Nat × Nat × Nat :=
  let w := fld s (A.emlInj (16 * t + i / 2)) (if i % 2 = 1 then 31 else 15) (if i % 2 = 1 then 16 else 0)
  (w / 4096, w / 64 % 64, w / 32 % 2)

/-- Element slot k of lane n is yieldable (EML_YIELD). -/
def yieldable (s : State) (n k : Nat) : Bool :=
  if k < 32 then bit s (A.emlYield0 n) k else bit s (A.emlYield1 n) (k - 32)

/-- What one frame's placement has done so far: the next entry, the entries placed, and those whose slot is above 55. -/
structure Placing where
  pos : Nat
  placed : List Placed := []
  bad : List Nat := []
deriving DecidableEq, Repr

/-- The lowest unused slot that entry (l, k, p) can take: 120-127, or a yieldable regular slot of an urgent sequence that was
not claimed in the last frame (R85). -/
def injSlot (s : State) (t l p : Nat) (used : List Placed) : Option Nat :=
  let free (q : Nat) : Bool := decide (q % 2 = p) && !used.any fun x => decide (x.lane = 16 * t + l ∧ x.slot = q)
  match (List.range' 120 8).find? free with
  | some q => some q
  | none =>
    if bit s (grpCtrl t) 30 then (List.range 112).find? fun q =>
      free q && yieldable s (16 * t + l) (q / 2) && !(groupOf s t).claims.contains (16 * t + l, q / 2)
    else none

/-- The placement of R85, entry by entry in order; `fuel` is the number of entries it may still look at. -/
def injPlace (s : State) (t : Nat) : Nat → Placing → Placing
  | 0, x => x
  | fuel + 1, x =>
    if injLen s t ≤ x.pos ∨ 8 ≤ x.placed.length then x
    else
      let (l, k, p) := injEntry s t x.pos
      if 55 < k then injPlace s t fuel { x with pos := x.pos + 1, bad := x.bad ++ [x.pos] }
      else match injSlot s t l p x.placed with
        | none => x
        | some q => injPlace s t fuel { x with
            pos := x.pos + 1,
            placed := x.placed ++ [{ index := x.pos, lane := 16 * t + l, slot := q, claimed := decide (q < 112) }] }

/-- The message of one frame's placement. -/
def injMsg (s : State) (t : Nat) (l : List Placed) : Msg :=
  .inject (l.map fun p => { lane := p.lane % 16, eslot := (injEntry s t p.index).2.1, point := p.slot % 2, tgt := p.slot })

/-- Word i of the result buffer (R87). -/
def injWord (missing sat claimed : Bool) (frame code : Nat) : Word :=
  BitVec.ofNat 32 (2 ^ 31 + missing.toNat * 2 ^ 30 + sat.toNat * 2 ^ 29 + claimed.toNat * 2 ^ 28 +
    frame % 256 * 2 ^ 16 + code % 2 ^ 14)

end Sys2Proof.Machine
end

