-- ==== Sys2Proof/Machine/Links.lean ====
section
/-!
DEFINITION. What the loss of a link or of the time base ends: links, their buffers, timed commits and triggers
(spec/13_clocks_reset.md Table CK-3, spec/08_huddle.md R207). `again` raises an event's source.
-/

namespace Sys2Proof.Machine

/-! ## Ethernet -/

def slicesOf (f : TelSlice → TelSlice) (i : Nat) (x : Sub) : Sub := { x with slices := smod (fun _ => {}) x.slices i f }
/-- Change slice i of subscription id. -/
def updSlice_ (id i : Nat) (f : TelSlice → TelSlice) : Act := updNet fun x => { x with
  subs := smod (fun _ => none) x.subs id fun o => o.map (slicesOf f i) }
/-- The record frames of dropped packets are lost to their slices (R294). -/
def loseTele (l : List NetFrame) : Act := Act.each (l.filterMap (·.tele)) fun (id, i, n) => updSlice_ id i fun x => { x with lost := x.lost + n }

def egQueue (s : State) (q : Nat) : EgQueue := sget (fun _ => {}) s.net.queues q
def updEg (q : Nat) (f : EgQueue → EgQueue) : Act := updNet fun x => { x with queues := smod (fun _ => {}) x.queues q f }
def macOf (s : State) (k : Nat) : Mac := sget (fun _ => {}) s.net.macs k
def updMac (k : Nat) (f : Mac → Mac) : Act := updNet fun x => { x with macs := smod (fun _ => {}) x.macs k f }

/-- Key ranges of a port's queues. -/
def portQueues (p : Nat) : List (Nat × Nat) := [(1024 * p, 1024 * p + 1023), (2048 + 32 * p, 2079 + 32 * p)]

/-- The receive or transmit side of Ethernet port p lost its clock: its MACs go down and what they hold is discarded. -/
def ethPortLost (again : Occ → Act) (p : Nat) (tx : Bool) : Act := .look fun s =>
  let held := s.net.queues.filter fun x => (portQueues p).any fun r => decide (r.1 ≤ x.1 ∧ x.1 ≤ r.2)
  .all [
    Act.when (decide (fld s (A.ethStat p) 15 8 ≠ 0)) (.all [
      setBit (A.ethEvt p) 1, again { src := 357 + 5 * p, addr := A.ethEvt p }]),
    setFld (A.ethStat p) 15 0 0,
    if tx then .all [
      loseTele (held.flatMap fun x => x.2.frames),
      updNet fun x => { x with queues := sdrop (portQueues p) x.queues, macs := sdrop [(8 * p, 8 * p + 7)] x.macs }]
    else Act.upto 8 fun m => updMac (8 * p + m) fun x => { x with rx := [] }]

/-! ## Korotte (R207) -/

def kLink (s : State) (n : Nat) : KLink := sget (fun _ => {}) s.klk.links n
def updKLink (n : Nat) (f : KLink → KLink) : Act := updKlk fun x => { x with links := smod (fun _ => {}) x.links n f }
/-- The link of lead lane n is up. -/
def klkUp (s : State) (n : Nat) : Bool := bit s A.klkStat (8 + n)
/-- The lead lane of the enabled link that lane n belongs to. -/
def klkLead (s : State) (n : Nat) : Option Nat :=
  (List.range 8).find? fun l => decide (0 < (kLink s l).lanes) && decide (l ≤ n ∧ n < l + (kLink s l).lanes)

/-- The stalls of link n end, and their microseconds count (Table HD-13). -/
def endStalls (n : Nat) : Act := .look fun s => Act.each (kLink s n).stallAt fun p =>
  bump (A.klkStall n) (8 * p.1 + 7) (8 * p.1) (usSince s (p.2 - 1))

/-- The link of lead lane n goes down: its replay and receive buffers are discarded and counted. -/
def klkDown (again : Occ → Act) (n : Nat) : Act := .look fun s => .all [
  Act.when (klkUp s n) (.all [
    bump (A.klkLdrop n) 15 0 (kLink s n).unacked.length,
    clrBit A.klkStat (8 + n), setBit (A.klkLevt n) 1, setBit A.klkEvt 3, again { src := 389, addr := A.klkEvt }]),
  clrBit (A.klkLstat n) 1, clrBit (A.klkLstat n) 2, endStalls n,
  updKLink n fun x => { lanes := x.lanes, queues := x.queues, barred := x.barred }]

/-- Korotte lane n lost its clock: it takes its link down. -/
def klkLaneLost (again : Occ → Act) (n : Nat) : Act := .look fun s => .all [
  clrBit (A.klkLstat n) 3,
  Act.each (klkLead s n).toList fun l => klkDown again l]

/-! ## PCIe (R249) -/

/-- The PCIe domains lost their clock: the link goes down; with the application domain the queue pairs are gone. -/
def pcieLost (again : Occ → Act) (app : Bool) : Act := .all [
  .whenS pcieUp (.all [setFld A.pciLstat 8 0 0, setBit A.pciEvt 2, again { src := 355, addr := A.pciEvt, master := 104 }]),
  Act.when app (updHost fun h => { h with pairs := [] })]

/-! ## Time -/

/-- TICK restarted with a cleared anchor, and the servo is in FREERUN; time triggers are disarmed with TRIG_LOST, and an armed commit is
disarmed: it fails at the next frame boundary. -/
def timeLost (again : Occ → Act) : Act := .look fun s =>
  let l := (List.range 12).filter fun t => (groupOf s t).timeTrig.isSome
  .all [
    updTim fun x => { frames := x.frames, frameOfs := x.frameOfs },
    Act.each l fun t => updGroup t fun g => { g with timeTrig := none },
    Act.when (!l.isEmpty) (.all [setBit A.ptpEvt 9, again { src := 379, addr := A.ptpEvt }]),
    Act.when (s.pipe.cur.any fun c => c.stage = .armed) (.all [
      Act.upto 96 fun e => .all [setFld (A.engSpbank e) 2 0 0, clrBit (A.engStat e) 20],
      updPipe fun p => { p with stepFail := true }])]

end Sys2Proof.Machine
end

