-- ==== Sys2Proof/Machine/Domains.lean ====
section
/-!
DEFINITION. What the loss of a clock domain does (spec/13_clocks_reset.md R329, R330, R382, Table CK-3): its registers take
their reset values, its tile parks, its links go down.
-/

namespace Sys2Proof.Machine

/-- BAR0 registers of a domain whose reset alone they follow (Table CK-2, R382). -/
def domRegs (d : Nat) : List (Nat × Nat) :=
  if d < 12 then [(0x200000 + 0x10000 * d, 0x20FFFF + 0x10000 * d)]
  else if d = 14 then [(0x6000, 0x6FFF)]
  else if 15 ≤ d ∧ d < 27 then [(0x100000 + 0x200 * (d - 15), 0x1001FF + 0x200 * (d - 15))]
  else if 27 ≤ d ∧ d < 39 then [(0x120000 + 0x200 * (d - 27), 0x1201FF + 0x200 * (d - 27))]
  else if d = 39 then [(0x320000, 0x32FFFF), (A.gclOf 0 0 0, A.gateMacOf 16 0)]
  else if d = 40 then [(0x500000, 0x50FFFF)]
  else if d = 44 ∨ d = 46 then
    let p := (d - 44) / 2
    [(0x300000 + 0x1000 * p, 0x300FFF + 0x1000 * p), (0x310000 + 0x800 * p, 0x3107FF + 0x800 * p),
     (A.pfcOf (8 * p) 0 0, A.pfcOf (8 * p + 8) 0 0 - 1)]
  else if 48 ≤ d ∧ d < 56 then [(0x360100 + 0x40 * (d - 48), 0x36013F + 0x40 * (d - 48))]
  else if d = 56 then [(0x360000, 0x36000B), (0x360010, 0x3600FF), (A.nextHopOf 0, A.tunnelOf 0x800 0 - 1)]
  else if d = 58 then [(0x400000, 0x402FFF), (0x404000, 0x40FFFF)]
  else []

/-- The same and the requesters' copies and latches of its registers (R380, R381). -/
def domKeys (d : Nat) : List (Nat × Nat) :=
  domRegs d ++ (List.range' 1 5).flatMap fun r => (domRegs d).filterMap fun x =>
    if x.2 < A.hidden then some (A.copyOf r x.1, A.copyOf r x.2) else none

/-- Registers of the key ranges, as they stand. -/
def regsIn (s : State) (rs : List (Nat × Nat)) : SMap Word :=
  s.regs.filter fun p => rs.any fun r => decide (r.1 ≤ p.1) && decide (p.1 ≤ r.2)

/-- A cluster, EDL or EML domain: the ones the supervisors restore (R330). -/
def restorable (d : Nat) : Bool := decide (d < 12) || decide (15 ≤ d ∧ d < 39)

/-- The engines of cluster c stop, and its tile's element slots carry park codes. Program banks and LSM keep their words. -/
def clusterLost (c : Nat) : Act := .all [
  updEng fun x => { x with
    engs := x.engs.filterMap fun p =>
      if p.1 / 8 = c then (if p.2.rom = 0#2 then none else some (p.1, { rom := p.2.rom })) else some p,
    smpRead := sdrop [(1792 * c, 1792 * c + 1791)] x.smpRead,
    drvEmit := sdrop [(896 * c, 896 * c + 895)] x.drvEmit,
    drvFill := sdrop [(896 * c, 896 * c + 895)] x.drvFill,
    tonePend := sdrop [(896 * c, 896 * c + 895)] x.tonePend,
    toneDue := sdrop [(896 * c, 896 * c + 895)] x.toneDue,
    ect := sdrop [(c, c)] x.ect },
  refreshFault c]

/-- EDL group t lost: lanes high-impedance, no tone, LCLK and the FCL stopped; the supervisors hold the tile. -/
def edlLost (t : Nat) : Act := .all [
  updLane fun x => { x with
    lanes := sdrop [(16 * t, 16 * t + 15)] x.lanes,
    tones := sdrop [(896 * t, 896 * t + 895)] x.tones },
  freshLink t, parkTile t]

/-- EML group t lost: no samples; the supervisors hold the tile. -/
def emlLost (t : Nat) : Act := .all [
  updLane fun x => { x with
    groups := sdrop [(t, t)] x.groups,
    slices := sdrop [(64 * t, 64 * t + 63)] x.slices,
    frz := sdrop [(1792 * t, 1792 * t + 1791)] x.frz,
    lastCode := sdrop [(1792 * t, 1792 * t + 1791)] x.lastCode },
  updEng fun x => { x with smpFill := sdrop [(1792 * t, 1792 * t + 1791)] x.smpFill },
  parkTile t]

/-- HBM is as after a training failure until the next reset (R308). -/
def hbmLost (again : Occ → Act) : Act := .all [
  clrBit A.hbmStat 31, setBit A.hbmStat 30, setBit A.hbmEvt 0, again { src := 333, addr := A.hbmEvt }]

/-- A side of domain d's crossing FIFOs enters reset: the other side stops, and raises RESYNC (R333). The bit is described as of a FIFO that has
resynchronised (Table CK-8); it sets here, where the rule raises it, and not a second time (DEDUCED, log entry 135). -/
def fifoStops (again : Occ → Act) (d : Nat) : Act := .whenS (fun s => !fifoHeld s d) (.all [
  updClk fun c => { c with resync := d :: c.resync }, setBit A.clkEvt 1, again { src := 11, addr := d }])

/-- Domain `d` loses its clock or is reset alone; `again` raises what its loss reports. -/
def domainDown (again : Occ → Act) (d : Nat) : Act := .look fun s => .all [
  Act.when ((restorable d || d == 14) && !s.clk.lost.contains d) (updClk fun c => { c with saved := c.saved ++ regsIn s (domRegs d) }),
  updClk fun c => { c with lost := if c.lost.contains d then c.lost else d :: c.lost },
  setBit (A.clkDstat d) 30, fifoStops again d,
  Act.when (decide (44 ≤ d ∧ d < 48)) (ethPortLost again ((d - 44) / 2) (d % 2 == 0)),
  Act.when (decide (48 ≤ d ∧ d < 56)) (klkLaneLost again (d - 48)),
  Act.when (decide (d = 56)) (Act.upto 8 (klkLaneLost again)),
  Act.when (decide (d = 57 ∨ d = 58)) (pcieLost again (d == 58)),
  dropRegs (domKeys d),
  Act.when (decide (d < 12)) (clusterLost d),
  Act.when (decide (15 ≤ d ∧ d < 27)) (edlLost (d - 15)),
  Act.when (decide (27 ≤ d ∧ d < 39)) (emlLost (d - 27)),
  Act.when (decide (d = 39)) (timeLost again),
  Act.when (decide (d = 40 ∨ d = 41)) (hbmLost again)]

end Sys2Proof.Machine
end

