-- ==== Sys2Proof/Machine/Umpire.lean ====
section
/-!
DEFINITION. The Umpire: events, severity, reactions, first-error capture, safe state (spec/14_faults_thermal.md R341-R352).
-/

namespace Sys2Proof.Machine

/-- First-error capture of an event that applies a mask (R349). -/
def capture (o : Occ) : Act := .look fun s =>
  let fatal := decide (sourceClass o.src = 3)
  let held := bit s A.umpFeSrc 31
  let anew := held && fatal && decide (fld s A.umpFeSrc 29 28 ≠ 3)
  Act.when (bit s (A.umpCfgOf o.src) 31 && (!held || anew)) (.all [
    wrNat A.umpFeSrc (2 ^ 31 + (if anew then 2 ^ 30 else 0) + sourceClass o.src * 2 ^ 28 + o.src),
    wrPair A.umpFeAddrLo A.umpFeAddrHi o.addr,
    wrNat A.umpFeInfo (o.master * 2 ^ 24 + o.access * 2 ^ 20 + o.detail % 2 ^ 16),
    wrPair A.umpFeTimeLo A.umpFeTimeHi (nowNs s)])

/-- The fault log entry of an event (Table FT-4). -/
def logOf (s : State) (o : Occ) (kind mask : Nat) : FlogEntry :=
  { time := nowNs s, kind := kind, source := o.src, cls := sourceClass o.src, react := mask,
    occ := fld s (A.umpSrc o.src) 15 0, rstcnt := fld s A.rstCount 15 0, addr := o.addr,
    info := o.master * 2 ^ 24 + o.access * 2 ^ 20 + o.detail % 2 ^ 16, hot := hottestDie s }

/-- A chip reset request reaches AON: its cause bit sets; while a THERMTRIP is latched that is its only effect (R336). -/
def resetRequest (causeBit : Nat) : Act := .all [
  setBit A.rstCause causeBit,
  .whenS (fun s => !s.thm.tripped) (updClk fun c => { c with req := true })]

/-- An Umpire chip reset: cause UMP, and the source in RST_UMPSRC, of the first one the order reaches (R336, R348). While a reset is asked for
already it adds its cause bit; under a latched THERMTRIP that is its only effect. -/
def umpireReset (src : Nat) : Act := .all [
  .whenS (fun s => !s.thm.tripped && !(s.clk.req && bit s A.rstCause 4)) (wrNat A.rstUmpsrc (2 ^ 31 + src)),
  resetRequest 4]

/-- Trigger the recorder and report REP_FROZEN where that froze it (R303, Table FT-1). -/
def replayReport (again : Occ → Act) (cause source : Nat) : Act := .look fun s => .all [
  replayTrigger cause source,
  .whenS (fun s' => bit s' A.repStat repFrozen && !bit s A.repStat repFrozen) (again { src := 381, addr := A.tshEvt })]

/-- Enter the safe state (R352, Table FT-5): FAULT_N low, recorder frozen, watchdog disarmed, every tile held, READY 0.
Transactions and engines stop because the device is in it (`nvmStep`, ENGINE_FRAME_START). -/
def safeEntry (again : Occ → Act) (cause : Nat) (src : Option Nat) : Act := .whenS (fun s => !inSafe s) (.all [
  setBit A.umpStat 31, setFld A.umpStat 30 29 cause,
  (match src with
   | some n => wrNat A.umpSafeSrc (2 ^ 31 + n)
   | none => .done),
  replayReport again 3 (src.getD 0),
  clrBit A.rstWdt 31,
  Act.upto 12 refreshFault,
  clrBit A.cmdStat 31])

/-- Block reset of a domain (Table CK-4): as the loss of its clock (R343). The BLK_RESET event follows in `raise`. -/
def blockReset (again : Occ → Act) (d : Nat) : Act := .all [
  wrNat A.rstBlklast (2 ^ 31 + d), bump A.rstBlkcnt 15 0, setBit A.rstEvt 0, domainDown again d]

/-- A reaction mask is applied, and captured and logged first (R348, R349). In the safe state no reaction applies (R352). -/
def logMask (o : Occ) (sev : Bool) (mask : Nat) : Act :=
  .whenS (fun s => !inSafe s && decide (mask ≠ 0)) (.all [
    updUmp fun u => { u with applied := sset (fun _ => 0) u.applied (2 * o.src + if sev then 1 else 0) mask },
    capture o,
    Act.when (mask.testBit reLOG) (.look fun s => queueLog (logOf s o 0 mask))])

/-- The other actions of a mask but CHP and SAFE (R343, R348); `again` raises what the reactions themselves report. -/
def applyMask (again : Occ → Act) (o : Occ) (mask : Nat) : Act :=
  .whenS (fun s => !inSafe s && decide (mask ≠ 0)) (.all [
    Act.when (mask.testBit reINT) (.all [emit (.supvInt o.src), raiseMsix 65,
      .look fun s => pushEvent { code := 0xF008, source := 5, object := 0, time := nowNs s, detail := o.src }]),
    Act.when (mask.testBit reNMI) (emit (.supvNmi o.src)),
    Act.when (mask.testBit reREC) (replayReport again 2 o.src),
    Act.when (mask.testBit reTPK) (match sourceTile o.src with
      | some t => parkTile t
      | none => .done),
    Act.when (mask.testBit reDPK) (Act.upto 12 parkTile),
    Act.when (mask.testBit reBLK) (Act.each (sourceDomains o.src) fun d =>
      .all [blockReset again d, again { src := 14, addr := A.rstEvt }])])

/-- What runs last of the reactions of one event: SAFE, or CHP where no SAFE is applied (R348). -/
def applyLast (again : Occ → Act) (o : Occ) (mask : Nat) : Act := .whenS (fun s => !inSafe s) (.all [
  Act.when (mask.testBit reSAFE) (safeEntry again 1 (some o.src)),
  Act.when (mask.testBit reCHP && !mask.testBit reSAFE) (umpireReset o.src)])

/-- The run of a source restarts with this event: its count is 0, or its window is over (R346). -/
def runFresh (s : State) (n : Nat) : Bool :=
  decide (sget (fun _ => 0) s.ump.run n = 0) || decide (max 1 (rd s (A.umpWinOf n)).toNat * ticksPerUs < s.clk.mono - sget (fun _ => 0) s.ump.ts0 n)
/-- The run count of a source with this event. -/
def runCount (s : State) (o : Occ) : Nat := if runFresh s o.src then o.m else sget (fun _ => 0) s.ump.run o.src + o.m
/-- SEVERE rises with this event: at once for the two uncorrectable classes, else when N events fall within W (R346). -/
def severeRises (s : State) (o : Occ) : Bool :=
  !srcSevere s o.src && (decide (2 ≤ sourceClass o.src) || decide (max 1 (fld s (A.umpThrOf o.src) 15 0) ≤ runCount s o))

/-- The severity part of an event: SEVERE, and the run of a counted or corrected source (R346). -/
def countSevere (o : Occ) : Act := .look fun s => .all [
  Act.when (!srcSevere s o.src && decide (sourceClass o.src < 2)) (updUmp fun u => { u with
    ts0 := if runFresh s o.src then sset (fun _ => 0) u.ts0 o.src s.clk.mono else u.ts0
    run := sset (fun _ => 0) u.run o.src (if severeRises s o then 0 else runCount s o) }),
  Act.when (severeRises s o) (setBit (A.umpSrc o.src) 30)]

/-- One event of a source (R346): the masks it applies, and last what SAFE or CHP of either asks for (R348). A source with a tile is also the
fault trigger of that lane group's injected sequence (R84, log entry 7). The Umpire runs in PERI and sees nothing while that domain is in
reset. -/
def raiseWith (again : Occ → Act) (o : Occ) : Act :=
  .whenS (fun s => !domInReset s 42 && decide (o.src < numSources)) (.all [
    bump (A.umpSrc o.src) 15 0 o.m,
    .look fun s =>
      let ev := if srcFlag s o.src then 0 else evReact s o.src
      let sv := if severeRises s o then sevReact s o.src else 0
      .all [
        setBit (A.umpSrc o.src) 31, countSevere o,
        logMask o false ev, logMask o true sv, applyMask again o ev, applyMask again o sv, applyLast again o (ev ||| sv)],
    (match sourceTile o.src with
      | some t => .whenS (fun s => bit s (grpCtrl t) 23) (injStart t)
      | none => .done)])

/-- Events whose own reactions raise events in turn, to a depth of four: a reaction raises REP_FROZEN or BLK_RESET, whose
reactions can raise the other, and each of them acts once while its FLAG stays set. -/
def raiseDepth : Nat → Occ → Act
  | 0, _ => .done
  | n + 1, o => raiseWith (raiseDepth n) o

/-- One event of a source, with all its reactions. -/
def raise (o : Occ) : Act := raiseDepth 4 o

/-- Set bit `i` of the event register at `a` and raise the source it is (R341, R349: its address is that register's). -/
def event (a i src : Nat) (master : Nat := 255) (detail : Nat := 0) : Act :=
  .all [setBit a i, raise { src := src, addr := a, master := master, detail := detail }]

/-- A level source's level rises or falls; its event comes when it rises (R341). -/
def setLevel (o : Occ) (up : Bool) : Act := .look fun s =>
  if up then Act.when (!s.ump.level.contains o.src)
    (.all [updUmp fun u => { u with level := o.src :: u.level }, raise o])
  else updUmp fun u => { u with level := u.level.filter (· != o.src) }

/-- Trigger the recorder and report REP_FROZEN where that froze it (R303, Table FT-1). -/
def replayTriggerEvent (cause source : Nat) : Act := replayReport raise cause source

/-! ## The Umpire's own commands -/

/-- The event register and bit of a source that has one of its own (Table FT-1); that of the MAC of an MS_EVT source. -/
def evtBit (n : Nat) (mac : Nat := 0) : Option (Nat × Nat) :=
  if n = 8 then some (A.clkEvt, 2) else if n = 10 then some (A.clkEvt, 0) else if n = 11 then some (A.clkEvt, 1)
  else if n = 12 then some (A.clkEvt, 4) else if n = 13 then some (A.rstEvt, 1) else if n = 14 then some (A.rstEvt, 0)
  else if 87 ≤ n ∧ n ≤ 182 then some (A.tileEvt ((n - 87) / 8), (n - 87) % 8)
  else if n = 329 then some (A.hbmEvt, 1) else if n = 330 then some (A.hbmEvt, 2) else if n = 331 then some (A.hbmEvt, 5)
  else if n = 332 then some (A.hbmEvt, 3) else if n = 333 then some (A.hbmEvt, 0) else if n = 334 then some (A.hbmEvt, 4)
  else if n = 335 then some (A.hbmEvt, 6) else if n = 336 then some (A.nvmEvt, 0) else if n = 337 ∨ n = 338 then some (A.nvmEvt, 1)
  else if n = 339 then some (A.nvmEvt, 7) else if n = 340 then some (A.nvmEvt, 4) else if n = 341 then some (A.nvmEvt, 5)
  else if n = 342 then some (A.nvmEvt, 6) else if n = 343 then some (A.nvmEvt, 2) else if n = 344 then some (A.nvmEvt, 3)
  else if 349 ≤ n ∧ n ≤ 352 then some (A.cmdEvt, n - 349) else if 353 ≤ n ∧ n ≤ 355 then some (A.pciEvt, n - 353)
  else if 356 ≤ n ∧ n ≤ 365 then some (A.ethEvt ((n - 356) / 5), (n - 356) % 5)
  else if 366 ≤ n ∧ n ≤ 369 then some (A.msEvt (mac % 16), n - 366) else if n = 384 ∨ n = 385 then some (A.polEvt, n - 384)
  else if 370 ≤ n ∧ n ≤ 379 then some (A.ptpEvt, n - 370) else if 380 ≤ n ∧ n ≤ 383 then some (A.tshEvt, n - 380)
  else if 386 ≤ n ∧ n ≤ 392 then some (A.klkEvt, n - 386) else if 393 ≤ n ∧ n ≤ 398 then some (A.hdlEvt, n - 393)
  else if 399 ≤ n ∧ n ≤ 401 then some (A.secEvt, n - 399) else none

/-- The m event pulses of an occurrence cross to the Umpire together: an 8-bit accumulator holds what arrives while a handshake runs, and at 255 it is
full, sets the CLK_XOVF bit of the domain it lies in and raises CDC_OVF (R332). Sources that Table FT-2 ties to no domain lie in PERI with the Umpire
and cross nothing. -/
def crossed (o : Occ) (act : Occ → Act) : Act := match sourceDomains o.src with
  | [] => act o
  | d :: _ => if o.m < 255 then act o else .all [
      act { o with m := 255 },
      if d < 32 then setBit A.clkXovf0 d else setBit A.clkXovf1 (d - 32),
      setBit A.clkEvt 0, raise { src := 10, addr := d }]

/-- UMPIRE_EVENT: a source's condition occurs (R346): the event bit it has sets, and the source is raised. CDC_OVF names the
source domain of the saturated accumulator as its address (R332, R349). TONE_TABLE is the failed check of the tone ROM: TABLE_OK falls (R75). -/
def execUmpireEvent (o : Occ) (s : State) : Host.Outcome State Fault Refusal :=
  (Act.all [
    (match evtBit o.src o.detail with
      | some (a, i) => setBit a i
      | none => .done),
    Act.when (decide (o.src = 255)) (clrBit A.toneStat 31),
    Act.when (decide (o.src = 10 ∧ o.addr < 60))
      (if o.addr < 32 then setBit A.clkXovf0 o.addr else setBit A.clkXovf1 (o.addr - 32)),
    crossed o fun o => if sourceLevel o.src then setLevel o true else raise o]).next s

/-- UMP_PARITY_SCAN (R351): the scan, or a use that checks its word, finds no wrong parity, or the first configuration word (by register key) that has it; such
a word takes the device to the safe state. -/
def execUmpParityScan (bad : Option Nat) (s : State) : Host.Outcome State Fault Refusal :=
  (match bad with
   | none => Act.done
   | some a => Act.whenS (fun s => !domInReset s 42 && !bit s A.umpStat 28) (.all [
      setBit A.umpStat 28,
      .look fun s => queueLog (logOf s { src := 0, addr := a } 1 0),
      .whenS inSafe (setFld A.umpStat 30 29 2), safeEntry raise 2 none])).next s

/-- EXT_FAULT_INPUT: input n has been low for 1 µs while enabled in UMP_EXT (R342). -/
def execExtFaultInput (n : Fin 2) (s : State) : Host.Outcome State Fault Refusal :=
  (Act.whenS (fun s => bit s A.umpExt n) (setLevel { src := 402 + n, addr := A.umpExt } true)).next s

/-- EXT_INPUT_RELEASE: the input returns high; its FLAG may be cleared from here on (R342, R347). -/
def execExtInputRelease (n : Fin 2) (s : State) : Host.Outcome State Fault Refusal :=
  (setLevel { src := 402 + n, addr := A.umpExt } false).next s

/-- After FLAG or SEVERE of a source is cleared, what its mask held is released (R344, R345). -/
def dropApplied (n : Nat) (sev : Bool) : Act := .all [
  updUmp fun u => { u with applied := sset (fun _ => 0) u.applied (2 * n + if sev then 1 else 0) 0 },
  Act.upto 12 refreshFault]

/-- Write 1 to FLAG: ignored while a level source's level holds (R347). -/
def clearFlag (n : Nat) : Act :=
  .whenS (fun s => !(sourceLevel n && s.ump.level.contains n)) (.all [clrBit (A.umpSrc n) 31, dropApplied n false])

/-- Write 1 to SEVERE: it clears and the run count restarts (R346). -/
def clearSevere (n : Nat) : Act := .all [
  clrBit (A.umpSrc n) 30,
  updUmp fun u => { u with run := sset (fun _ => 0) u.run n 0 },
  dropApplied n true]

end Sys2Proof.Machine
end

