-- ==== Sys2Proof/Machine/Access.lean ====
section
/-!
DEFINITION. What every BAR0 write passes through: the domain its register lies in (spec/16_register_map.md R378), the safe
state (spec/14_faults_thermal.md R352) and the trace buffer (R384).
-/

namespace Sys2Proof.Machine

/-- The clock domain of the register at BAR0 address `a` (Table CK-2). Registers that the table places nowhere else lie in
PERI (log entry 6). -/
def domOf (a : Nat) : Nat :=
  if 0x2000 ≤ a ∧ a < 0x3000 ∨ 0x4000 ≤ a ∧ a < 0x5000 then 43
  else if 0x6000 ≤ a ∧ a < 0x7000 then 14
  else if 0x100000 ≤ a ∧ a < 0x101800 then 15 + (a - 0x100000) / 0x200
  else if 0x120000 ≤ a ∧ a < 0x121800 then 27 + (a - 0x120000) / 0x200
  else if 0x200000 ≤ a ∧ a < 0x2C0000 then (a - 0x200000) / 0x10000
  else if 0x300000 ≤ a ∧ a < 0x302000 then 44 + 2 * ((a - 0x300000) / 0x1000)
  else if 0x310000 ≤ a ∧ a < 0x311000 then 44 + 2 * ((a - 0x310000) / 0x800)
  else if 0x320000 ≤ a ∧ a < 0x330000 then 39
  else if 0x330000 ≤ a ∧ a < 0x350000 then 12
  else if 0x360100 ≤ a ∧ a < 0x360300 then 48 + (a - 0x360100) / 0x40
  else if 0x360000 ≤ a ∧ a < 0x360100 then 56
  else if 0x370000 ≤ a ∧ a < 0x380000 ∨ 0x403000 ≤ a ∧ a < 0x404000 then 13
  else if 0x400000 ≤ a ∧ a < 0x410000 then 58
  else if 0x500000 ≤ a ∧ a < 0x510000 then 40
  else 42

/-- Requests reach BAR0: the PCIe endpoint is out of POR and chip reset (R378). -/
def endpointUp (s : State) : Bool := !s.clk.por && !s.clk.inReset

/-- A BAR0 write to `a` is taken: outside POR and chip reset, outside the safe state, which only RST_SWRST is written in, and with the register's
domain out of reset (R352, R378). A gated domain wakes, takes the write, and is gated again (`clkGated`). -/
def writeTaken (s : State) (a : Nat) : Bool := endpointUp s && (!inSafe s || decide (a = A.rstSwrst)) && !domInReset s (domOf a)

/-- A register that is written but never read. -/
def writeOnly (a : Nat) : Bool := (regRow a).any fun r => decide (r.wo ≠ 0 ∧ r.rw = 0 ∧ r.w1c = 0 ∧ r.w1s = 0 ∧ r.ro = 0)

/-- Data of a write as the trace holds it: 0 for WO registers and DBG registers. -/
def traceData (a : Nat) (data : Word) : Word := if writeOnly a || decide (0xF00000 ≤ a ∧ a < 0xF00040) then 0#32 else data

/-- Record a BAR0 access in the trace buffer (R384). -/
def traceAccess (write : Bool) (a : Nat) (data : Word) (master : Nat) : Act := .look fun s =>
  let f := fld s A.dbgFilter 7 0
  let triggered := bit s A.dbgStat 31
  let stopped := s.dbg.left == some 0
  let full := decide (4096 ≤ s.dbg.trace.length)
  let hit := bit s A.dbgCtrl 2 && !triggered &&
    decide ((BitVec.ofNat 32 a ^^^ rd s A.dbgTrigAddr) &&& rd s A.dbgTrigMask = 0#32)
  let e : Word × Word × Word × Word :=
    (BitVec.ofNat 32 ((if write then 2 ^ 31 else 0) + a), data, BitVec.ofNat 32 (master * 2 ^ 24), BitVec.ofNat 32 (nowNs s))
  Act.when (bit s A.dbgCtrl 0 && (decide (f = 0xFF) || decide (f = master))) (.all [
    Act.when (!stopped && !(full && bit s A.dbgCtrl 1)) (updDbg fun d => { d with
      trace := (if full then d.trace.drop 1 else d.trace) ++ [e],
      left := if hit then some 2048 else d.left.map (· - 1) }),
    Act.when (hit && !stopped) (setBit A.dbgStat 31),
    .look fun s' => .all [setFld A.dbgStat 12 0 s'.dbg.trace.length,
      putBit A.dbgStat 30 (decide (4096 ≤ s'.dbg.trace.length))]])

/-- A write to the register at `a` by a master (numbered as R349), doing `act` where the device takes it. -/
def writeBy (master a : Nat) (data : Word) (act : Act) : Act := .all [
  traceAccess true a (traceData a data) master,
  .whenS (fun s => writeTaken s a) act]
/-- A write by the PCIe host. -/
def hostWrite (a : Nat) (data : Word) (act : Act) : Act := writeBy 104 a data act

/-- A host write of one field of a register, its other bits written as they read. -/
def hostWriteFld (a hi lo x : Nat) (act : Act) : Act := .look fun s => hostWrite a (putBits (rd s a) hi lo x) act

end Sys2Proof.Machine
end

