-- ==== Sys2Proof/Machine/Bias.lean ====
section
/-!
DEFINITION. Bias current outputs: targets, ramps, ranges, the budget and the compliance levels (spec/03_converters.md
R89-R93).
-/

namespace Sys2Proof.Machine

/-- Weight of one code in units of the 15 mA range's LSB (R91). -/
def bcoUnit (range : Bool) : Nat := if range then 10 else 1

/-- Channel b is parked: its tile's FAB_HOLD is driven high (Table CV-4). -/
def bcoParked (s : State) (b : Nat) : Bool := bit s (A.tileStat (b / 2)) tsHoldOut

/-- The range and code that channel b regulates to: its park value while parked, else TARGET. -/
def bcoGoal (s : State) (b : Nat) : Bool × Nat :=
  if bcoParked s b then (bit s (A.bcoPark b) 16, fld s (A.bcoPark b) 15 0)
  else (bit s (A.bcoCtrl b) 1, fld s (A.bcoTarget b) 15 0)

/-- A channel's part of the budget, with a target and range: the larger of setpoint and target, and while it is parked its park value too,
which it ramps to (R91; DEDUCED, log entry 115). -/
def bcoShare (s : State) (b : Nat) (goal : Bool × Nat) : Nat :=
  max (max (fld s (A.bcoOut b) 15 0 * bcoUnit (bit s (A.bcoStat b) 30)) (goal.2 * bcoUnit goal.1))
    (if bcoParked s b then fld s (A.bcoPark b) 15 0 * bcoUnit (bit s (A.bcoPark b) 16) else 0)

/-- The budget holds when channel b takes a goal and is enabled or not: each enabled or parked channel counts (R91). -/
def budgetOk (s : State) (b : Nat) (en : Bool) (goal : Bool × Nat) : Bool :=
  let part (c : Nat) : Nat :=
    if c = b then (if en || bcoParked s c then bcoShare s c goal else 0)
    else if bit s (A.bcoCtrl c) 0 || bcoParked s c then bcoShare s c (bit s (A.bcoCtrl c) 1, fld s (A.bcoTarget c) 15 0) else 0
  decide (((List.range 24).map part).sum ≤ 10485760)

/-- A write that the budget admits takes effect; any other leaves the register and sets BUDGET_REJ (R91). -/
def bcoWrite (b : Nat) (ok : State → Bool) (act : Act) : Act := .look fun s =>
  if ok s then act else setBit (A.bcoStat b) 1

def execBcoTargetWrite (b : Fin 24) (v : BitVec 16) (s : State) : Host.Outcome State Fault Refusal :=
  (hostWrite (A.bcoTarget b) (v.zeroExtend 32) (bcoWrite b
    (fun s => budgetOk s b (bit s (A.bcoCtrl b) 0) (bit s (A.bcoCtrl b) 1, v.toNat))
    (wrNat (A.bcoTarget b) v.toNat))).next s

/-- Write RANGE_SEL: a change ramps through zero (R90). -/
def writeBcoRange (b : Nat) (v : Bool) : Act := bcoWrite b
  (fun s => budgetOk s b (bit s (A.bcoCtrl b) 0) (v, fld s (A.bcoTarget b) 15 0))
  (.all [.whenS (fun s => bit s (A.bcoStat b) 30 != v) (updBco b fun x => { x with rchg := true }), putBit (A.bcoCtrl b) 1 v])

def execBcoRangeSelWrite (b : Fin 24) (v : Bool) (s : State) : Host.Outcome State Fault Refusal :=
  (hostWriteFld (A.bcoCtrl b) 1 1 v.toNat (writeBcoRange b v)).next s

/-- Write EN. -/
def writeBcoEn (b : Nat) (v : Bool) : Act := bcoWrite b
  (fun s => !v || budgetOk s b true (bit s (A.bcoCtrl b) 1, fld s (A.bcoTarget b) 15 0))
  (putBit (A.bcoCtrl b) 0 v)

def execBcoEnWrite (b : Fin 24) (v : Bool) (s : State) : Host.Outcome State Fault Refusal :=
  (hostWriteFld (A.bcoCtrl b) 0 0 v.toNat (writeBcoEn b v)).next s

/-- A channel off without a ramp: setpoint 0, switch open (Table CV-4). A range change that is asked for stays to be done when it is on again
(log entry 115). -/
def bcoOff (b : Nat) : Act := .all [
  wrNat (A.bcoOut b) 0, setFld (A.bcoStat b) 31 31 0, setFld (A.bcoStat b) 29 26 0,
  updUmp fun u => { u with level := u.level.filter (· != 231 + b) }]

/-- The channel is off whatever it is asked: no Park Table in force, or a THERMTRIP (Table CV-4, R400). -/
def bcoDead (s : State) : Bool := s.nvm.park.isEmpty || s.thm.tripped || domInReset s 42

/-- One microsecond of channel b (R89, R90): toward 0 while the range is to change, then the switch at zero current, then
toward the goal; RCHG_DONE once TARGET is reached in the range of RANGE_SEL, so not while the channel is parked. -/
def bcoTick (b : Nat) : Act := .look fun s =>
  let goal := bcoGoal s b
  let cur := fld s (A.bcoOut b) 15 0
  let slew := max 1 (fld s (A.bcoSlew b) 15 0)
  let aim := if bit s (A.bcoStat b) 30 = goal.1 then goal.2 else 0
  let nxt := if cur < aim then min aim (cur + slew) else max aim (cur - slew)
  if bcoDead s || !(bit s (A.bcoCtrl b) 0 || bcoParked s b) then bcoOff b
  else .all [
    wrNat (A.bcoOut b) nxt,
    Act.when (decide (nxt = 0)) (putBit (A.bcoStat b) 30 goal.1),
    setBit (A.bcoStat b) 28,
    putBit (A.bcoStat b) 29 (bcoParked s b),
    .look fun s' => .all [
      putBit (A.bcoStat b) 31 (decide (nxt ≠ goal.2) || (bit s' (A.bcoStat b) 30 != goal.1)),
      Act.when ((bcoOf s' b).rchg && !bcoParked s b && decide (nxt = goal.2) && (bit s' (A.bcoStat b) 30 == goal.1)) (.all [
        updBco b fun x => { x with rchg := false }, setBit (A.bcoStat b) 0])]]

/-- BCO_RAMP_TICK: every channel moves. -/
def execBcoRampTick (s : State) : Host.Outcome State Fault Refusal := (Act.upto 24 bcoTick).next s

/-- One of the levels IN_COMPL (27) and OPEN_LOAD (26) takes its value; one that rises sets its event bit (R92). -/
def bcoLevel (b i evt : Nat) (up : Bool) : Act := .look fun s =>
  .all [putBit (A.bcoStat b) i up,
    Act.when (up && !bit s (A.bcoStat b) i) (.all [setBit (A.bcoStat b) evt,
      raise { src := 231 + b, addr := A.bcoStat b }])]

/-- BCO_COMPL_DETECT (R92): a measurement, and which of the two conditions it shows has held for 100 µs. A level falls as soon as its conditions
do not hold; OPEN_LOAD takes the place of IN_COMPL. -/
def execBcoComplDetect (b : Fin 24) (imeas : BitVec 16) (vmeas limit : BitVec 12) (held : BcoHeld) (s : State) :
    Host.Outcome State Fault Refusal :=
  (Act.look fun s =>
    let sp := fld s (A.bcoOut b) 15 0
    let near := decide (limit.toNat ≤ vmeas.toNat + 100)
    let open_ := bit s (A.bcoCtrl b) 2 && decide (656 ≤ sp) && near && decide (2 * imeas.toNat < sp) &&
      (held.open_ || bit s (A.bcoStat b) 26)
    let compl := near && !open_ && decide (65536 < 100 * (sp - imeas.toNat)) && (held.compl || bit s (A.bcoStat b) 27)
    .all [
      wrNat (A.bcoImeas b) imeas.toNat, wrNat (A.bcoVmeas b) vmeas.toNat,
      bcoLevel b 27 3 compl,
      bcoLevel b 26 2 open_,
      updUmp fun u => { u with
        level := if compl || open_ then (231 + b.val) :: u.level.filter (· != 231 + b.val)
          else u.level.filter (· != 231 + b.val) }]).next s

end Sys2Proof.Machine
end

