-- ==== Sys2Proof/Machine/Crc.lean ====
section
/-!
DEFINITION. The two cyclic redundancy checks the spec names: CRC-16 of the Fabric Control Link (spec/02_fabric_lanes.md
R45) and CRC-32C of records, images and programs.
-/

namespace Sys2Proof.Machine

/-- One bit into CRC-16 with polynomial 0x1021, most significant bit first (R45). -/
def crc16Bit (c : BitVec 16) (b : Bool) : BitVec 16 :=
  if c.msb != b then (c <<< 1) ^^^ 0x1021#16 else c <<< 1

/-- CRC-16 of bits in the order sent: initial value 0xFFFF, no final inversion (R45). -/
def crc16 (l : List Bool) : BitVec 16 := l.foldl crc16Bit 0xFFFF#16

/-- One shift of the reflected CRC-32C register, polynomial 0x1EDC6F41. -/
def crc32cShift (c : Word) : Word := if c.getLsbD 0 then (c >>> 1) ^^^ 0x82F63B78#32 else c >>> 1

/-- One byte into CRC-32C. -/
def crc32cByte (c : Word) (b : Byte) : Word :=
  let c := c ^^^ b.zeroExtend 32
  crc32cShift (crc32cShift (crc32cShift (crc32cShift (crc32cShift (crc32cShift (crc32cShift (crc32cShift c)))))))

/-- One bit and one byte into the CRC-32 of an Ethernet frame's FCS, polynomial 0x04C11DB7 reflected. -/
def crc32Shift (c : Word) : Word := if c.getLsbD 0 then (c >>> 1) ^^^ 0xEDB88320#32 else c >>> 1
def crc32Byte (c : Word) (b : Byte) : Word := (List.range 8).foldl (fun c _ => crc32Shift c) (c ^^^ b.zeroExtend 32)
/-- The FCS of a frame's bytes. -/
def crc32 (l : List Byte) : Word := ~~~(l.foldl crc32Byte 0xFFFFFFFF#32)

/-- CRC-32C of bytes: initial value and final inversion all ones. -/
def crc32c (l : List Byte) : Word := ~~~(l.foldl crc32cByte 0xFFFFFFFF#32)

end Sys2Proof.Machine
end

