-- ==== Sys2Proof/Machine/Fp.lean ====
section
/-!
DEFINITION. Binary32 arithmetic as the Gloit engines do it (spec/05_gloit_isa.md R124-R128): exact integer arithmetic, one
rounding to nearest even, subnormals read and written as zero, one canonical NaN.
-/

namespace Sys2Proof.Machine

/-- Sign bit, biased exponent and fraction of a pattern. -/
def Fp.neg (w : Word) : Bool := w.msb
def Fp.expo (w : Word) : Nat := (w.extractLsb' 23 8).toNat
def Fp.frac (w : Word) : Nat := (w.extractLsb' 0 23).toNat

def Fp.isNan (w : Word) : Bool := decide (Fp.expo w = 255) && decide (Fp.frac w ≠ 0)
def Fp.isInf (w : Word) : Bool := decide (Fp.expo w = 255) && decide (Fp.frac w = 0)
def Fp.finite (w : Word) : Bool := decide (Fp.expo w ≠ 255)

/-- The canonical NaN. -/
abbrev Fp.nan : Word := 0x7FC00000#32
abbrev Fp.one : Word := 0x3F800000#32
/-- A zero and an infinity of a sign. -/
def Fp.zero (neg : Bool) : Word := if neg then 0x80000000#32 else 0#32
def Fp.inf (neg : Bool) : Word := if neg then 0xFF800000#32 else 0x7F800000#32

/-- The magnitude of a finite pattern times 2^149; a subnormal reads as 0 (R124). -/
def Fp.mag (w : Word) : Nat := if Fp.expo w = 0 then 0 else (2 ^ 23 + Fp.frac w) * 2 ^ (Fp.expo w - 1)

/-- The value of a finite pattern times 2^149. -/
def Fp.val (w : Word) : Int := if Fp.neg w then -Int.ofNat (Fp.mag w) else Int.ofNat (Fp.mag w)

/-- n / 2^s rounded to nearest, ties to even. -/
def Fp.rne (n s : Nat) : Nat :=
  let q := n / 2 ^ s
  let r := n % 2 ^ s
  if 2 ^ s < 2 * r ∨ (2 * r = 2 ^ s ∧ q % 2 = 1) then q + 1 else q

/-- n / d rounded to nearest, ties to even. -/
def Fp.divRne (n d : Nat) : Nat :=
  let q := n / d
  let r := n % d
  if d < 2 * r ∨ (2 * r = d ∧ q % 2 = 1) then q + 1 else q

/-- The pattern of magnitude n / 2^k: rounded once, to a signed infinity on overflow, and a subnormal result to zero (R124). -/
def Fp.round (neg : Bool) (n k : Nat) : Word :=
  if n = 0 then Fp.zero neg
  else
    -- the result is m * 2^q, q the exponent of one unit of the last place
    let q : Int := max (Int.ofNat (Nat.log2 n) - Int.ofNat k - 23) (-149)
    let s : Int := Int.ofNat k + q
    let m := if s < 0 then n * 2 ^ (-s).toNat else Fp.rne n s.toNat
    let e : Int := q + 150
    if m < 2 ^ 23 then Fp.zero neg
    else
      let (m, e) := if m = 2 ^ 24 then (2 ^ 23, e + 1) else (m, e)
      if 255 ≤ e then Fp.inf neg
      else BitVec.ofNat 32 ((if neg then 2 ^ 31 else 0) + e.toNat * 2 ^ 23 + (m - 2 ^ 23))

/-- The pattern of x / 2^k; an exact zero takes the sign given. -/
def Fp.ofInt (x : Int) (k : Nat) (zeroNeg : Bool := false) : Word :=
  if x = 0 then Fp.zero zeroNeg else Fp.round (decide (x < 0)) x.natAbs k

/-- The pattern of a natural number. -/
def Fp.ofNat (n : Nat) : Word := Fp.round false n 0

/-- The pattern with its sign inverted; no arithmetic. -/
def Fp.flip (w : Word) : Word := w ^^^ 0x80000000#32

/-- a x b + c, rounded once (Table GI-4). -/
def Fp.fma (a b c : Word) : Word :=
  let p := Fp.neg a != Fp.neg b
  if Fp.isNan a || Fp.isNan b || Fp.isNan c then Fp.nan
  else if Fp.isInf a || Fp.isInf b then
    if (Fp.finite a && decide (Fp.mag a = 0)) || (Fp.finite b && decide (Fp.mag b = 0)) || (Fp.isInf c && (Fp.neg c != p))
    then Fp.nan else Fp.inf p
  else if Fp.isInf c then Fp.inf (Fp.neg c)
  else Fp.ofInt (Fp.val a * Fp.val b + Fp.val c * 2 ^ 149) 298 (p && Fp.neg c)

def Fp.add (a b : Word) : Word := Fp.fma a Fp.one b
def Fp.sub (a b : Word) : Word := Fp.fma a Fp.one (Fp.flip b)
def Fp.mul (a b : Word) : Word := Fp.fma a b (Fp.zero (Fp.neg a != Fp.neg b))
def Fp.fms (a b c : Word) : Word := Fp.fma a b (Fp.flip c)

/-- A subnormal reads as zero of its sign; a NaN is canonical. -/
def Fp.flush (w : Word) : Word :=
  if Fp.isNan w then Fp.nan else if Fp.expo w = 0 then Fp.zero (Fp.neg w) else w

def Fp.abs (a : Word) : Word := if Fp.isNan a then Fp.nan else Fp.flush (a &&& 0x7FFFFFFF#32)
def Fp.negate (a : Word) : Word := if Fp.isNan a then Fp.nan else Fp.flush (Fp.flip a)

/-- A key that orders flushed numbers, -0 below +0. -/
def Fp.key (w : Word) : Int :=
  let w := Fp.flush w
  if Fp.neg w then -Int.ofNat (w &&& 0x7FFFFFFF#32).toNat - 1 else Int.ofNat w.toNat

/-- Smaller and larger of two; either NaN gives the canonical NaN (Table GI-4). -/
def Fp.min (a b : Word) : Word :=
  if Fp.isNan a || Fp.isNan b then Fp.nan else if Fp.key a ≤ Fp.key b then Fp.flush a else Fp.flush b
def Fp.max (a b : Word) : Word :=
  if Fp.isNan a || Fp.isNan b then Fp.nan else if Fp.key a ≤ Fp.key b then Fp.flush b else Fp.flush a
def Fp.clamp (a low high : Word) : Word := Fp.min (Fp.max a low) high

/-- Comparisons of flushed values, +0 equal to -0; false where either is NaN (R128). -/
def Fp.cmpKey (w : Word) : Int :=
  if Fp.expo w = 0 then 0 else if Fp.neg w then -Int.ofNat (w &&& 0x7FFFFFFF#32).toNat else Int.ofNat w.toNat
def Fp.ord (a b : Word) : Bool := !Fp.isNan a && !Fp.isNan b
def Fp.eq (a b : Word) : Bool := Fp.ord a b && decide (Fp.cmpKey a = Fp.cmpKey b)
def Fp.lt (a b : Word) : Bool := Fp.ord a b && decide (Fp.cmpKey a < Fp.cmpKey b)
def Fp.le (a b : Word) : Bool := Fp.ord a b && decide (Fp.cmpKey a ≤ Fp.cmpKey b)

/-- The bits of a square root, from bit `b` down. -/
def Fp.sqrtAux (x : Nat) : Nat → Nat → Nat
  | 0, r => r
  | b + 1, r => Fp.sqrtAux x b (if (r + 2 ^ b) * (r + 2 ^ b) ≤ x then r + 2 ^ b else r)

/-- The integer square root. -/
def Fp.isqrt (x : Nat) : Nat := Fp.sqrtAux x (Nat.log2 x / 2 + 1) 0

/-- A magnitude n / 2^k rounded to 15 significant bits with an unbounded exponent, then flushed below 2^-126 (R127). -/
def Fp.round15 (neg : Bool) (n k : Nat) : Word :=
  let s := Nat.log2 n - 14
  Fp.round neg (Fp.rne n s * 2 ^ s) k

/-- The approximation of 1/a (R127). The quotient is taken to 400 places with its remainder as a last sticky bit. -/
def Fp.rcp (a : Word) : Word :=
  if Fp.isNan a then Fp.nan
  else if Fp.isInf a then Fp.zero (Fp.neg a)
  else if Fp.mag a = 0 then Fp.inf (Fp.neg a)
  else
    let n := 2 ^ 549
    Fp.round15 (Fp.neg a) (2 * (n / Fp.mag a) + if n % Fp.mag a = 0 then 0 else 1) 401

/-- The approximation of 1/sqrt(a) (R127). -/
def Fp.rsq (a : Word) : Word :=
  if Fp.isNan a then Fp.nan
  else if Fp.isInf a then (if Fp.neg a then Fp.nan else Fp.zero false)
  else if Fp.mag a = 0 then Fp.inf (Fp.neg a)
  else if Fp.neg a then Fp.nan
  else
    let x := 2 ^ 549
    let r := Fp.isqrt (x / Fp.mag a)
    Fp.round15 false (2 * r + if r * r * Fp.mag a = x then 0 else 1) 201

/-- A finite value times num / den, rounded half to even to an integer; its sign is the value's. -/
def Fp.scaleRne (w : Word) (num den : Nat) : Int :=
  let m := Int.ofNat (Fp.divRne (Fp.mag w * num) (den * 2 ^ 149))
  if Fp.neg w then -m else m

end Sys2Proof.Machine
end

