-- ==== Sys2Proof/Machine/Operands.lean ====
section
/-!
DEFINITION. Operand forms of the Gloit set: masks, register and immediate sources, the writes of lanes and the NaN sticky bits
(spec/05_gloit_isa.md R118-R125), and the events an engine queues (R138).
-/

namespace Sys2Proof.Machine

/-- Engine e runs frame programs (ENG_STAT.RUNNING). -/
def engRuns (s : State) (e : Nat) : Bool := bit s (A.engStat e) 31

/-- The execution mask M (R121). -/
def maskOf (s : State) (e : Nat) : Mask → BitVec 16
  | .all => 0xFFFF#16
  | .pred p inv => if inv then ~~~(preg s e (p + 1)) else preg s e (p + 1)

/-- The lanes where M is 1, rising. -/
def lanesOn (s : State) (e : Nat) (m : Mask) : List Nat := (List.range 16).filter (maskOf s e m).getLsbD

/-- The mask of a list of lanes. -/
def laneSet (l : List Nat) : BitVec 16 := l.foldl (fun a i => a ||| BitVec.twoPow 16 i) 0#16

/-- A vector source in lane l. -/
def vsrc (s : State) (e : Nat) (b : VSrc) (l : Nat) : Word := match b with
  | .reg r => vreg s e r l
  | .imm w => w

/-- A scalar source. -/
def ssrc (s : State) (e : Nat) : SSrc → Word
  | .reg r => sreg s e r
  | .imm w => w

/-- A shift count. -/
def shsrc (s : State) (e : Nat) : ShSrc → Nat
  | .reg r => (sreg s e r).toNat % 32
  | .imm n => n

/-- Lanes of Vd take their values. -/
def vwrite (e d : Nat) (l : List (Nat × Word)) : Act := updEng fun x => { x with
  vregs := l.foldl (fun v p => sset (fun _ => 0#32) v ((32 * e + d) * 16 + p.1) p.2) x.vregs }

/-- NaN results set the sticky bits of their lanes; ENG_EVT.NAN reports a bit that was 0 (R124). -/
def sticky (e : Nat) (lanes : BitVec 16) : Act := .look fun s =>
  let old := (rd s (A.engNanstk e)).truncate 16
  .all [
    wrNat (A.engNanstk e) (old ||| lanes).toNat,
    Act.when (decide (lanes &&& ~~~old ≠ 0#16)) (setBit (A.engEvt e) 1)]

/-- A masked instruction that copies patterns: enabled lanes of Vd take `f` (R122, R125). -/
def vcopy (e : Nat) (m : Mask) (d : Nat) (f : State → Nat → Word) : Act := .look fun s =>
  vwrite e d ((lanesOn s e m).map fun l => (l, f s l))

/-- A masked instruction that computes: as `vcopy`, and NaN results set sticky bits. -/
def varith (e : Nat) (m : Mask) (d : Nat) (f : State → Nat → Word) : Act := .look fun s =>
  let rs := (lanesOn s e m).map fun l => (l, f s l)
  .all [vwrite e d rs, sticky e (laneSet ((rs.filter fun p => Fp.isNan p.2).map (·.1)))]

/-- Enabled lanes of Pd take `f`. -/
def pmasked (e : Nat) (m : Mask) (d : Nat) (f : State → Nat → Bool) : Act := .look fun s =>
  let on := maskOf s e m
  setPreg e d ((preg s e d &&& ~~~on) ||| laneSet ((lanesOn s e m).filter (f s)))

/-- The loop index of lane l of the current group (R102, R105). -/
def loopAt (s : State) (e l : Nat) : Nat := 16 * (engOf s e).gb + l
/-- The element of lane l of the current group. -/
def elemAt (s : State) (e l : Nat) : Nat := 112 * e + loopAt s e l

/-- The lane frame that begins next: FRAME of an engine frame that begins now (Table GI-6). -/
def frameNo (s : State) : Nat := s.tim.frames + 1

/-- An entry of the event queue; one that finds it full is dropped and counted (R138, Table GI-8). -/
def queueEvt (e code : Nat) (lanes : BitVec 16) : Act := .look fun s => updEngN e fun x =>
  if 32 ≤ x.evq.length then { x with dropped := x.dropped + 1 }
  else { x with
    evq := x.evq ++ [BitVec.ofNat 64 (code % 2 ^ 16 * 2 ^ 48 + lanes.toNat * 2 ^ 32 + x.gb * 2 ^ 29 +
      min x.dropped 255 * 2 ^ 16 + s.eng.frame % 2 ^ 16)],
    dropped := 0 }

/-- The engine issues instructions: it runs, its frame program has begun and has not ended (R104, R137), and the device is not in the safe state
(Table FT-5). -/
def issues (s : State) (e : Nat) : Bool := engRuns s e && (engOf s e).active && !inSafe s

/-- The instruction is issued by an engine that issues: its effect, then the next index and its cycles (R119). -/
def issue (e cost : Nat) (a : Act) : Act := .whenS (fun s => issues s e)
  (.all [a, updEngN e fun x => { x with pc := x.pc + 1, cycle := x.cycle + cost }])

/-- As `issue`, for an instruction that says itself where execution continues. -/
def issueFlow (e : Nat) (f : State → Eng → Eng) : Act := .whenS (fun s => issues s e)
  (.look fun s => updEngN e fun x => { f s x with cycle := x.cycle + 1 })

/-- An uncorrectable word of an engine memory was read (R115, R134). -/
def isBad (s : State) (a : Nat) : Bool := s.memBad.contains a

end Sys2Proof.Machine
end

