-- ==== Sys2Proof/Machine/Gloit.lean ====
section
/-!
DEFINITION. The Gloit instructions (spec/05_gloit_isa.md R123-R142): what an engine does when it issues each of them.
-/

namespace Sys2Proof.Machine

/-! ## Shared meanings -/

/-- The special value of a selector (Table GI-6). -/
def specReg (s : State) (e : Nat) : SpecReg → Word
  | .gb => BitVec.ofNat 32 (engOf s e).gb
  | .frame => BitVec.ofNat 32 s.eng.frame
  | .engine => BitVec.ofNat 32 e
  | .rot => BitVec.ofNat 32 (rotOf s e)
  | .spev => (engOf s e).spev
  | .cycle => BitVec.ofNat 32 (engOf s e).cycle

/-- A compare condition between two lanes (Table GI-5). -/
def cmpHolds (c : Cmp) (a b : Word) : Bool := match c with
  | .eq => Fp.eq a b
  | .ne => !Fp.eq a b
  | .lt => Fp.lt a b
  | .le => Fp.le a b
  | .gt => Fp.lt b a
  | .ge => Fp.le b a
  | .ord => Fp.ord a b
  | .unord => !Fp.ord a b

/-- A branch condition (Table GI-7). -/
def branchTaken (s : State) (e : Nat) : BrCond → Bool
  | .al => true
  | .eqz a => sreg s e a == 0#32
  | .nez a => sreg s e a != 0#32
  | .lt a b => (sreg s e a).slt (sreg s e b)
  | .ge a b => !(sreg s e a).slt (sreg s e b)
  | .eq a b => sreg s e a == sreg s e b
  | .ne a b => sreg s e a != sreg s e b
  | .ltu a b => (sreg s e a).ult (sreg s e b)
  | .geu a b => !(sreg s e a).ult (sreg s e b)

/-- Physical address of word w of lane l of the current group. -/
def groupWord (s : State) (e l w : Nat) : Nat := lsmAddr e (loopAt s e l) (physWord (rotOf s e) w)

/-- An engine read an uncorrectable LSM word of its current group: ENG_LSMERR, LSM_UNCORR, Umpire source LSM_UE (R115). ENG_LSMERR shows the
latest such read, whether its VALID was set or not (DEDUCED, log entry 91). -/
def lsmError (e w : Nat) : Act := .look fun s =>
  let v := 128 * (engOf s e).gb + w
  .all [
    wrNat (A.engLsmerr e) (2 ^ 31 + v),
    setBit (A.engEvt e) 6,
    raise { src := 282 + 4 * (e / 8), master := e, access := 1, addr := v, detail := e }]

/-- LD: patterns unchanged; a bad word gives the canonical NaN, its sticky bit and the error record (R125, R133). -/
def loadWord (e : Nat) (m : Mask) (d w : Nat) : Act := .look fun s =>
  let bad := (lanesOn s e m).filter fun l => isBad s (groupWord s e l w)
  .all [
    vcopy e m d fun s l => if isBad s (groupWord s e l w) then Fp.nan else readWord s.mem (groupWord s e l w),
    sticky e (laneSet bad),
    Act.each bad fun _ => lsmError e w]

/-- ST: words 104-127 are protected (R106, R133). -/
def storeWord (e : Nat) (m : Mask) (a w : Nat) : Act := .look fun s =>
  if 104 ≤ w then setBit (A.engEvt e) 5
  else Act.each (lanesOn s e m) fun l => setLsmWord e (loopAt s e l) w (vreg s e a l)

/-- LDS: one lane of the current group into Sd. -/
def loadScalar (e d lane w : Nat) : Act := .look fun s =>
  if isBad s (groupWord s e lane w) then .all [setSreg e d Fp.nan, lsmError e w]
  else setSreg e d (readWord s.mem (groupWord s e lane w))

/-- BAR2 address of the table memory of cluster c, and the places of Table LE-3 in it. -/
abbrev tableBase (c : Nat) : Nat := 0x2000000 + 0x100000 * c
abbrev auxBase (c : Nat) : Nat := tableBase c + 0xE0000
abbrev ectBase (c j : Nat) : Nat := tableBase c + 1024 * j

/-- An uncorrectable table word at byte offset `o` of cluster c was read by engine `e`: TBL_UNCORR, the first one's address,
the count, Umpire source TBL_UE (R115, R134). -/
def tableError (c o e : Nat) : Act := .look fun s => .all [
  Act.when (decide (o < 0xE0000)) (updEng fun x => { x with
    ectWait := if x.ectWait.contains (896 * c + o / 1024) then x.ectWait else x.ectWait ++ [896 * c + o / 1024] }),
  Act.when (!bit s (A.tblErraddr c) 31) (wrNat (A.tblErraddr c) (2 ^ 31 + o)),
  bump (A.tblEcccnt c) 31 16,
  setBit (A.cluEvt c) 3,
  raise { src := 283 + 4 * c, master := e, access := 1, addr := o / 4, detail := e }]

/-- TLD (R134). -/
def tableLoad (e d a : Nat) (ofs : Word) : Act := .look fun s =>
  let o := (sreg s e a + ofs).toNat
  let p := auxBase (e / 8) + o
  if o % 4 ≠ 0 ∨ 129920 ≤ o then .all [setSreg e d 0#32, queueEvt e 0xFF01 0#16]
  else if isBad s p then .all [setSreg e d Fp.nan, tableError (e / 8) (0xE0000 + o) e]
  else setSreg e d (readWord s.mem p)

/-- The flags an IN.MON selects, on one sample. -/
def flagged (f : FlagSel) (x : Sample) : Bool :=
  (f.missing && x.missing) || (f.sat && x.sat) || (f.frozen && x.frozen) || (f.stale && x.stale) || (f.hold && x.laneHold)

/-- The value of a sample: its code, or volts, -1/16 + n / 16,384 (R139). -/
def sampleValue (volts : Bool) (x : Sample) : Word :=
  if volts then Fp.ofInt (Int.ofNat x.code.toNat - 1024) 14 else Fp.ofNat x.code.toNat

/-- IN.MON (R139). -/
def readMonitors (e : Nat) (m : Mask) (d : Nat) (point volts : Bool) (fout : Option (Fin 8 × FlagSel)) : Act :=
  .look fun s =>
    let x (l : Nat) : Sample := sampleOf s (elemAt s e l) point.toNat
    let on := lanesOn s e m
    .all [
      vwrite e d (on.map fun l => (l, sampleValue volts (x l))),
      (match fout with
        | none => .done
        | some (p, f) =>
          setPreg e p ((preg s e p &&& ~~~(laneSet on)) ||| laneSet (on.filter fun l => flagged f (x l))))]

/-- OUT.DRV (R140): a number is the loop's drive in volts, a NaN its park marker. -/
def writeDrives (e : Nat) (m : Mask) (a : Nat) : Act := .look fun s =>
  let on := lanesOn s e m
  let nan := on.filter fun l => Fp.isNan (vreg s e a l)
  .all [
    updEng fun x => { x with
      drvFill := on.foldl (fun v l => sset (fun _ => .park) v (elemAt s e l)
        (if Fp.isNan (vreg s e a l) then .park else .volts (vreg s e a l))) x.drvFill },
    updEngN e fun x => { x with done := x.done ||| BitVec.twoPow 7 x.gb },
    Act.each nan fun l =>
      let n := lanePairOf (elemAt s e l)
      .all [bump (A.edlNancnt n) 15 0, event (A.edlStat n) 8 (184 + 2 * (n / 16)) e n],
    Act.when (!nan.isEmpty) (queueEvt e 0xFF00 (laneSet nan))]

/-! ## Tones (R141) -/

/-- Full scale of an element's lane in 1/2 V: its active range. -/
def fullScale2 (s : State) (n : Nat) : Nat := if bit s (A.edlStat (lanePairOf n)) 1 then 2 else 1

/-- The frequency lies in the band of its KIND (Table CV-2). -/
def toneBand (s : State) (pilot : Bool) (f : Nat) : Bool :=
  if pilot then
    decide ((rd s A.pilotBase).toNat ≤ f) && decide (f ≤ (rd s A.pilotBase).toNat + 1023 * (rd s A.pilotStep).toNat)
  else
    decide ((rd s A.ditherLo).toNat ≤ f) &&
    decide (f ≤ (if bit s A.toneCtrl 2 then rd s A.ditherPsafe else rd s A.ditherHi).toNat)

/-- An index 0-1,023 held as a number. -/
def planIndex (w : Word) : Option Nat :=
  if Fp.finite w && !(Fp.neg w && decide (Fp.mag w ≠ 0)) && decide (Fp.mag w % 2 ^ 149 = 0) && decide (Fp.mag w / 2 ^ 149 < 1024)
  then some (Fp.mag w / 2 ^ 149) else none

/-- A finite number that is not below zero. -/
def nonNegative (w : Word) : Bool := Fp.finite w && !(Fp.neg w && decide (Fp.mag w ≠ 0))

/-- The frequency an element's context has, counting an update of this frame and one of the frame before that is due. -/
def presentFreq (s : State) (n : Nat) : Word :=
  (((sget (fun _ => none) s.eng.tonePend n).bind ToneUpd.freq).or ((sget (fun _ => none) s.eng.toneDue n).bind ToneUpd.freq)).getD
    (toneOf s (lanePairOf n) (slotOf n)).freq

/-- The frequency that a TONE asks for with `w` in Vf, where it is one. -/
def toneFreq (s : State) (n : Nat) (w : Word) : ToneFreq → Option Nat
  | .keep _ => some (presentFreq s n).toNat
  | .hz _ =>
    if !nonNegative w then none
    else
      let x := (Fp.scaleRne w (2 ^ 32) 4000000).toNat
      if 2 ^ 32 ≤ x then none else some x
  | .ditherPlan step => (planIndex w).map fun i => ((rd s A.ditherLo).toNat + i * step.toNat) % 2 ^ 32
  | .pilotPlan => (planIndex w).map fun i => ((rd s A.pilotBase).toNat + i * (rd s A.pilotStep).toNat) % 2 ^ 32

/-- KIND of a TONE. -/
def tonePilot : ToneFreq → Bool
  | .keep p => p
  | .hz p => p
  | .ditherPlan _ => false
  | .pilotPlan => true

/-- Phase in turns as a 32-bit accumulator: the fraction of p, rounded half to even, modulo 2^32. -/
def phaseOf (p : Word) : Word :=
  let f := (Fp.val p % 2 ^ 149).toNat
  BitVec.ofNat 32 (Fp.divRne (f * 2 ^ 32) (2 ^ 149))

/-- A refused update: counted, with TONE_STAT.REFUSED and Umpire source TONE_CFG (R74). -/
def toneRefused (e : Nat) : Act := .all [bump A.refuseCnt 15 0, event A.toneStat 0 256 e e]

/-- A tone update is kept for the next drives; a field that it does not write keeps what an earlier TONE of the frame gave. -/
def pendTone (n : Nat) (u : ToneUpd) : Act := updEng fun x => { x with
  tonePend := smod (fun _ => none) x.tonePend n fun o =>
    let p := o.getD {}
    some {
      freq := u.freq.or p.freq, amp := u.amp.or p.amp, phase := u.phase.or p.phase, pilot := u.pilot,
      older := if u.amp.isSome then p.amp.toList ++ p.older else p.older } }

/-- One TONE update of element n: frequency part with Vf, and the amplitude and phase where they are written (R141). An update that is refused
for its phase counts once, whatever its amplitude (DESIGN CHOICE, log entry 124). -/
def toneUpdate (e n : Nat) (f : ToneFreq) (w : Word) (a p : Option Word) : Act := .look fun s =>
  match toneFreq s n w f with
  | none => toneRefused e
  | some x =>
    if !toneBand s (tonePilot f) x || a.any (!nonNegative ·) || p.any (!Fp.finite ·) then toneRefused e
    else pendTone n {
      freq := match f with
        | .keep _ => none
        | _ => some (BitVec.ofNat 32 x),
      amp := a, phase := p.map phaseOf, pilot := tonePilot f }

/-- TONE: a register whose write bit is 0 is not read. -/
def writeTones (e : Nat) (m : Mask) (f : ToneFreq) (wa wp : Bool) (vf vamp vph : Fin 32) : Act := .look fun s =>
  Act.each (lanesOn s e m) fun l => toneUpdate e (elemAt s e l) f (vreg s e vf l)
    (if wa then some (vreg s e vamp l) else none) (if wp then some (vreg s e vph l) else none)

/-- The amplitude code of a voltage in the range in force, capped at 2,048 (R141). -/
def toneAmp (s : State) (n : Nat) (a : Word) : Nat := (Fp.scaleRne a 65536 (fullScale2 s n)).toNat

/-- The tone updates that are due take effect at the start of a lane frame, with the drives of the same program and in the range in force there
(R74, R141). Every TONE whose amplitude exceeds 2,048 counts, one that a later TONE of the frame supersedes too (log entry 124). -/
def applyTones : Act := .look fun s => .all [
  Act.each s.eng.toneDue fun p => match p.2 with
    | none => .done
    | some u => .look fun s =>
      let c := toneOf s (lanePairOf p.1) (slotOf p.1)
      let a := u.amp.map (toneAmp s p.1)
      .all [
        setTone (lanePairOf p.1) (slotOf p.1) {
          freq := u.freq.getD c.freq, phase := u.phase.getD c.phase, amp := min 2048 (a.getD c.amp), pilot := u.pilot },
        bump A.refuseCnt 15 0 (((u.amp.toList ++ u.older).filter fun v => decide (2048 < toneAmp s p.1 v)).length)],
  updEng fun x => { x with toneDue := [] }]

/-- At the start of an engine frame the updates of the frame before become due for its lane frame; one that is still due, where no lane frame
began in between, takes effect first. -/
def dueTones : Act := .all [applyTones, updEng fun x => { x with toneDue := x.tonePend, tonePend := [] }]

/-! ## Table lookups (R142) -/

/-- Local index of an element in its tile's ECT (R112). -/
abbrev ectIndex (n : Nat) : Nat := n % 896

/-- The shadow that lookups of element n are redirected to, while they are (R114). -/
def shadowOf (s : State) (n : Nat) : Option (List Byte) :=
  (sget (fun _ => none) s.eng.ect (n / 896)).bind fun u => if u.elem = n ∧ 1 ≤ u.frames then some u.image else none

/-- Entry k of element n's table as a LUT sees it. -/
def ectEntry (s : State) (n k : Nat) : Word := match shadowOf s n with
  | some im => BitVec.ofNat 32 (leAt im (4 * k) 4)
  | none => readWord s.mem (ectBase (n / 896) (ectIndex n) + 4 * k)

/-- Index of the first of the entries that x touches, and whether it touches the next too. -/
def lutIndex (x : Word) : Nat × Bool :=
  if Fp.le x 0#32 then (0, false)
  else if Fp.le Fp.one x then (255, false)
  else (min (Fp.mag (Fp.mul x 0x437F0000#32) / 2 ^ 149) 254, true)

/-- The first uncorrectable word that the lookup of x touches: its entry. -/
def lutBadAt (s : State) (n : Nat) (x : Word) : Option Nat :=
  let p := ectBase (n / 896) (ectIndex n)
  let i := lutIndex x
  if (shadowOf s n).isSome then none
  else if isBad s (p + 4 * i.1) then some i.1
  else if i.2 && isBad s (p + 4 * (i.1 + 1)) then some (i.1 + 1) else none

/-- A word that the lookup of x touches is uncorrectable. -/
def lutBad (s : State) (n : Nat) (x : Word) : Bool := (lutBadAt s n x).isSome

/-- The lookup of R142. A subnormal entry that a lookup at an end of the range returns whole is not flushed (DEDUCED, log entry 124). -/
def lutValue (s : State) (n : Nat) (x : Word) : Word :=
  if Fp.isNan x || !bit s (A.cluStat (n / 896)) 31 || lutBad s n x then Fp.nan
  else
    let i := lutIndex x
    let a := ectEntry s n i.1
    let r := if i.2 then Fp.fma (Fp.sub (Fp.mul x 0x437F0000#32) (Fp.ofNat i.1)) (Fp.sub (ectEntry s n (i.1 + 1)) a) a else a
    if Fp.isNan r then Fp.nan else r

/-- A lookup of x by element n touched an uncorrectable word: its element's table is reloaded from the master through the shadow (R115). -/
def lutError (e n : Nat) (x : Word) : Act := .look fun s =>
  if Fp.isNan x || !bit s (A.cluStat (e / 8)) 31 then .done
  else Act.each (lutBadAt s n x).toList fun k => tableError (e / 8) (1024 * ectIndex n + 4 * k) e

/-- LUT. -/
def lookUp (e : Nat) (m : Mask) (d a : Nat) : Act := .look fun s => .all [
  varith e m d fun s l => lutValue s (elemAt s e l) (vreg s e a l),
  Act.each (lanesOn s e m) fun l => lutError e (elemAt s e l) (vreg s e a l)]

/-! ## The instructions -/

/-- NOP (R123). -/
def gNop (e : Nat) : Act := issue e 1 (.done)

def execGNop (e : Fin 96) (s : State) : Host.Outcome State Fault Refusal := (gNop e).next s

/-- END (R137): ENG_CYC takes the cycles to END. -/
def gEnd (e : Nat) : Act := .whenS (fun s => issues s e) (.look fun s =>
  let c := (engOf s e).cycle + 1
  .all [
    issueFlow e (fun _ x => { x with active := false }),
    wrNat (A.engCyc e) (max c (fld s (A.engCyc e) 31 16) * 2 ^ 16 + c)])

def execGEnd (e : Fin 96) (s : State) : Host.Outcome State Fault Refusal := (gEnd e).next s

/-- GRP (R135). -/
def gGrp (e : Nat) : Act := issueFlow e (fun _ x => { x with gb := 0, inBody := true, grpPc := x.pc + 1, pc := x.pc + 1 })

def execGGrp (e : Fin 96) (s : State) : Host.Outcome State Fault Refusal := (gGrp e).next s

/-- GNEXT (R135). -/
def gGnext (e : Nat) : Act := issueFlow e (fun _ x =>
  if x.gb + 1 < 7 then { x with gb := x.gb + 1, pc := x.grpPc } else { x with gb := 0, inBody := false, pc := x.pc + 1 })

def execGGnext (e : Fin 96) (s : State) : Host.Outcome State Fault Refusal := (gGnext e).next s

/-- BR (R136). -/
def gBr (e : Nat) (c : BrCond) (target : BitVec 12) : Act := issueFlow e (fun s x => { x with pc := if branchTaken s e c then target.toNat else x.pc + 1 })

def execGBr (e : Fin 96) (c : BrCond) (target : BitVec 12) (s : State) : Host.Outcome State Fault Refusal := (gBr e c target).next s

/-- EVT (R138). -/
def gEvt (e : Nat) (m : Mask) (code : BitVec 16) : Act :=
  issue e 1 (.look fun s => Act.when (decide (maskOf s e m ≠ 0#16)) (queueEvt e code.toNat (maskOf s e m)))

def execGEvt (e : Fin 96) (m : Mask) (code : BitVec 16) (s : State) : Host.Outcome State Fault Refusal := (gEvt e m code).next s

/-- RDSR (R132). -/
def gRdsr (e : Nat) (d : Fin 32) (sel : SpecReg) : Act := issue e 1 (.look fun s => setSreg e d (specReg s e sel))

def execGRdsr (e : Fin 96) (d : Fin 32) (sel : SpecReg) (s : State) : Host.Outcome State Fault Refusal := (gRdsr e d sel).next s

/-- FADD (R126). -/
def gFadd (e : Nat) (m : Mask) (d a : Fin 32) (b : VSrc) : Act :=
  issue e 1 (varith e m d fun s l => Fp.add (vreg s e a l) (vsrc s e b l))

def execGFadd (e : Fin 96) (m : Mask) (d a : Fin 32) (b : VSrc) (s : State) : Host.Outcome State Fault Refusal := (gFadd e m d a b).next s

/-- FSUB (R126). -/
def gFsub (e : Nat) (m : Mask) (d a : Fin 32) (b : VSrc) : Act :=
  issue e 1 (varith e m d fun s l => Fp.sub (vreg s e a l) (vsrc s e b l))

def execGFsub (e : Fin 96) (m : Mask) (d a : Fin 32) (b : VSrc) (s : State) : Host.Outcome State Fault Refusal := (gFsub e m d a b).next s

/-- FMUL (R126). -/
def gFmul (e : Nat) (m : Mask) (d a : Fin 32) (b : VSrc) : Act :=
  issue e 1 (varith e m d fun s l => Fp.mul (vreg s e a l) (vsrc s e b l))

def execGFmul (e : Fin 96) (m : Mask) (d a : Fin 32) (b : VSrc) (s : State) : Host.Outcome State Fault Refusal := (gFmul e m d a b).next s

/-- FMA (R126). -/
def gFma (e : Nat) (m : Mask) (d a b : Fin 32) (c : VSrc) : Act :=
  issue e 1 (varith e m d fun s l => Fp.fma (vreg s e a l) (vreg s e b l) (vsrc s e c l))

def execGFma (e : Fin 96) (m : Mask) (d a b : Fin 32) (c : VSrc) (s : State) : Host.Outcome State Fault Refusal := (gFma e m d a b c).next s

/-- FMS (R126). -/
def gFms (e : Nat) (m : Mask) (d a b : Fin 32) (c : VSrc) : Act :=
  issue e 1 (varith e m d fun s l => Fp.fms (vreg s e a l) (vreg s e b l) (vsrc s e c l))

def execGFms (e : Fin 96) (m : Mask) (d a b : Fin 32) (c : VSrc) (s : State) : Host.Outcome State Fault Refusal := (gFms e m d a b c).next s

/-- FMIN (R126). -/
def gFmin (e : Nat) (m : Mask) (d a : Fin 32) (b : VSrc) : Act :=
  issue e 1 (varith e m d fun s l => Fp.min (vreg s e a l) (vsrc s e b l))

def execGFmin (e : Fin 96) (m : Mask) (d a : Fin 32) (b : VSrc) (s : State) : Host.Outcome State Fault Refusal := (gFmin e m d a b).next s

/-- FMAX (R126). -/
def gFmax (e : Nat) (m : Mask) (d a : Fin 32) (b : VSrc) : Act :=
  issue e 1 (varith e m d fun s l => Fp.max (vreg s e a l) (vsrc s e b l))

def execGFmax (e : Fin 96) (m : Mask) (d a : Fin 32) (b : VSrc) (s : State) : Host.Outcome State Fault Refusal := (gFmax e m d a b).next s

/-- FCLAMP (R126). -/
def gFclamp (e : Nat) (m : Mask) (d a b : Fin 32) (c : VSrc) : Act :=
  issue e 1 (varith e m d fun s l => Fp.clamp (vreg s e a l) (vreg s e b l) (vsrc s e c l))

def execGFclamp (e : Fin 96) (m : Mask) (d a b : Fin 32) (c : VSrc) (s : State) : Host.Outcome State Fault Refusal := (gFclamp e m d a b c).next s

/-- FABS (R126). -/
def gFabs (e : Nat) (m : Mask) (d a : Fin 32) : Act := issue e 1 (varith e m d fun s l => Fp.abs (vreg s e a l))

def execGFabs (e : Fin 96) (m : Mask) (d a : Fin 32) (s : State) : Host.Outcome State Fault Refusal := (gFabs e m d a).next s

/-- FNEG (R126). -/
def gFneg (e : Nat) (m : Mask) (d a : Fin 32) : Act := issue e 1 (varith e m d fun s l => Fp.negate (vreg s e a l))

def execGFneg (e : Fin 96) (m : Mask) (d a : Fin 32) (s : State) : Host.Outcome State Fault Refusal := (gFneg e m d a).next s

/-- FRCP (R127). -/
def gFrcp (e : Nat) (m : Mask) (d a : Fin 32) : Act := issue e 1 (varith e m d fun s l => Fp.rcp (vreg s e a l))

def execGFrcp (e : Fin 96) (m : Mask) (d a : Fin 32) (s : State) : Host.Outcome State Fault Refusal := (gFrcp e m d a).next s

/-- FRSQ (R127). -/
def gFrsq (e : Nat) (m : Mask) (d a : Fin 32) : Act := issue e 1 (varith e m d fun s l => Fp.rsq (vreg s e a l))

def execGFrsq (e : Fin 96) (m : Mask) (d a : Fin 32) (s : State) : Host.Outcome State Fault Refusal := (gFrsq e m d a).next s

/-- VMOV (R125). -/
def gVmov (e : Nat) (m : Mask) (d a : Fin 32) : Act := issue e 1 (vcopy e m d fun s l => vreg s e a l)

def execGVmov (e : Fin 96) (m : Mask) (d a : Fin 32) (s : State) : Host.Outcome State Fault Refusal := (gVmov e m d a).next s

/-- VMOV.I (R125). -/
def gVmovI (e : Nat) (m : Mask) (d : Fin 32) (w : BitVec 32) : Act := issue e 1 (vcopy e m d fun _ _ => w)

def execGVmovI (e : Fin 96) (m : Mask) (d : Fin 32) (w : BitVec 32) (s : State) : Host.Outcome State Fault Refusal := (gVmovI e m d w).next s

/-- VIDX (R126). -/
def gVidx (e : Nat) (m : Mask) (d : Fin 32) : Act := issue e 1 (varith e m d fun s l => Fp.ofNat (loopAt s e l))

def execGVidx (e : Fin 96) (m : Mask) (d : Fin 32) (s : State) : Host.Outcome State Fault Refusal := (gVidx e m d).next s

/-- FCMP (R128). -/
def gFcmp (e : Nat) (cc : Cmp) (m : Mask) (d : Fin 8) (a b : Fin 32) : Act :=
  issue e 1 (pmasked e m d fun s l => cmpHolds cc (vreg s e a l) (vreg s e b l))

def execGFcmp (e : Fin 96) (cc : Cmp) (m : Mask) (d : Fin 8) (a b : Fin 32) (s : State) : Host.Outcome State Fault Refusal := (gFcmp e cc m d a b).next s

/-- FCMP.I (R128). -/
def gFcmpI (e : Nat) (cc : Cmp) (m : Mask) (d : Fin 8) (a : Fin 32) (w : BitVec 32) : Act :=
  issue e 1 (pmasked e m d fun s l => cmpHolds cc (vreg s e a l) w)

def execGFcmpI (e : Fin 96) (cc : Cmp) (m : Mask) (d : Fin 8) (a : Fin 32) (w : BitVec 32) (s : State) : Host.Outcome State Fault Refusal := (gFcmpI e cc m d a w).next s

/-- SEL (R129). -/
def gSel (e : Nat) (m : Mask) (d a b : Fin 32) (c : Fin 8) : Act :=
  issue e 1 (vcopy e m d fun s l => if (preg s e c).getLsbD l then vreg s e a l else vreg s e b l)

def execGSel (e : Fin 96) (m : Mask) (d a b : Fin 32) (c : Fin 8) (s : State) : Host.Outcome State Fault Refusal := (gSel e m d a b c).next s

/-- PAND (R129). -/
def gPand (e : Nat) (d a b : Fin 8) : Act := issue e 1 (.look fun s => setPreg e d (preg s e a &&& preg s e b))

def execGPand (e : Fin 96) (d a b : Fin 8) (s : State) : Host.Outcome State Fault Refusal := (gPand e d a b).next s

/-- POR (R129). -/
def gPor (e : Nat) (d a b : Fin 8) : Act := issue e 1 (.look fun s => setPreg e d (preg s e a ||| preg s e b))

def execGPor (e : Fin 96) (d a b : Fin 8) (s : State) : Host.Outcome State Fault Refusal := (gPor e d a b).next s

/-- PXOR (R129). -/
def gPxor (e : Nat) (d a b : Fin 8) : Act := issue e 1 (.look fun s => setPreg e d (preg s e a ^^^ preg s e b))

def execGPxor (e : Fin 96) (d a b : Fin 8) (s : State) : Host.Outcome State Fault Refusal := (gPxor e d a b).next s

/-- PANDN (R129). -/
def gPandn (e : Nat) (d a b : Fin 8) : Act := issue e 1 (.look fun s => setPreg e d (preg s e a &&& ~~~(preg s e b)))

def execGPandn (e : Fin 96) (d a b : Fin 8) (s : State) : Host.Outcome State Fault Refusal := (gPandn e d a b).next s

/-- PSET (R129). -/
def gPset (e : Nat) (d : Fin 8) (v : BitVec 16) : Act := issue e 1 (setPreg e d v)

def execGPset (e : Fin 96) (d : Fin 8) (v : BitVec 16) (s : State) : Host.Outcome State Fault Refusal := (gPset e d v).next s

/-- PMOVS (R129). -/
def gPmovs (e : Nat) (d : Fin 32) (a : Fin 8) : Act :=
  issue e 1 (.look fun s => setSreg e d ((preg s e a).zeroExtend 32))

def execGPmovs (e : Fin 96) (d : Fin 32) (a : Fin 8) (s : State) : Host.Outcome State Fault Refusal := (gPmovs e d a).next s

/-- PMOVP (R129). -/
def gPmovp (e : Nat) (d : Fin 8) (a : Fin 32) : Act :=
  issue e 1 (.look fun s => setPreg e d ((sreg s e a).truncate 16))

def execGPmovp (e : Fin 96) (d : Fin 8) (a : Fin 32) (s : State) : Host.Outcome State Fault Refusal := (gPmovp e d a).next s

/-- VBC (R131). -/
def gVbc (e : Nat) (m : Mask) (d a : Fin 32) : Act := issue e 1 (vcopy e m d fun s _ => sreg s e a)

def execGVbc (e : Fin 96) (m : Mask) (d a : Fin 32) (s : State) : Host.Outcome State Fault Refusal := (gVbc e m d a).next s

/-- VEXT (R131). -/
def gVext (e : Nat) (d a : Fin 32) (lane : Fin 16) : Act := issue e 1 (.look fun s => setSreg e d (vreg s e a lane))

def execGVext (e : Fin 96) (d a : Fin 32) (lane : Fin 16) (s : State) : Host.Outcome State Fault Refusal := (gVext e d a lane).next s

/-- ADD (R130). -/
def gAdd (e : Nat) (d a : Fin 32) (b : SSrc) : Act := issue e 1 (.look fun s => setSreg e d (sreg s e a + ssrc s e b))

def execGAdd (e : Fin 96) (d a : Fin 32) (b : SSrc) (s : State) : Host.Outcome State Fault Refusal := (gAdd e d a b).next s

/-- SUB (R130). -/
def gSub (e : Nat) (d a : Fin 32) (b : SSrc) : Act := issue e 1 (.look fun s => setSreg e d (sreg s e a - ssrc s e b))

def execGSub (e : Fin 96) (d a : Fin 32) (b : SSrc) (s : State) : Host.Outcome State Fault Refusal := (gSub e d a b).next s

/-- AND (R130). -/
def gAnd (e : Nat) (d a : Fin 32) (b : SSrc) : Act :=
  issue e 1 (.look fun s => setSreg e d (sreg s e a &&& ssrc s e b))

def execGAnd (e : Fin 96) (d a : Fin 32) (b : SSrc) (s : State) : Host.Outcome State Fault Refusal := (gAnd e d a b).next s

/-- OR (R130). -/
def gOr (e : Nat) (d a : Fin 32) (b : SSrc) : Act :=
  issue e 1 (.look fun s => setSreg e d (sreg s e a ||| ssrc s e b))

def execGOr (e : Fin 96) (d a : Fin 32) (b : SSrc) (s : State) : Host.Outcome State Fault Refusal := (gOr e d a b).next s

/-- XOR (R130). -/
def gXor (e : Nat) (d a : Fin 32) (b : SSrc) : Act :=
  issue e 1 (.look fun s => setSreg e d (sreg s e a ^^^ ssrc s e b))

def execGXor (e : Fin 96) (d a : Fin 32) (b : SSrc) (s : State) : Host.Outcome State Fault Refusal := (gXor e d a b).next s

/-- SHL (R130). -/
def gShl (e : Nat) (d a : Fin 32) (b : ShSrc) : Act :=
  issue e 1 (.look fun s => setSreg e d (sreg s e a <<< shsrc s e b))

def execGShl (e : Fin 96) (d a : Fin 32) (b : ShSrc) (s : State) : Host.Outcome State Fault Refusal := (gShl e d a b).next s

/-- SHR (R130). -/
def gShr (e : Nat) (d a : Fin 32) (b : ShSrc) : Act :=
  issue e 1 (.look fun s => setSreg e d (sreg s e a >>> shsrc s e b))

def execGShr (e : Fin 96) (d a : Fin 32) (b : ShSrc) (s : State) : Host.Outcome State Fault Refusal := (gShr e d a b).next s

/-- SAR (R130). -/
def gSar (e : Nat) (d a : Fin 32) (b : ShSrc) : Act :=
  issue e 1 (.look fun s => setSreg e d ((sreg s e a).sshiftRight (shsrc s e b)))

def execGSar (e : Fin 96) (d a : Fin 32) (b : ShSrc) (s : State) : Host.Outcome State Fault Refusal := (gSar e d a b).next s

/-- MUL (R130). -/
def gMul (e : Nat) (d a : Fin 32) (b : SSrc) : Act := issue e 1 (.look fun s => setSreg e d (sreg s e a * ssrc s e b))

def execGMul (e : Fin 96) (d a : Fin 32) (b : SSrc) (s : State) : Host.Outcome State Fault Refusal := (gMul e d a b).next s

/-- SLT (R130). -/
def gSlt (e : Nat) (d a : Fin 32) (b : SSrc) : Act :=
  issue e 1 (.look fun s => setSreg e d (if (sreg s e a).slt (ssrc s e b) then 1#32 else 0#32))

def execGSlt (e : Fin 96) (d a : Fin 32) (b : SSrc) (s : State) : Host.Outcome State Fault Refusal := (gSlt e d a b).next s

/-- SLTU (R130). -/
def gSltu (e : Nat) (d a : Fin 32) (b : SSrc) : Act :=
  issue e 1 (.look fun s => setSreg e d (if (sreg s e a).ult (ssrc s e b) then 1#32 else 0#32))

def execGSltu (e : Fin 96) (d a : Fin 32) (b : SSrc) (s : State) : Host.Outcome State Fault Refusal := (gSltu e d a b).next s

/-- MOVI (R130). -/
def gMovi (e : Nat) (d : Fin 32) (w : BitVec 32) : Act := issue e 1 (setSreg e d w)

def execGMovi (e : Fin 96) (d : Fin 32) (w : BitVec 32) (s : State) : Host.Outcome State Fault Refusal := (gMovi e d w).next s

/-- LD (R133). -/
def gLd (e : Nat) (m : Mask) (d : Fin 32) (w : Fin 128) : Act := issue e 1 (loadWord e m d w)

def execGLd (e : Fin 96) (m : Mask) (d : Fin 32) (w : Fin 128) (s : State) : Host.Outcome State Fault Refusal := (gLd e m d w).next s

/-- ST (R133). -/
def gSt (e : Nat) (m : Mask) (a : Fin 32) (w : Fin 128) : Act := issue e 1 (storeWord e m a w)

def execGSt (e : Fin 96) (m : Mask) (a : Fin 32) (w : Fin 128) (s : State) : Host.Outcome State Fault Refusal := (gSt e m a w).next s

/-- LDS (R133). -/
def gLds (e : Nat) (d : Fin 32) (lane : Fin 16) (w : Fin 128) : Act := issue e 1 (loadScalar e d lane w)

def execGLds (e : Fin 96) (d : Fin 32) (lane : Fin 16) (w : Fin 128) (s : State) : Host.Outcome State Fault Refusal := (gLds e d lane w).next s

/-- TLD (R134). -/
def gTld (e : Nat) (d a : Fin 32) (ofs : BitVec 32) : Act := issue e 2 (tableLoad e d a ofs)

def execGTld (e : Fin 96) (d a : Fin 32) (ofs : BitVec 32) (s : State) : Host.Outcome State Fault Refusal := (gTld e d a ofs).next s

/-- IN.MON (R139). -/
def gInMon (e : Nat) (m : Mask) (d : Fin 32) (point volts : Bool) (fout : Option (Fin 8 × FlagSel)) : Act :=
  issue e 1 (readMonitors e m d point volts fout)

def execGInMon (e : Fin 96) (m : Mask) (d : Fin 32) (point volts : Bool) (fout : Option (Fin 8 × FlagSel)) (s : State) : Host.Outcome State Fault Refusal := (gInMon e m d point volts fout).next s

/-- OUT.DRV (R140). -/
def gOutDrv (e : Nat) (m : Mask) (a : Fin 32) : Act := issue e 1 (writeDrives e m a)

def execGOutDrv (e : Fin 96) (m : Mask) (a : Fin 32) (s : State) : Host.Outcome State Fault Refusal := (gOutDrv e m a).next s

/-- TONE (R141). -/
def gTone (e : Nat) (m : Mask) (f : ToneFreq) (wa wp : Bool) (vf vamp vph : Fin 32) : Act :=
  issue e 1 (writeTones e m f wa wp vf vamp vph)

def execGTone (e : Fin 96) (m : Mask) (f : ToneFreq) (wa wp : Bool) (vf vamp vph : Fin 32) (s : State) : Host.Outcome State Fault Refusal := (gTone e m f wa wp vf vamp vph).next s

/-- LUT (R142). -/
def gLut (e : Nat) (m : Mask) (d a : Fin 32) : Act := issue e 2 (lookUp e m d a)

def execGLut (e : Fin 96) (m : Mask) (d a : Fin 32) (s : State) : Host.Outcome State Fault Refusal := (gLut e m d a).next s

/-- An engine issues an instruction it fetched. -/
def gop (e : Nat) : GOp → Act
  | .nop => gNop e
  | .end_ => gEnd e
  | .grp => gGrp e
  | .gnext => gGnext e
  | .br c target => gBr e c target
  | .evt m code => gEvt e m code
  | .rdsr d sel => gRdsr e d sel
  | .fadd m d a b => gFadd e m d a b
  | .fsub m d a b => gFsub e m d a b
  | .fmul m d a b => gFmul e m d a b
  | .fma m d a b c => gFma e m d a b c
  | .fms m d a b c => gFms e m d a b c
  | .fmin m d a b => gFmin e m d a b
  | .fmax m d a b => gFmax e m d a b
  | .fclamp m d a b c => gFclamp e m d a b c
  | .fabs m d a => gFabs e m d a
  | .fneg m d a => gFneg e m d a
  | .frcp m d a => gFrcp e m d a
  | .frsq m d a => gFrsq e m d a
  | .vmov m d a => gVmov e m d a
  | .vmovI m d w => gVmovI e m d w
  | .vidx m d => gVidx e m d
  | .fcmp cc m d a b => gFcmp e cc m d a b
  | .fcmpI cc m d a w => gFcmpI e cc m d a w
  | .sel m d a b c => gSel e m d a b c
  | .pand d a b => gPand e d a b
  | .por d a b => gPor e d a b
  | .pxor d a b => gPxor e d a b
  | .pandn d a b => gPandn e d a b
  | .pset d v => gPset e d v
  | .pmovs d a => gPmovs e d a
  | .pmovp d a => gPmovp e d a
  | .vbc m d a => gVbc e m d a
  | .vext d a lane => gVext e d a lane
  | .add d a b => gAdd e d a b
  | .sub d a b => gSub e d a b
  | .and_ d a b => gAnd e d a b
  | .or_ d a b => gOr e d a b
  | .xor_ d a b => gXor e d a b
  | .shl d a b => gShl e d a b
  | .shr d a b => gShr e d a b
  | .sar d a b => gSar e d a b
  | .mul d a b => gMul e d a b
  | .slt d a b => gSlt e d a b
  | .sltu d a b => gSltu e d a b
  | .movi d w => gMovi e d w
  | .ld m d w => gLd e m d w
  | .st m a w => gSt e m a w
  | .lds d lane w => gLds e d lane w
  | .tld d a ofs => gTld e d a ofs
  | .inMon m d point volts fout => gInMon e m d point volts fout
  | .outDrv m a => gOutDrv e m a
  | .tone m f wa wp vf vamp vph => gTone e m f wa wp vf vamp vph
  | .lut m d a => gLut e m d a

end Sys2Proof.Machine
end

