-- ==== Sys2Proof/Machine/Lanes.lean ====
section
/-!
DEFINITION. The Fabric Control Link, the tile holds and the park store (spec/02_fabric_lanes.md R44-R64).
-/

namespace Sys2Proof.Machine

/-! ## Downlink frames -/

/-- `w` bits of a number, the most significant first (R44). -/
def msb : Nat → Nat → List Bool
  | 0, _ => []
  | w + 1, x => x.testBit w :: msb w x

/-- MSG_TYPE of a message (Table FL-5). -/
def msgType : Option Msg → Nat
  | none => 0
  | some (.slotValid ..) => 1
  | some (.inject _) => 2
  | some (.parkDrive ..) => 3
  | some (.parkTrim ..) => 4
  | some (.parkCommit _) => 5

/-- Pad or cut to `n` bits. -/
def fitBits (n : Nat) (l : List Bool) : List Bool := (l ++ List.replicate n false).take n

/-- The 148 bits of a message (Table FL-5). -/
def msgBits : Option Msg → List Bool
  | none => List.replicate 148 false
  | some (.slotValid lane mask) => fitBits 148 (msb 4 lane ++ (List.range 60).map mask.getLsbD)
  | some (.inject es) => fitBits 148
      ((List.range 8).flatMap fun i => match es[i]? with
        | some e => msb 4 e.lane ++ msb 6 e.eslot ++ msb 1 e.point ++ msb 7 e.tgt
        | none => msb 4 0 ++ msb 6 63 ++ msb 1 0 ++ msb 7 0)
  | some (.parkDrive lane first codes) => fitBits 148 (msb 4 lane ++ msb 6 first ++ codes.flatMap fun c => msb 16 c.toNat)
  | some (.parkTrim lane first trims) => fitBits 148 (msb 4 lane ++ msb 6 first ++ trims.flatMap fun c => msb 12 c.toNat)
  | some (.parkCommit crc) => fitBits 148 (msb 32 crc.toNat)

/-- The running heater trim of an element: its park trim until the supervisors step it (R48, R164). -/
def runTrim (s : State) (n : Nat) : Nat :=
  let x := sget (fun _ => 0) s.lane.trims n
  if x = 0 then parkTrim s n else x - 1

/-- Trim entry j of trim group g of tile t; indices 896 to 899 carry 0 (R48). -/
def trimEntry (s : State) (t g j : Nat) : Nat := if 45 * g + j < 896 then runTrim s (896 * t + 45 * g + j) else 0

/-- Pairs D0 and D1 of a downlink frame (Tables FL-3, FL-4). -/
def downlinkFrame (s : State) (t g seq : Nat) (m : Option Msg) : List Bool × List Bool :=
  let mb := msgBits m
  let trims (lo n : Nat) := (List.range n).flatMap fun j => msb 12 (trimEntry s t g (lo + j))
  let d0 := msb 16 0xF628 ++ (msb 5 g ++ msb 4 (msgType m) ++ msb 2 0 ++ msb 5 seq) ++ trims 0 26 ++ mb.take 24
  let d1 := msb 16 0x09D7 ++ trims 26 19 ++ mb.drop 24
  (d0 ++ msb 16 (crc16 d0).toNat, d1 ++ msb 16 (crc16 d1).toNat)

/-- Rank of a waiting message, lower first (R86); INJECT messages are not queued. -/
def msgRank : Msg → Nat
  | .slotValid .. => 1
  | .parkCommit _ => 2
  | _ => 3

/-- The first waiting message of the lowest rank. -/
def pickMsg (q : List Msg) : Option Msg := (q.find? (msgRank · == 1)).or ((q.find? (msgRank · == 2)).or q.head?)

/-- Queue a message to a tile. -/
def queueMsg (t : Nat) (m : Msg) : Act := updTile t fun x => { x with queue := x.queue ++ [m] }

/-- Send the downlink frame of tile t with message m (R46, R51). -/
def sendDownlink (t : Nat) (m : Option Msg) : Act := .look fun s =>
  let x := tileLink s t
  let g := (fld s (A.tileStat t) 20 16 + 1) % 20
  let fr := downlinkFrame s t g x.seq m
  .all [emit (.downlink t fr.1 fr.2), setFld (A.tileStat t) 20 16 g,
    updTile t fun x => { x with
      seq := (x.seq + 1) % 32,
      sent := x.sent ++ [{ seq := x.seq, frame := s.tim.frames, msg := m }] }]

/-! ## Park store (R50, R63) -/

/-- The park store of a tile in the order its CRC covers: drive codes, then trims, each a 16-bit little-endian word. -/
def parkStoreBytes (s : State) (t : Nat) : List Byte :=
  ((List.range 896).flatMap fun i => natLe 2 (parkCode s (16 * t + i / 56) (i % 56)).toNat) ++
  ((List.range 896).flatMap fun i => natLe 2 (parkTrim s (896 * t + i)))

/-- PARK_DRIVE and PARK_TRIM messages of a whole load. -/
def parkMsgs (s : State) (t : Nat) : List Msg :=
  ((List.range 16).flatMap fun l => (List.range 7).map fun i =>
    .parkDrive l (8 * i) ((List.range 8).map fun k => parkCode s (16 * t + l) (8 * i + k))) ++
  ((List.range 16).flatMap fun l => (List.range 6).map fun i =>
    .parkTrim l (11 * i) ((List.range 11).map fun k =>
      if 11 * i + k < 56 then BitVec.ofNat 12 (parkTrim s ((16 * t + l) * 56 + 11 * i + k)) else 0#12))

/-- A message of a park store load's first stage. -/
def isParkData : Msg → Bool
  | .parkDrive .. | .parkTrim .. => true
  | _ => false

/-- A message of a park store load. -/
def isParkMsg : Msg → Bool
  | .parkCommit _ => true
  | m => isParkData m

/-- Start a park store load: PLOAD_BUSY, and PARK_CTRL.RELOAD reads 1 while it runs (R63, Table FL-10). One that cannot be sent yet is owed
(log entry 113). -/
def startParkLoad (t : Nat) : Act := .look fun s =>
  if !lclkRuns s t || s.nvm.park.isEmpty || (tileLink s t).sweepDue then updTile t fun x => { x with owed := true }
  else .all [
    setBit (A.tileStat t) tsPload, setBit (A.parkCtrl t) 0,
    updTile t fun x => { x with
      load := .data, owed := false,
      queue := (x.queue.filter (!isParkMsg ·)) ++ parkMsgs s t,
      sent := x.sent.map fun q => if q.msg.any isParkMsg then { q with msg := none } else q }]

/-- When every PARK_DRIVE and PARK_TRIM frame is acknowledged, PARK_COMMIT follows. -/
def advanceLoad (t : Nat) : Act := .look fun s =>
  let x := tileLink s t
  let open_ := x.queue.any isParkData || x.sent.any fun f => match f.msg with
    | some m => isParkData m
    | none => false
  Act.when (x.load == .data && !open_) (.all [
    updTile t fun x => { x with load := .commit },
    queueMsg t (.parkCommit (crc32c (parkStoreBytes s t)))])

/-! ## Uplink frames (R52, R53) -/

/-- Bits `first` to `last` of an uplink frame, the first sent the most significant (R44). -/
def upField (f : BitVec 384) (first last : Nat) : Nat := (f.extractLsb' (383 - last) (last + 1 - first)).toNat

/-- SYNCU is present, and the CRC over bits 0 to 367 is correct. -/
def upSync (f : BitVec 384) : Bool := decide (upField f 0 15 = 0x6B1C)
def upCrcOk (f : BitVec 384) : Bool :=
  decide ((crc16 ((List.range 368).map f.getMsbD)).toNat = upField f 368 383)

/-- A downlink frame with sequence number q is acknowledged: bit 60 - i of ACK_MAP stands for ACK_SEQ - i (Table FL-6). -/
def ackedBy (f : BitVec 384) (q : Nat) : Bool :=
  let i := (upField f 48 52 + 32 - q) % 32
  decide (i ≤ 7) && (upField f 53 60).testBit i

/-- The acknowledgements of a frame reach a downlink frame sent at lane frame k: SEQ repeats after 32 frames (R46). -/
def ackReaches (s : State) (k : Nat) : Bool := decide (k < s.tim.frames) && decide (s.tim.frames ≤ k + 32)

/-- Element slots whose local index is flagged on this page: bit b of HFLT is local index 224 x PAGE + b. -/
def hfltPage (f : BitVec 384) : List Nat :=
  let p := upField f 61 62
  ((List.range 224).filter fun b => f.getMsbD (64 + b)).map (224 * p + ·)

/-- An acknowledged message takes effect on the device's side: a mask reached the tile, a range change may go on, a park
store load has been committed (R51, R69). -/
def msgAcked (t : Nat) : Msg → Act
  | .slotValid l mask => .look fun s => updLaneN (16 * t + l) fun x => { x with
      acked := mask,
      rchg := x.rchg.map fun r =>
        if r.restoring && decide (mask = r.prev) then { r with restored := true }
        else if r.sent && !r.restoring && !r.timedOut && !r.cleared && decide (mask = 0#60) then
          { r with cleared := true, clearedAt := s.tim.frames }
        else r }
  | .parkCommit _ => updTile t fun x => { x with load := if x.load == .commit then .acked else x.load }
  | _ => .done

/-- The samples that an unacknowledged INJECT frame directed are MISSING: the result words of the entries converted in the present frame. A
claimed slot's own sample is MISSING already (R49, R51, R87). -/
def loseInjected (t : Nat) : Act := .look fun s => .all [
  Act.each ((groupOf s t).converted.filter (!·.lost)) fun p => .look fun s => writeMemWord (injResult t p.index)
    ((readWord s.mem (injResult t p.index) &&& 0xDFFFC000#32) ||| 0x40000000#32),
  updGroup t fun g => { g with converted := g.converted.map fun p => { p with lost := true } }]

/-- The frame is an INJECT. -/
def isInject (q : Sent) : Bool := match q.msg with
  | some (.inject _) => true
  | _ => false

/-- Before engines take the samples of a lane frame: the INJECT frame that directed them has brought no acknowledgement (R51). -/
def injectUnacked (t : Nat) : Act := .whenS
  (fun s => (tileLink s t).sent.any fun q => isInject q && decide (q.frame + 1 = s.tim.frames)) (loseInjected t)

/-- Take the acknowledgements of a good uplink frame: frames sent before the present one are acknowledged or not (R51, R53). -/
def takeAcks (t : Nat) (f : BitVec 384) : Act := .look fun s =>
  let due := (tileLink s t).sent.filter fun q => decide (q.frame < s.tim.frames)
  .all [
    updTile t fun x => { x with sent := x.sent.filter fun q => !decide (q.frame < s.tim.frames) },
    Act.each due fun q =>
      if ackReaches s q.frame && ackedBy f q.seq then (match q.msg with
        | some m => msgAcked t m
        | none => .done)
      else .all [
        event (A.tileEvt t) 0 (87 + 8 * t) (108 + t),
        bump (A.fclCnt1 t) 31 16,
        (match q.msg with
          | none => .done
          | some (.inject _) => Act.when (decide (q.frame + 1 = s.tim.frames)) (loseInjected t)
          | some m => .all [bump (A.fclCnt1 t) 15 0, updTile t fun x => { x with queue := m :: x.queue }])],
    advanceLoad t]

/-- The status word of a good uplink frame (Table FL-7). -/
def takeStatus (t : Nat) (f : BitVec 384) : Act := .look fun s =>
  let st := upField f 16 47
  let cause := upField f 23 25
  let selfPark := st.testBit 31 && decide (cause ≠ 1 ∧ cause ≠ 7) && !bit s (A.tileStat t) tsHoldOut
  .all [
    wrNat (A.tileUpstat t) st,
    putBit (A.tileStat t) tsParked (st.testBit 31),
    putBit (A.tileStat t) tsPstore (st.testBit 29),
    putBit (A.tileStat t) tsDlLock (st.testBit 28),
    wrNat (A.tileTemp t) (upField f 288 303),
    wrNat (A.tileId t) (st % 2 ^ 16),
    Act.when selfPark (.all [setBit (A.tileStat t) tsCauseSelf, assertHold t,
      event (A.tileEvt t) 3 (87 + 8 * t + 3) (108 + t)])]

/-- The fault flags of one page: each newly set flag is a HOLD_FAULT event (R53, R60). -/
def takeHflt (t : Nat) (f : BitVec 384) : Act := .look fun s =>
  let p := upField f 61 62
  let now := hfltPage f
  let old := (tileLink s t).hflt
  let kept := old.filter fun i => !decide (i / 224 = p)
  .all [
    updTile t fun x => { x with hflt := kept ++ now },
    .look fun s => setFld (A.hfltLane t) 15 0
      ((List.range 16).foldl (fun m l => if (tileLink s t).hflt.any (fun i => i / 56 == l) then m + 2 ^ l else m) 0),
    Act.each (now.filter (!old.contains ·)) fun _ => event (A.tileEvt t) 4 (87 + 8 * t + 4) (108 + t)]

/-- SYNCU is absent in a lane frame: the second in a row ends uplink lock (R52). -/
def missSync (t : Nat) : Act := .all [
  updTile t fun x => { x with syncMiss := x.syncMiss + 1, good := 0 },
  .whenS (fun s => decide (2 ≤ (tileLink s t).syncMiss)) (clrBit (A.tileStat t) tsUpLock)]

/-- From the uplink frame that acknowledges PARK_COMMIT on, PARK_NACK says that it did not match: the load ends (R50). -/
def judgeLoad (t : Nat) : Act := .whenS (fun s => (tileLink s t).load == .acked && bit s (A.tileUpstat t) 21) (.all [
  event (A.tileEvt t) 7 (87 + 8 * t + 7) (108 + t),
  clrBit (A.tileStat t) tsPload, clrBit (A.parkCtrl t) 0,
  updTile t fun x => { x with load := .idle }])

/-- UPLINK_FRAME (R52, R53): SYNCU, the CRC, uplink lock, and what a good frame reports. -/
def uplinkFrame (t : Nat) (f : BitVec 384) : Act := .whenS (fun s => lclkRuns s t)
  (if !upSync f then .all [
      missSync t, updTile t fun x => { x with noSync := true }]
  else if !upCrcOk f then .all [
      updTile t fun x => { x with syncMiss := 0, good := 0, gotAny := true },
      bump (A.fclCnt0 t) 31 16,
      event (A.tileEvt t) 1 (87 + 8 * t + 1) (108 + t)]
  else .all [
      updTile t fun x => { x with syncMiss := 0, good := min 4 (x.good + 1), missing := 0, gotAny := true, gotGood := true },
      .whenS (fun s => decide ((tileLink s t).good = 4)) (.all [
        setBit (A.tileStat t) tsUpLock, updTile t fun x => { x with everLocked := true }]),
      takeStatus t f, takeHflt t f, takeAcks t f, judgeLoad t])

def execUplinkFrame (t : Fin 12) (f : BitVec 384) (s : State) : Host.Outcome State Fault Refusal := (uplinkFrame t f).next s

/-- UP_LOSS_DETECT (R52, R59): the eighth frame without a good uplink frame ends the lock, and parks the tile. -/
def execUpLossDetect (t : Fin 12) (s : State) : Host.Outcome State Fault Refusal :=
  (Act.whenS (fun s => decide (8 ≤ (tileLink s t).missing) && (tileLink s t).everLocked && lclkRuns s t) (.all [
    clrBit (A.tileStat t) tsUpLock,
    updTile t fun x => { x with good := 0 },
    setBit (A.tileStat t) tsCauseUploss,
    assertHold t,
    event (A.tileEvt t) 2 (87 + 8 * t + 2) (108 + t)])).next s

/-! ## Holds -/

/-- FAB_HOLD_RELEASE (R59, R61): at a frame boundary at which every condition holds, after at least 1 µs high. -/
def execFabHoldRelease (t : Fin 12) (s : State) : Host.Outcome State Fault Refusal :=
  (Act.whenS (fun s => releaseOk s t && decide (ticksPerUs ≤ s.clk.mono - (tileLink s t).heldAt))
    (clrBit (A.tileStat t) tsHoldOut)).next s

/-- Write TILE_CTRL.HOLD (R61). HOLD = 1 holds the tile and clears a latched cause whose condition is met; HOLD = 0 asks for
the release and reports REL_REFUSED while a condition fails. -/
def writeHold (t : Nat) (v : Bool) : Act :=
  if v then .look fun s => .all [
    setBit (A.tileCtrl t) 0, setBit (A.tileStat t) tsCauseSw,
    Act.when (bit s (A.tileStat t) tsUpLock) (clrBit (A.tileStat t) tsCauseUploss),
    Act.when (decide (fld s (A.tileUpstat t) 20 18 = 0)) (clrBit (A.tileStat t) tsCauseSelf),
    assertHold t]
  else .all [
    clrBit (A.tileCtrl t) 0, clrBit (A.tileStat t) tsCauseSw,
    .whenS (fun s => !releaseOk s t) (event (A.tileEvt t) 6 (87 + 8 * t + 6))]

def execTileHoldWrite (t : Fin 12) (v : Bool) (s : State) : Host.Outcome State Fault Refusal :=
  (hostWriteFld (A.tileCtrl t) 0 0 v.toNat (writeHold t v)).next s

/-- Write TILE_CTRL.TILE_EN (R59, Table FL-11): 0 stops LCLK and the FCL and holds the tile. -/
def writeTileEn (t : Nat) (v : Bool) : Act := .look fun s =>
  if v then .all [setBit (A.tileCtrl t) 1, clrBit (A.tileStat t) tsCauseDis,
    Act.when (!bit s (A.tileCtrl t) 1) (freshLink t)]
  else .all [clrBit (A.tileCtrl t) 1, setBit (A.tileStat t) tsCauseDis, assertHold t, freshLink t]

def execTileEnWrite (t : Fin 12) (v : Bool) (s : State) : Host.Outcome State Fault Refusal :=
  (hostWriteFld (A.tileCtrl t) 1 1 v.toNat (writeTileEn t v)).next s

/-! ## Park store commands -/

/-- PARK_STORE_LOAD (R63): with uplink lock, and no load under way, for a tile that reports PARK_STORE_VALID = 0 or is owed a reload. -/
def execParkStoreLoad (t : Fin 12) (s : State) : Host.Outcome State Fault Refusal :=
  (Act.whenS (fun s => bit s (A.tileStat t) tsUpLock && (tileLink s t).load == .idle &&
      (!bit s (A.tileStat t) tsPstore || (tileLink s t).owed)) (startParkLoad t)).next s

/-- PARK_STORE_RELOAD: PARK_CTRL.RELOAD written 1. -/
def execParkStoreReload (t : Fin 12) (s : State) : Host.Outcome State Fault Refusal :=
  (hostWriteFld (A.parkCtrl t) 0 0 1 (startParkLoad t)).next s

/-- PARK_STORE_COMMITTED (R50, Table FL-9): PARK_COMMIT is acknowledged and the tile reports PARK_STORE_VALID without PARK_NACK: the load
ends, PARK_CRC holds the CRC, and SLOT_VALID goes out for each of the 16 lanes; every element and reference slot is valid, unassigned
elements included (R39). A lane in a range change is sent the mask it has (log entry 114). -/
def execParkStoreCommitted (t : Fin 12) (s : State) : Host.Outcome State Fault Refusal :=
  (Act.whenS (fun s => (tileLink s t).load == .acked && bit s (A.tileUpstat t) 29 && !bit s (A.tileUpstat t) 21) (.all [
    clrBit (A.tileStat t) tsPload, clrBit (A.parkCtrl t) 0, setBit (A.tileStat t) tsPstore,
    updTile t fun x => { x with load := .idle },
    .look fun s => wr (A.parkCrc t) (crc32c (parkStoreBytes s t)),
    event (A.tileEvt t) 5 (87 + 8 * t + 5) (108 + t),
    Act.upto 16 fun l => .all [
      updLaneN (16 * t + l) fun x => { x with mask := if x.rchg.isSome then x.mask else BitVec.allOnes 60 },
      .look fun s => queueMsg t (.slotValid l (laneOf s (16 * t + l)).mask)]])).next s

/-- EML_DLY_SWEEP (R43, R82): once uplink lock and REFBUF_RDY hold, the sweep sets EML_DLY; the park store load may follow. -/
def execEmlDlySweep (t : Fin 12) (dly : Fin 24) (s : State) : Host.Outcome State Fault Refusal :=
  (Act.whenS (fun s => bit s (A.tileStat t) tsUpLock && bit s (A.emlStat (16 * t)) 31)
    (.all [setFld (A.emlDly t) 4 0 dly, updTile t fun x => { x with sweepDue := false }])).next s

/-- TILE_CNT_CLR (R64). -/
def execTileCntClr (t : Fin 12) (s : State) : Host.Outcome State Fault Refusal :=
  (hostWriteFld (A.tileCtrl t) 7 7 1 (clearRegs [A.fclCnt0 t, A.fclCnt1 t])).next s

end Sys2Proof.Machine
end

