-- ==== Sys2Proof/Machine/Routes.lean ====
section
/-!
DEFINITION. Ports, connections and the elements their routes cross (spec/01_fabric_model.md R10-R18, spec/07_reconfiguration.md R177).
-/

namespace Sys2Proof.Machine

/-- The record of a port in a table. -/
def portRec (t : Topo) (output : Bool) (p : Nat) : Option PortRec := t.ports.find? fun r => r.output == output && decide (r.port = p)

/-- Two connections have the same IN and OUT. -/
def sameConn (a b : Conn) : Bool := decide (a.inp = b.inp ∧ a.out = b.out)

/-- The cells that a route crosses from input link L of stage k on: cell index and state; and the output link of the last. -/
def routeFrom (t : Topo) (bits : Nat) : Nat → Nat → Nat → List (Nat × Bool) × Nat
  | 0, _, l => ([], l)
  | fuel + 1, k, l =>
    let cross := bits.testBit k
    let o := if cross then (if l % 2 = 0 then l + 1 else l - 1) else l
    let c := (k * t.cellsPerStage + l / 2, cross)
    if fuel = 0 then ([c], o)
    else
      let r := routeFrom t bits fuel (k + 1) (((t.wiring.getD k []).getD o 0))
      (c :: r.1, r.2)

/-- The cells of a connection's route, and the link it ends on. -/
def routeOf (t : Topo) (r : Routed) : List (Nat × Bool) × Nat :=
  match portRec t false r.conn.inp with
  | some p => routeFrom t r.bits t.stages 0 p.link
  | none => ([], 0)

def routeCells (t : Topo) (r : Routed) : List (Nat × Bool) := (routeOf t r).1

/-- The elements of a cell. -/
def cellElems (t : Topo) (c : Nat) : List Nat := match t.cells[c]? with
  | some x => x.elemA :: x.elemB.toList
  | none => []

/-- The elements of a connection's path: its cell elements and the VOAs of its ports (R177). -/
def pathElems (t : Topo) (r : Routed) : List Nat :=
  (routeCells t r).flatMap (fun c => cellElems t c.1) ++
  ((portRec t false r.conn.inp).bind (·.voa)).toList ++ ((portRec t true r.conn.out).bind (·.voa)).toList

/-- The connections whose path holds the element: a cell of a fabric without dilation can carry two. -/
def elemConns (t : Topo) (m : FabMap) (n : Nat) : List Routed := m.conns.filter fun r => (pathElems t r).contains n
/-- A connection whose path holds the element. -/
def elemConn (t : Topo) (m : FabMap) (n : Nat) : Option Routed := (elemConns t m n).head?

/-- A list of numbers comes before another, the first that differ deciding. -/
def listLt : List Nat → List Nat → Bool
  | a :: l, b :: m => decide (a < b) || (decide (a = b) && listLt l m)
  | _, _ => false

/-- The index of the first element whose arrival makes a check of the list so far fail: RESULT0 of a list that fails a check as a whole
(DEDUCED, log entry 29). -/
def firstFail {α : Type} (ok : List α → Bool) (l : List α) : Nat :=
  ((List.range l.length).find? fun i => !ok (l.take (i + 1))).getD 0

/-- The index of the first element of a list for which a check fails. -/
def badIndex {α : Type} (ok : α → Bool) (l : List α) : Option Nat := l.findIdx? fun x => !ok x

end Sys2Proof.Machine
end

