-- ==== Sys2Proof/Machine/Converters.lean ====
section
/-!
DEFINITION. The lane frame: drives and tones out, monitor samples in, detectors, injected sequences, the recorder, range
changes and the converters' control (spec/02_fabric_lanes.md R32-R43, spec/03_converters.md R65-R88, R93).
-/

namespace Sys2Proof.Machine

/-! ## Tones (R72-R75) -/

/-- sin(pi (2i + 1) / 16384) times 2^64, by the Horner form of the sine series; exact to well below the rounding of R73. -/
def sinScaled (i : Nat) : Nat :=
  let x := 57952155664616982739 * (2 * i + 1) / 16384
  let x2 := x * x / 2 ^ 64
  let acc := [13, 12, 11, 10, 9, 8, 7, 6, 5, 4, 3, 2, 1].foldl
    (fun a k => 2 ^ 64 - x2 * a / 2 ^ 64 / (2 * k * (2 * k + 1))) (2 ^ 64)
  x * acc / 2 ^ 64

/-- Quarter-wave table entry T[i] = round(262,143 sin(pi/2 (i + 0.5) / 4,096)) (R73). -/
def toneTable (i : Nat) : Nat := (262143 * sinScaled i * 2 + 2 ^ 64) / 2 ^ 65

/-- The tone sample of amplitude A at phase phi, in drive codes (R73). -/
def toneSample (a : Nat) (phi : Word) : Int :=
  let q := bits phi 31 30
  let i := bits phi 29 18
  let t : Int := toneTable (if q % 2 = 0 then i else 4095 - i)
  let v : Int := if q < 2 then t else -t
  (Int.ofNat a * v + 131072) / 262144

/-- The tone that slot k of lane n carries now: TONE_EN, PILOT_EN and a good table let it sound (R75). -/
def toneNow (s : State) (n k : Nat) : Int :=
  let c := toneOf s n k
  if bit s A.toneCtrl 0 && bit s A.toneStat 31 && (!c.pilot || bit s A.toneCtrl 1) then toneSample c.amp c.phase else 0

/-- Every accumulator advances by its FREQ (R72). -/
def advanceTones : Act := updLane fun x =>
  { x with tones := x.tones.map fun p => (p.1, { p.2 with phase := p.2.phase + p.2.freq }) }

/-! ## Drives out (R35, R66, R68, Table CV-4) -/

/-- Saturate to a drive code (R65). -/
def satCode (x : Int) : Int := max (-32768) (min 32767 x)

/-- A drive in volts as a code before saturation: v x 32,768 / V_FS to nearest even; an infinity lies outside every code (R65,
R140). `range` is the active range, true for 1.0 V. -/
def driveCode (range : Bool) (v : Word) : Int :=
  if Fp.isInf v then (if Fp.neg v then -65536 else 65536) else Fp.scaleRne v (if range then 32768 else 65536) 1

/-- The park code as emitted: c on the 1.0 V range, 2c on the 0.5 V range (R66). -/
def parkEmit (s : State) (n k : Nat) : BitVec 16 :=
  let c := (parkCode s n k).toInt
  BitVec.ofInt 16 (if bit s (A.edlStat n) 1 then c else 2 * c)

/-- Lane n is between F+3 and F+67 of a range change, when its element slots carry park codes (Table CV-1). -/
def rchgParks (s : State) (n : Nat) : Bool := match (laneOf s n).rchg with
  | some r => r.cleared && !r.restoring
  | none => false

/-- PARK_MASK forces the element to its park code (R116). -/
def parkMasked (s : State) (e : Nat) : Bool :=
  let i := loopOf e
  let g := engineOf e
  if i < 32 then bit s (A.parkMask0 g) i else if i < 64 then bit s (A.parkMask1 g) (i - 32)
  else if i < 96 then bit s (A.parkMask2 g) (i - 64) else bit s (A.parkMask3 g) (i - 96)

/-- Element e emits its park code for a cause of its own: an unassigned slot, FORCE_PARK, a held tile, a range change, PARK_MASK, a trip, or no
drive of its engine, as after a stop, an overrun of the first frame or a NaN (R58, R68, R93, R101, R116); or its drive is held in a FIFO (R333). -/
def slotParks (s : State) (e : Nat) : Bool :=
  let n := lanePairOf e
  !elemAssigned s e || bit s (A.edlCtrl n) 0 || bit s (A.tileStat (n / 16)) tsHoldOut || rchgParks s n || parkMasked s e ||
    s.thm.tripped || fifoHeld s (n / 16) || fifoHeld s (15 + n / 16) || driveOf s e == .park

/-- The element carries its park code by a park of its own, a hold limit of SLP-1 that was reached included (R161). -/
def elemParked (s : State) (e : Nat) : Bool :=
  let g := engineOf e
  slotParks s e || (bit s (A.engStat g) 31 && !bit s (A.engStat g) 30 && (engOf s g).rom.getLsbD (bit s (A.engStat g) 29).toNat &&
    elemWord s e 21 == 0x3F800000#32)

/-- Every connection through element e has another element for which `parked` holds. -/
def pathsParked (s : State) (parked : Nat → Bool) (e : Nat) : Bool := s.fab.topo.any fun t =>
  let l := elemConns t s.fab.map e
  !l.isEmpty && l.all fun r => (pathElems t r).any fun x => decide (x ≠ e) && parked x

/-- A park of one element of a connection sets the connection's VOAs and cells to their park codes in the same frame, so that no light of it
reaches another output (R26, R31); a cell that carries another connection too keeps its state (DEDUCED, log entry 109). -/
def isolated (s : State) (e : Nat) : Bool := pathsParked s (elemParked s) e

/-- The code of element slot k of lane n, and whether it is saturated (R58, R68, R93). -/
def slotCode (s : State) (n k : Nat) : BitVec 16 × Bool :=
  let e := 56 * n + k
  match driveOf s e with
  | .park => (parkEmit s n k, false)
  | .volts w =>
    if slotParks s e || isolated s e then (parkEmit s n k, false)
    else
      let c := driveCode (bit s (A.edlStat n) 1) w
      let v := satCode c + toneNow s n k
      (BitVec.ofInt 16 (satCode v), decide (satCode c ≠ c) || decide (satCode v ≠ v))

/-- The 64 samples of lane n (Table FL-1). -/
def laneSamples (s : State) (n : Nat) : List (BitVec 16) :=
  ((List.range 56).map fun k => (slotCode s n k).1) ++ [0x7000#16, 0x9000#16, 0#16, 0#16, 0#16, 0#16, 0#16, 0#16]

/-- Emit lane n's samples while it is driven; a frame with a saturated slot counts once (R68). -/
def driveLane (n : Nat) : Act := .look fun s =>
  Act.when (bit s (A.edlStat n) 0 && domRuns s (15 + n / 16)) (.all [
    emit (.lane n (laneSamples s n)),
    Act.when ((List.range 56).any fun k => (slotCode s n k).2) (bump (A.edlSatcnt n) 15 0)])

/-- The codes of this lane frame stand beside those of the last (R291). -/
def keepCodes : Act := .look fun s => updLane fun x => { x with
  emitPrev := x.emit,
  emit := (List.range 192).flatMap fun n =>
    if bit s (A.edlStat n) 0 && domRuns s (15 + n / 16) then
      (((List.range 56).map fun k => (56 * n + k, (slotCode s n k).1)).filter fun p => decide (p.2 ≠ 0#16))
    else [] }

/-! ## Monitor conversion (R78-R81) -/

/-- The average after one more sample: a + (h - a) / 256, exactly (log entry 8). -/
def Dyadic.step (a : Dyadic) (h : Nat) : Dyadic := { num := 255 * a.num + Int.ofNat h * 2 ^ a.exp, exp := a.exp + 8 }

/-- The sample lies within 64 codes of the average. -/
def Dyadic.near (a : Dyadic) (h : Nat) : Bool :=
  let d := Int.ofNat h * 2 ^ a.exp - a.num
  decide (d ≤ 64 * 2 ^ a.exp) && decide (-(64 * 2 ^ a.exp) ≤ d)

/-- num / 2^exp scaled to 2^e. -/
def Dyadic.at (a : Dyadic) (e : Nat) : Int := a.num * 2 ^ (e - a.exp)

/-- One reference sample into one average, with the count of consecutive samples left out (R81). -/
def refStep (a : Dyadic) (left : Nat) (h : Nat) : Dyadic × Nat := if a.near h then (a.step h, 0) else (a, left + 1)

/-- None of the conditions that put a slice in CAL_FAULT holds (R81). -/
def Slice.sound (x : Slice) : Bool :=
  let e := max x.high.exp x.low.exp
  let d := x.high.at e - x.low.at e
  decide (x.left < 16) && decide (11674 * 2 ^ e ≤ d) && decide (d ≤ 12902 * 2 ^ e) &&
  decide (1443 * 2 ^ e ≤ x.low.at e) && decide (x.low.at e ≤ 2243 * 2 ^ e)

/-- A slice takes the reference samples of one converted frame; `fault` is its CAL_FAULT bit. REF_HIGH and REF_LOW samples of the slice share
one count of consecutive ones left out (DEDUCED, log entry 111). -/
def Slice.take (x : Slice) (fault : Bool) (h l : Nat) : Slice :=
  if !x.started then { x with
    high := { num := h }, low := { num := l }, started := true, keptHigh := { num := h }, keptLow := { num := l } }
  else
    let a := refStep x.high x.left h
    let b := refStep x.low a.2 l
    let y := { x with high := a.1, low := b.1, left := b.2 }
    let y := { y with good := if y.sound then y.good + 1 else 0 }
    if !fault && y.sound then { y with keptHigh := y.high, keptLow := y.low } else y

/-- The corrected code of a raw sample, and whether it was clamped; in CAL_FAULT the last good correction applies. Rounding is
to nearest, halves up (log entry 8). Where the two averages do not differ the spec gives no code: `free` stands for it. -/
def Slice.code (x : Slice) (fault : Bool) (r : Nat) (free : BitVec 14) : BitVec 14 × Bool :=
  let h := if fault then x.keptHigh else x.high
  let l := if fault then x.keptLow else x.low
  let e := max h.exp l.exp
  let b := h.at e - l.at e
  if b = 0 then (free, false)
  else
    let b' := if b < 0 then -b else b
    let a := (Int.ofNat r * 2 ^ e - l.at e) * 12288 * (if b < 0 then -1 else 1)
    let c := (2 * (18432 * b' + 10 * a) + 10 * b') / (20 * b')
    if c < 0 then (0#14, true) else if 16383 < c then (16383#14, true) else (BitVec.ofInt 14 c, false)

/-! ## Frozen feedback (R88) -/

/-- The detector of one slot after one more sample; `n` and `m` are FRZ_N and FRZ_SAT. The predecessor of the first sample after MISSING ones is
the last that was present (DEDUCED, log entry 111). -/
def Frz.take (z : Frz) (n m : Nat) (x : Sample) : Frz :=
  let n := max 2 n
  let m := max 1 m
  if x.missing then
    let z := { z with same := 0, sat := 0, missing := z.missing + 1 }
    { z with frozen := z.frozen || decide (8 < z.missing) }
  else
    let fresh := !(z.last == some x.code)
    let same := if fresh then 1 else z.same + 1
    let sat := if x.sat then z.sat + 1 else 0
    let hit := decide (n ≤ same) || decide (m ≤ sat)
    { last := some x.code, same := same, sat := sat, missing := 0,
      frozen := hit || (z.frozen && !(fresh && !x.sat)) }

/-! ## One lane group's conversions -/

/-- The raw sample of a lane's slot in this frame, where it arrived. -/
def rawAt (samples : List RawSample) (n k : Nat) : Option Nat :=
  (samples.find? fun r => decide (r.lane.val = n ∧ r.slot.val = k)).map fun r => r.raw.toNat

/-- Conversions of group t run: CONV_EN, REFBUF_RDY, and its EML domain. -/
def convOn (s : State) (t : Nat) : Bool := bit s (grpCtrl t) 20 && bit s (grpStat t) 31 && domRuns s (27 + t)

/-- The frame is one that converts: every frame, or every fourth in low-power mode (R83). -/
def frameDue (s : State) (t : Nat) : Bool := !bit s (grpStat t) 29 || decide ((groupOf s t).lpCount % 4 = 0)

/-- The group converts in this frame. -/
def converts (s : State) (t : Nat) : Bool := convOn s t && frameDue s t

/-- CAL_FAULT of slice j of lane n. -/
def calFault (s : State) (n j : Nat) : Bool := bit s (A.emlStat n) (19 + j)

/-- Slice j of lane n takes its reference samples, and enters CAL_FAULT where a condition of R81 holds. -/
def takeRefs (samples : List RawSample) (n j : Nat) : Act := .look fun s =>
  match rawAt samples n (112 + j), rawAt samples n (116 + j) with
  | some h, some l =>
    let y := (sliceOf s n j).take (calFault s n j) h l
    .all [updSlice n j fun _ => y,
      Act.when (!calFault s n j && !y.sound) (.all [
        setBit (A.emlStat n) (19 + j),
        updSlice n j fun x => { x with good := 0 },
        event (A.emlStat n) 2 (207 + 2 * (n / 16)) 255 n])]
  | _, _ => .done

/-- A range change is in progress on the lane: the samples converted in lane frames F to F+69 carry LANE_HOLD (Table CV-1; that F counts the frame
of the conversion, and not the engine frame that takes the sample, is DEDUCED, log entry 128). -/
def laneHolds (s : State) (n : Nat) : Bool := match (laneOf s n).rchg with
  | some r => decide (r.start ≤ s.tim.frames)
  | none => false

/-- The sample of slot k of lane n in this frame, before the detector's flag (Table CV-3). -/
def sampleNow (s : State) (samples : List RawSample) (n k : Nat) : Sample :=
  let t := n / 16
  let g := groupOf s t
  let claimed := g.converted.any fun p => decide (p.lane = n ∧ p.slot = k)
  let hold := laneHolds s n
  if fifoHeld s t || fifoHeld s (27 + t) then { laneHold := hold }
  else if !convOn s t || !g.settled || decide (0 < g.resettle) || claimed then { laneHold := hold }
  else if !converts s t then { code := lastCode s n k, missing := false, stale := true, laneHold := hold }
  else match rawAt samples n k with
    | none => { laneHold := hold }
    | some r =>
      let c := (sliceOf s n (k % 4)).code (calFault s n (k % 4)) r ((Config.freeWord s.free).truncate 14)
      { code := c.1, missing := false, sat := decide (r = 0 ∨ r = 16383) || c.2, laneHold := hold }

/-- Slot k is one the detector watches: an assigned element's, but not m1 of a VOA (R88). -/
def frzWatches (s : State) (n k : Nat) : Bool :=
  bit s (A.emlCtrl n) 15 && elemAssigned s (56 * n + k / 2) && !(elemVoa s (56 * n + k / 2) && decide (k % 2 = 1))

/-- Convert slot k of lane n: code, flags, detector, the fill side of the sample-in buffer (R79, R88, R99). A saturated sample in the ignored m1
slot of a VOA (R9) sets no SAT_EVT (DEDUCED, log entry 111). With FRZ_EN at 0 the detector keeps what it has, FRZ_COUNT shows it, and no sample carries
FROZEN (DESIGN CHOICE, log entry 128). -/
def convertSlot (samples : List RawSample) (n k : Nat) : Act := .look fun s =>
  let x := sampleNow s samples n k
  let z := if frzWatches s n k && converts s (n / 16) && !x.stale then
    (frzOf s n k).take (fld s (A.emlCtrl n) 7 0) (fld s (A.emlCtrl n) 14 12) x else frzOf s n k
  .all [
    setFrz n k z,
    Act.when (z.frozen && !(frzOf s n k).frozen) (event (A.emlStat n) 1 (208 + 2 * (n / 16)) 255 n),
    Act.when (x.sat && !(elemVoa s (56 * n + k / 2) && decide (k % 2 = 1))) (setBit (A.emlStat n) 0),
    Act.when (!x.missing && !x.stale) (setLastCode n k x.code),
    setSample (56 * n + k / 2) (k % 2) { x with frozen := z.frozen && bit s (A.emlCtrl n) 15 }]

/-- FRZ_COUNT of lane n. -/
def frzCount (s : State) (n : Nat) : Nat := ((List.range 112).filter fun k => (frzOf s n k).frozen).length

/-- One lane's conversions. -/
def convertLane (samples : List RawSample) (n : Nat) : Act := .all [
  .whenS (fun s => converts s (n / 16)) (Act.upto 4 (takeRefs samples n)),
  Act.upto 112 (convertSlot samples n),
  .look fun s => setFld (A.emlStat n) 18 12 (frzCount s n)]

/-- The results of the entries converted in this frame (R87). -/
def writeResults (samples : List RawSample) (t : Nat) : Act := .look fun s =>
  Act.each (groupOf s t).converted fun p =>
    let x := { s with lane := { s.lane with groups := smod (fun _ => {}) s.lane.groups t fun g => { g with converted := [] } } }
    let y := sampleNow x samples p.lane p.slot
    writeMemWord (injResult t p.index) (injWord (y.missing || p.lost) (y.sat && !p.lost) p.claimed s.tim.frames
      (if p.lost then 0 else y.code.toNat))

/-- The entries placed for this frame: they are converted in it, or, where the group's conversions are off, are MISSING in it (Table CV-3). -/
def takePlaced (t : Nat) : Act := .look fun s => updGroup t fun g => { g with
  converted := if frameDue s t then g.placed else [], placed := if frameDue s t then [] else g.placed }

/-- One group's conversions in a frame (R80, R83, R85). -/
def convertGroup (samples : List RawSample) (t : Nat) : Act := .all [
  takePlaced t,
  .whenS (fun s => lclkRuns s t && domRuns s (27 + t)) (.all [
    .whenS (fun s => converts s t) (updGroup t fun g => { g with conv := min 1025 (g.conv + 1) }),
    Act.upto 16 fun l => convertLane samples (16 * t + l)]),
  writeResults samples t,
  .look fun s => updGroup t fun g => { g with
    lpCount := if bit s (grpStat t) 29 then g.lpCount + 1 else 0,
    resettle := if g.resettle ≤ 1 then g.resettle else g.resettle - 1 }]

/-! ## One tile's downlink frame -/

/-- The sequence of group t may place entries in this frame: it runs, in a converted frame (R83, R85). -/
def injReady (s : State) (t : Nat) : Bool :=
  bit s (grpStat t) 28 && decide ((groupOf s t).pos < injLen s t) && domRuns s (27 + t) && frameDue s t

/-- Send the waiting message `m` and take it off the queue. -/
def sendQueued (t : Nat) (m : Option Msg) : Act := .all [
  sendDownlink t m,
  (match m with
    | some x => updTile t fun l => { l with queue := l.queue.erase x }
    | none => .done)]

/-- Place the entries of one frame and send their INJECT message (R85); a frame that places none carries message `m`. -/
def sendInject (t : Nat) (m : Option Msg) : Act := .look fun s =>
  let x := injPlace s t 33 { pos := (groupOf s t).pos }
  .all [
    Act.each x.bad fun i => writeMemWord (injResult t i) (injWord true false false s.tim.frames 0),
    setFld (grpStat t) 27 23 (min x.pos 31),
    updGroup t fun g => { g with
      pos := x.pos,
      placed := x.placed,
      claims := (x.placed.filter (·.claimed)).map fun p => (p.lane, p.slot / 2) },
    if x.placed.isEmpty then sendQueued t m else sendDownlink t (some (injMsg s t x.placed))]

/-- The lane frame that ends brought an uplink frame or none (R52); frames missing are counted from the first uplink lock after LCLK started
(DESIGN CHOICE, log entry 111). Then choose and send the downlink frame of tile t (R86): an urgent INJECT, a waiting message, a non-urgent
INJECT, or NONE. -/
def tileFrame (t : Nat) : Act := .whenS (fun s => lclkRuns s t) (.all [
  .look fun s =>
    let x := tileLink s t
    .all [
      Act.when (x.everLocked && !x.gotAny) (bump (A.fclCnt0 t) 15 0),
      Act.when (!x.gotAny && !x.noSync) (missSync t),
      updTile t fun x => { x with
        missing := if x.everLocked && !x.gotGood then x.missing + 1 else 0, gotAny := false, gotGood := false, noSync := false }],
  .look fun s =>
    let m := pickMsg (tileLink s t).queue
    if injReady s t && (bit s (grpCtrl t) 30 || m.isNone) then sendInject t m
    else .all [updGroup t fun g => { g with claims := [] }, sendQueued t m]])

/-! ## Range changes in a frame (Table CV-1) -/

/-- Frames F and F+1 of a range change: the phase, and the SLOT_VALID that clears the mask. -/
def rchgFrame (n : Nat) : Act := .look fun s =>
  match (laneOf s n).rchg with
  | none => .done
  | some r => .all [
      Act.when (decide (s.tim.frames = r.start)) (setFld (A.edlStat n) 3 2 1),
      Act.when (decide (r.start < s.tim.frames) && !r.sent) (.all [
        updLaneN n fun x => { x with mask := 0#60, rchg := some { r with sent := true } },
        queueMsg (n / 16) (.slotValid (n % 16) 0#60)])]

/-! ## Frame trimming (R34, R272) -/

/-- The scheduler's trim: one root cycle toward a smaller |e| where |e| exceeds half a root cycle, one frame in any four. The
phase error is in thousandths of a root cycle; FRAME_ALIGNED is |e| at most 1 ns, 6.144 root cycles. -/
def frameTrim (phase : Int) : Act := .look fun s =>
  let due := decide (3 ≤ s.lane.sinceTrim) && decide (phase < -500 ∨ 500 < phase) && domRuns s 39
  .all [
    Act.when (domRuns s 39) (.all [
      setFld A.frameErr 15 0 (unsigned 16 ((2 * phase + 1000) / 2000)),
      putBit A.ptpStat 26 (decide (-6144 ≤ phase) && decide (phase ≤ 6144))]),
    updLane fun x => { x with sinceTrim := if due then 0 else min 3 (x.sinceTrim + 1) },
    Act.when due (updEng fun x => { x with trim := x.trim + if 0 < phase then -1 else 1 })]

/-! ## The Replay Recorder (R302) -/

/-- HBM capacity of the ring in records (R302). -/
abbrev repCapacity : Nat := 455747

/-- Pack 14-bit codes most significant bit first into bytes. -/
def packBits : List Bool → List Byte
  | b7 :: b6 :: b5 :: b4 :: b3 :: b2 :: b1 :: b0 :: r =>
    BitVec.ofNat 8 ([b7, b6, b5, b4, b3, b2, b1, b0].foldl (fun a b => 2 * a + b.toNat) 0) :: packBits r
  | _ => []

/-- The record of this lane frame: header, then the codes of both points of every element. -/
def repRecord (s : State) : List Byte :=
  let x (n m : Nat) : Sample := sget (fun _ => {}) s.eng.smpFill (2 * n + m)
  let parked := (List.range 12).foldl (fun a t => if bit s (A.tileStat t) tsHoldOut then a + 2 ^ t else a) 0
  let missing := (List.range 192).foldl (fun a l =>
    if (List.range 112).any (fun k => (x (56 * l + k / 2) (k % 2)).missing) then a + 2 ^ l else a) 0
  natLe 8 (netFrame s) ++ natLe 8 (nowNs s) ++ natLe 2 parked ++ natLe 2 0 ++ natLe 24 missing ++ natLe 20 0 ++
  packBits ((List.range numElems).flatMap fun n => msb 14 (x n 0).code.toNat ++ msb 14 (x n 1).code.toNat)

/-- The recorder takes a frame: the HBM works, and it is neither frozen nor through with the frames after its trigger (R303). -/
def recording (s : State) : Bool :=
  bit s A.hbmStat 31 && !bit s A.repStat repFrozen && !(bit s A.repStat repPosting && decide (s.rep.left = 0))
/-- A slot is written in this frame: no line of it is retired (Table MM-6), and, which the spec leaves to the load on the HBM, the write came in
time; otherwise it keeps its older frame number (R302; a free choice, log entry 132). -/
def slotWritten (s : State) (w : Word) (i : Nat) : Bool :=
  w.getLsbD 0 && !s.hbmBad.any fun l => decide (37696 * i ≤ 64 * l + 63 ∧ 64 * l < 37696 * (i + 1))

/-- Write the record into slot N mod C. -/
def recordFrame : Act := .whenS recording (withFree fun w => .look fun s =>
  let c := max 1 (fld s A.repStat 18 0)
  let n := netFrame s
  .all [
    Act.when (slotWritten s w (n % c)) (writeHbm (37696 * (n % c)) (repRecord s)),
    updRep fun r => { r with
      newest := some n, oldest := some (max (r.oldest.getD n) (n + 1 - c)), left := r.left - 1 },
    .look fun s => wrPair A.repOldestLo A.repOldestHi (s.rep.oldest.getD 0)])

/-! ## The lane frame -/

/-- The device counts the lane frame; the first one after a reset takes its network frame number from network time (R257). -/
def countFrame : Act := .look fun s => updTim fun x =>
  { x with frames := x.frames + 1, frameOfs := if x.frames = 0 then Int.ofNat (nowFrame s) - 1 else x.frameOfs }

/-- The frame scheduler runs: from step 4 of bring-up on, with or without the TIME domain (Table LE-11, Table CK-3). -/
def schedulerRuns (s : State) : Bool := decide (4 ≤ fld s A.rstPhase 2 0)

/-- LANE_FRAME_START: one lane frame; `phase` gives its phase error once it is counted. -/
def laneFrame (phase : State → Int) (samples : List RawSample) : Act := .whenS schedulerRuns (.all [
  Act.upto 12 injectUnacked,
  countFrame,
  .look fun s => frameTrim (phase s),
  Act.upto 192 rchgFrame,
  applyTones,
  keepCodes,
  Act.upto 192 driveLane,
  advanceTones,
  Act.upto 12 (convertGroup samples),
  Act.upto 12 tileFrame,
  .upd .free .done,
  recordFrame])

/-! ## Range change commands (R67, R69-R71) -/

/-- A park code that the 0.5 V range cannot carry stands on lane n (R67). -/
def parkTooWide (s : State) (n : Nat) : Bool :=
  (List.range 56).any fun k => decide ((parkCode s n k).toInt < -16384) || decide (16383 < (parkCode s n k).toInt)

/-- Start a range change to `v` at the next frame boundary, or refuse it (R67, R69). -/
def startRchg (n : Nat) (v : Bool) : Act := .look fun s =>
  if !v && parkTooWide s n then setBit (A.edlStat n) 11
  else updLaneN n fun x => { x with rchg := some { start := s.tim.frames + 1, target := v, prev := x.mask } }

/-- RANGE_SEL_WRITE: a value that differs from RANGE_ACT starts the sequence; during a running one it is taken up when that
completes. -/
def writeRangeSel (n : Nat) (v : Bool) : Act := .look fun s => .all [
  putBit (A.edlCtrl n) 1 v,
  Act.when ((laneOf s n).rchg.isNone && (bit s (A.edlStat n) 1 != v)) (startRchg n v)]

def execRangeSelWrite (n : Fin 192) (v : Bool) (s : State) : Host.Outcome State Fault Refusal :=
  (hostWriteFld (A.edlCtrl n) 1 1 v.toNat (writeRangeSel n v)).next s

/-- Tone amplitudes keep their voltage: doubled and capped at 2,048 towards 0.5 V, halved with half up towards 1.0 V (R70). -/
def rescaleTone (target : Bool) (a : Nat) : Nat := if target then (a + 1) / 2 else min 2048 (2 * a)

/-- RANGE_SWITCH: for the lane frame that begins next, F+4 or later: one frame of park codes has followed the acknowledgement (Table CV-1). -/
def execRangeSwitch (n : Fin 192) (s : State) : Host.Outcome State Fault Refusal :=
  (Act.look fun s => match (laneOf s n).rchg with
    | none => .done
    | some r => Act.when (r.cleared && r.switched.isNone && !r.timedOut && decide (r.clearedAt + 1 ≤ s.tim.frames)) (.all [
        putBit (A.edlStat n) 1 r.target,
        setFld (A.edlStat n) 3 2 2,
        Act.upto 56 fun k => .look fun s => setTone n k
          { toneOf s n k with amp := rescaleTone r.target (toneOf s n k).amp },
        updLaneN n fun x => { x with rchg := some { r with switched := some (s.tim.frames + 1) } }])).next s

/-- RCHG_SETTLE_END: 64 settling frames from the switch on are emitted; the previous mask goes out with the next lane frame, F+68. -/
def execRchgSettleEnd (n : Fin 192) (s : State) : Host.Outcome State Fault Refusal :=
  (Act.look fun s => match (laneOf s n).rchg with
    | none => .done
    | some r => match r.switched with
      | none => .done
      | some f => Act.when (!r.restoring && !r.timedOut && decide (f + 63 ≤ s.tim.frames)) (.all [
          setFld (A.edlStat n) 3 2 3,
          updLaneN n fun x => { x with mask := r.prev, rchg := some { r with restoring := true } },
          queueMsg (n / 16) (.slotValid (n % 16) r.prev)])).next s

/-- RCHG_DONE: the restoring mask is acknowledged; a RANGE_SEL written meanwhile starts the next change. -/
def execRchgDone (n : Fin 192) (s : State) : Host.Outcome State Fault Refusal :=
  (Act.look fun s => match (laneOf s n).rchg with
    | none => .done
    | some r => Act.when r.restored (.all [
        setFld (A.edlStat n) 3 2 0, setBit (A.edlStat n) 9,
        updLaneN n fun x => { x with rchg := none },
        Act.when (bit s (A.edlCtrl n) 1 != r.target) (startRchg n (bit s (A.edlCtrl n) 1))])).next s

/-- RCHG_TIMEOUT: not complete by frame F+240; the tile parks by the source's forced reaction (R71). -/
def execRchgTimeout (n : Fin 192) (s : State) : Host.Outcome State Fault Refusal :=
  (Act.look fun s => match (laneOf s n).rchg with
    | none => .done
    | some r => Act.when (!r.timedOut && decide (r.start + 240 ≤ s.tim.frames)) (.all [
        updLaneN n fun x => { x with rchg := some { r with timedOut := true } },
        event (A.edlStat n) 10 (183 + 2 * (n / 16)) 255 n])).next s

/-- FORCE_PARK_WRITE (Table CV-6). -/
def execForceParkWrite (n : Fin 192) (v : Bool) (s : State) : Host.Outcome State Fault Refusal :=
  (hostWriteFld (A.edlCtrl n) 0 0 v.toNat (putBit (A.edlCtrl n) 0 v)).next s

/-- EDL_CNT_CLR (R94). -/
def execEdlCntClr (n : Fin 192) (s : State) : Host.Outcome State Fault Refusal :=
  (hostWriteFld (A.edlCtrl n) 7 7 1 (clearRegs [A.edlNancnt n, A.edlSatcnt n])).next s

/-! ## Reference buffer, conversions and low-power mode (R80-R83) -/

/-- Conversions of group t start afresh. -/
def restartConv (t : Nat) : Act := .all [
  updGroup t fun g => { g with conv := 0, settled := false },
  Act.upto 16 fun l => Act.upto 4 fun j => updSlice (16 * t + l) j fun _ => {}]

/-- CONV_ON follows CONV_EN and REFBUF_RDY. -/
def refreshConv (t : Nat) : Act := .look fun s =>
  let on := bit s (grpCtrl t) 20 && bit s (grpStat t) 31
  .all [Act.when (on && !bit s (grpStat t) 30) (restartConv t), putBit (grpStat t) 30 on]

/-- Write REFBUF_EN (R82): clearing it clears CONV_EN. Until the Park Table is loaded it stays 0 (R400). -/
def writeRefbuf (t : Nat) (v : Bool) : Act := .look fun s =>
  if v then Act.when (!bit s (grpCtrl t) 19 && !s.clk.noPark) (.all [
    setBit (grpCtrl t) 19, clrBit (grpStat t) 31, updGroup t fun g => { g with refAt := s.tim.frames }])
  else .all [clrBit (grpCtrl t) 19, clrBit (grpCtrl t) 20, clrBit (grpStat t) 31, clrBit (grpStat t) 30,
    updGroup t fun g => { g with autoConv := false }]

def execRefbufEnWrite (t : Fin 12) (v : Bool) (s : State) : Host.Outcome State Fault Refusal :=
  (hostWriteFld (grpCtrl t) 19 19 v.toNat (writeRefbuf t v)).next s

/-- REFBUF_READY (R82): 8,000 frames after REFBUF_EN rose; in bring-up the device then sets CONV_EN itself. -/
def execRefbufReady (t : Fin 12) (s : State) : Host.Outcome State Fault Refusal :=
  (Act.whenS (fun s => bit s (grpCtrl t) 19 && !bit s (grpStat t) 31 &&
      decide ((groupOf s t).refAt + 8000 ≤ s.tim.frames)) (.all [
    setBit (grpStat t) 31,
    .whenS (fun s => (groupOf s t).autoConv) (setBit (grpCtrl t) 20),
    refreshConv t])).next s

/-- Write CONV_EN (R82): before REFBUF_RDY it reports REF_EARLY, and samples stay MISSING until then. -/
def writeConvEn (t : Nat) (v : Bool) : Act := .all [
  putBit (grpCtrl t) 20 v,
  .whenS (fun s => v && !bit s (grpStat t) 31) (setBit (grpStat t) 7),
  refreshConv t]

def execConvEnWrite (t : Fin 12) (v : Bool) (s : State) : Host.Outcome State Fault Refusal :=
  (hostWriteFld (grpCtrl t) 20 20 v.toNat (writeConvEn t v)).next s

/-- CAL_SETTLED (R80): after 1,025 converted frames samples are no longer flagged MISSING for it. -/
def execCalSettled (t : Fin 12) (s : State) : Host.Outcome State Fault Refusal :=
  (Act.whenS (fun s => decide (1025 ≤ (groupOf s t).conv)) (updGroup t fun g => { g with settled := true })).next s

/-- CAL_FAULT_EXIT (R81): 256 consecutive frames with every condition met. -/
def execCalFaultExit (n : Fin 192) (j : Fin 4) (s : State) : Host.Outcome State Fault Refusal :=
  (Act.whenS (fun s => calFault s n j && decide (256 ≤ (sliceOf s n j).good)) (.all [
    clrBit (A.emlStat n) (19 + j),
    updSlice n j fun x => { x with keptHigh := x.high, keptLow := x.low }])).next s

/-- The element's loop is OFF or PARK, or its engine is stopped; a halted one holds its drives (R83, R116, Table SL-3). -/
def offOrPark (s : State) (e : Nat) : Bool :=
  !(bit s (A.engStat (engineOf e)) 31 || bit s (A.engStat (engineOf e)) 30) || elemWord s e 0 == 0#32 || elemWord s e 0 == 0x3F800000#32

/-- Leave low-power mode: 160 frames of re-settling (R83). -/
def leaveLp (t : Nat) : Act := .whenS (fun s => bit s (grpStat t) 29) (.all [
  clrBit (grpCtrl t) 21, clrBit (grpStat t) 29, updGroup t fun g => { g with resettle := 161, lpCount := 0 }])

/-- Write LP_EN (R83): refused unless every element of the group is OFF or PARK. -/
def writeLp (t : Nat) (v : Bool) : Act := .look fun s =>
  if !v then .all [leaveLp t, clrBit (grpCtrl t) 21]
  else if bit s (grpStat t) 29 then .done
  else if (List.range 896).all fun i => offOrPark s (896 * t + i) then .all [
    setBit (grpCtrl t) 21, setBit (grpStat t) 29, updGroup t fun g => { g with lpCount := 0 }]
  else setBit (grpStat t) 6

def execLpEnWrite (t : Fin 12) (v : Bool) (s : State) : Host.Outcome State Fault Refusal :=
  (hostWriteFld (grpCtrl t) 21 21 v.toNat (writeLp t v)).next s

/-- LP_RESETTLE_DONE (R83): once the 160 frames are over. -/
def execLpResettleDone (t : Fin 12) (s : State) : Host.Outcome State Fault Refusal :=
  (Act.whenS (fun s => decide ((groupOf s t).resettle ≤ 1)) (updGroup t fun g => { g with resettle := 0 })).next s

/-! ## Injected sequence commands (R84, R87) -/

def execInjGo (t : Fin 12) (s : State) : Host.Outcome State Fault Refusal :=
  (hostWriteFld (grpCtrl t) 31 31 1 (injStart t)).next s

/-- The instant `n`, in 250 ns intervals since the epoch, is reached (R259); a step disarms the trigger at the next frame boundary, and until then
the time before it counts (R269). -/
def instantReached (s : State) (n : Nat) : Bool := schedReached s (250 * n)

/-- INJ_TIME_TRIGGER (R84): an armed time trigger starts the sequence while INJ_TRIG[0] is set. -/
def execInjTimeTrigger (t : Fin 12) (s : State) : Host.Outcome State Fault Refusal :=
  (Act.look fun s => match (groupOf s t).timeTrig with
    | none => .done
    | some n => Act.when (instantReached s n) (.all [
        updGroup t fun g => { g with timeTrig := none },
        Act.when (bit s (grpCtrl t) 22) (injStart t)])).next s

/-- INJ_DONE (R87): every entry is placed and every result is written. -/
def execInjDone (t : Fin 12) (s : State) : Host.Outcome State Fault Refusal :=
  (Act.whenS (fun s => bit s (grpStat t) 28 && decide (injLen s t ≤ (groupOf s t).pos) && (groupOf s t).placed.isEmpty) (.all [
    clrBit (grpStat t) 28, setBit (grpStat t) 3])).next s

end Sys2Proof.Machine
end

