-- ==== Sys2Proof/Machine/GloitWord.lean ====
section
/-!
DEFINITION. The 64-bit words of the Gloit set (spec/05_gloit_isa.md Tables GI-2, GI-3), the program checks of Table GI-9 and the
static count of R144.
-/

namespace Sys2Proof.Machine

/-! ## Words -/

/-- MSEL and MINV as one number: MSEL x 2 + MINV. -/
def maskBits : Mask → Nat
  | .all => 0
  | .pred p inv => 2 * (p + 1) + inv.toNat

/-- A word from its fields (Table GI-2). -/
def gword (op d a b c mask imm : Nat) : BitVec 64 :=
  BitVec.ofNat 64 (op * 2 ^ 56 + d * 2 ^ 51 + a * 2 ^ 46 + b * 2 ^ 41 + c * 2 ^ 36 + mask * 2 ^ 32 + imm)

/-- ccc of a condition. -/
def cmpCode : Cmp → Nat
  | .eq => 0 | .ne => 1 | .lt => 2 | .le => 3 | .gt => 4 | .ge => 5 | .ord => 6 | .unord => 7

def cmpOf : Nat → Cmp
  | 0 => .eq | 1 => .ne | 2 => .lt | 3 => .le | 4 => .gt | 5 => .ge | 6 => .ord | _ => .unord

/-- Fields d, a, b of a branch. -/
def brFields : BrCond → Nat × Nat × Nat
  | .al => (0, 0, 0)
  | .eqz a => (1, a, 0)
  | .nez a => (2, a, 0)
  | .lt a b => (3, a, b)
  | .ge a b => (4, a, b)
  | .eq a b => (5, a, b)
  | .ne a b => (6, a, b)
  | .ltu a b => (7, a, b)
  | .geu a b => (8, a, b)

def specCode : SpecReg → Nat
  | .gb => 0 | .frame => 1 | .engine => 2 | .rot => 3 | .spev => 4 | .cycle => 5

/-- IMM[8:4] of an IN.MON. -/
def flagBits (f : FlagSel) : Nat :=
  16 * f.missing.toNat + 32 * f.sat.toNat + 64 * f.frozen.toNat + 128 * f.stale.toNat + 256 * f.hold.toNat

/-- IMM of a TONE but for WA and WP (Table GI-11). -/
def toneBits : ToneFreq → Nat
  | .keep p => 16 * p.toNat
  | .hz p => 1 + 16 * p.toNat
  | .ditherPlan step => 1 + 32 + 256 * step.toNat
  | .pilotPlan => 1 + 16 + 32

/-- Two sources: the last is field b. -/
def gv2 (op : Nat) (m : Mask) (d a : Nat) : VSrc → BitVec 64
  | .reg r => gword op d a r 0 (maskBits m) 0
  | .imm w => gword (op + 1) d a 0 0 (maskBits m) w.toNat

/-- Three sources: the last is field c. -/
def gv3 (op : Nat) (m : Mask) (d a b : Nat) : VSrc → BitVec 64
  | .reg r => gword op d a b r (maskBits m) 0
  | .imm w => gword (op + 1) d a b 0 (maskBits m) w.toNat

/-- A scalar operation and a shift. -/
def gs2 (op d a : Nat) : SSrc → BitVec 64
  | .reg r => gword op d a r 0 0 0
  | .imm w => gword (op + 1) d a 0 0 0 w.toNat

def gsh (op d a : Nat) : ShSrc → BitVec 64
  | .reg r => gword op d a r 0 0 0
  | .imm n => gword (op + 1) d a 0 0 0 n

/-- The word of an instruction (Table GI-3). -/
def gencode : GOp → BitVec 64
  | .nop => gword 0x00 0 0 0 0 0 0
  | .end_ => gword 0x01 0 0 0 0 0 0
  | .grp => gword 0x02 0 0 0 0 0 0
  | .gnext => gword 0x03 0 0 0 0 0 0
  | .br c t => gword 0x04 (brFields c).1 (brFields c).2.1 (brFields c).2.2 0 0 t.toNat
  | .evt m code => gword 0x05 0 0 0 0 (maskBits m) code.toNat
  | .rdsr d sel => gword 0x06 d 0 0 0 0 (specCode sel)
  | .fadd m d a b => gv2 0x10 m d a b
  | .fsub m d a b => gv2 0x12 m d a b
  | .fmul m d a b => gv2 0x14 m d a b
  | .fma m d a b c => gv3 0x16 m d a b c
  | .fms m d a b c => gv3 0x18 m d a b c
  | .fmin m d a b => gv2 0x1A m d a b
  | .fmax m d a b => gv2 0x1C m d a b
  | .fclamp m d a b c => gv3 0x1E m d a b c
  | .fabs m d a => gword 0x20 d a 0 0 (maskBits m) 0
  | .fneg m d a => gword 0x21 d a 0 0 (maskBits m) 0
  | .frcp m d a => gword 0x22 d a 0 0 (maskBits m) 0
  | .frsq m d a => gword 0x23 d a 0 0 (maskBits m) 0
  | .vmov m d a => gword 0x24 d a 0 0 (maskBits m) 0
  | .vmovI m d w => gword 0x25 d 0 0 0 (maskBits m) w.toNat
  | .vidx m d => gword 0x26 d 0 0 0 (maskBits m) 0
  | .fcmp cc m d a b => gword (0x30 + cmpCode cc) d a b 0 (maskBits m) 0
  | .fcmpI cc m d a w => gword (0x38 + cmpCode cc) d a 0 0 (maskBits m) w.toNat
  | .sel m d a b c => gword 0x40 d a b c (maskBits m) 0
  | .pand d a b => gword 0x44 d a b 0 0 0
  | .por d a b => gword 0x45 d a b 0 0 0
  | .pxor d a b => gword 0x46 d a b 0 0 0
  | .pandn d a b => gword 0x47 d a b 0 0 0
  | .pset d v => gword 0x48 d 0 0 0 0 v.toNat
  | .pmovs d a => gword 0x49 d a 0 0 0 0
  | .pmovp d a => gword 0x4A d a 0 0 0 0
  | .vbc m d a => gword 0x4C d a 0 0 (maskBits m) 0
  | .vext d a lane => gword 0x4D d a 0 0 0 lane
  | .add d a b => gs2 0x50 d a b
  | .sub d a b => gs2 0x52 d a b
  | .and_ d a b => gs2 0x54 d a b
  | .or_ d a b => gs2 0x56 d a b
  | .xor_ d a b => gs2 0x58 d a b
  | .shl d a b => gsh 0x5A d a b
  | .shr d a b => gsh 0x5C d a b
  | .sar d a b => gsh 0x5E d a b
  | .mul d a b => gs2 0x60 d a b
  | .slt d a b => gs2 0x62 d a b
  | .sltu d a b => gs2 0x64 d a b
  | .movi d w => gword 0x66 d 0 0 0 0 w.toNat
  | .ld m d w => gword 0x70 d 0 0 0 (maskBits m) w
  | .st m a w => gword 0x71 0 a 0 0 (maskBits m) w
  | .lds d lane w => gword 0x72 d 0 0 0 0 (lane * 2 ^ 8 + w)
  | .tld d a ofs => gword 0x73 d a 0 0 0 ofs.toNat
  | .inMon m d point volts fout => match fout with
    | none => gword 0x78 d 0 0 0 (maskBits m) (point.toNat + 2 * volts.toNat)
    | some (p, f) => gword 0x78 d p 0 0 (maskBits m) (point.toNat + 2 * volts.toNat + 4 + flagBits f)
  | .outDrv m a => gword 0x79 0 a 0 0 (maskBits m) 0
  | .tone m f wa wp vf vamp vph => gword 0x7A 0 vf vamp vph (maskBits m) (toneBits f + 2 * wa.toNat + 4 * wp.toNat)
  | .lut m d a => gword 0x7B d a 0 0 (maskBits m) 0

/-- What Table GI-9 asks of an instruction beyond its form: an EVT code of a program, a dither step that is not 0. -/
def gopOk : GOp → Bool
  | .evt _ code => decide (code.toNat ≤ 0xFEFF)
  | .tone _ (.ditherPlan step) _ _ _ _ _ => decide (step ≠ 0#24)
  | _ => true

/-- A field of a word. -/
def gfield (w : BitVec 64) (lo n : Nat) : BitVec n := w.extractLsb' lo n

/-- The instruction that a word's opcode and fields read as; whether every unused bit is 0 is not looked at here. -/
def gread (w : BitVec 64) : Option GOp :=
  let d := (gfield w 51 5).toFin
  let a := (gfield w 46 5).toFin
  let b := (gfield w 41 5).toFin
  let c := (gfield w 36 5).toFin
  let pd := (gfield w 51 3).toFin
  let pa := (gfield w 46 3).toFin
  let pb := (gfield w 41 3).toFin
  let pc := (gfield w 36 3).toFin
  let msel := (gfield w 33 3).toNat
  let m : Mask := if h : msel - 1 < 7 then (if msel = 0 then .all else .pred ⟨msel - 1, h⟩ ((gfield w 32 1) == 1#1)) else .all
  let imm : BitVec 32 := gfield w 0 32
  let i := (gfield w 56 1) == 1#1
  let vb : VSrc := if i then .imm imm else .reg b
  let vc : VSrc := if i then .imm imm else .reg c
  let sb : SSrc := if i then .imm imm else .reg b
  let sh : ShSrc := if i then .imm (gfield w 0 5).toFin else .reg b
  let word := (gfield w 0 7).toFin
  let bt (k : Nat) : Bool := w.getLsbD k
  match (gfield w 56 8).toNat with
  | 0x00 => some .nop
  | 0x01 => some .end_
  | 0x02 => some .grp
  | 0x03 => some .gnext
  | 0x04 =>
    let t : BitVec 12 := gfield w 0 12
    match (gfield w 51 5).toNat with
    | 0 => some (.br .al t)
    | 1 => some (.br (.eqz a) t)
    | 2 => some (.br (.nez a) t)
    | 3 => some (.br (.lt a b) t)
    | 4 => some (.br (.ge a b) t)
    | 5 => some (.br (.eq a b) t)
    | 6 => some (.br (.ne a b) t)
    | 7 => some (.br (.ltu a b) t)
    | 8 => some (.br (.geu a b) t)
    | _ => none
  | 0x05 => some (.evt m (gfield w 0 16))
  | 0x06 => match (gfield w 0 3).toNat with
    | 0 => some (.rdsr d .gb)
    | 1 => some (.rdsr d .frame)
    | 2 => some (.rdsr d .engine)
    | 3 => some (.rdsr d .rot)
    | 4 => some (.rdsr d .spev)
    | 5 => some (.rdsr d .cycle)
    | _ => none
  | 0x10 | 0x11 => some (.fadd m d a vb)
  | 0x12 | 0x13 => some (.fsub m d a vb)
  | 0x14 | 0x15 => some (.fmul m d a vb)
  | 0x16 | 0x17 => some (.fma m d a b vc)
  | 0x18 | 0x19 => some (.fms m d a b vc)
  | 0x1A | 0x1B => some (.fmin m d a vb)
  | 0x1C | 0x1D => some (.fmax m d a vb)
  | 0x1E | 0x1F => some (.fclamp m d a b vc)
  | 0x20 => some (.fabs m d a)
  | 0x21 => some (.fneg m d a)
  | 0x22 => some (.frcp m d a)
  | 0x23 => some (.frsq m d a)
  | 0x24 => some (.vmov m d a)
  | 0x25 => some (.vmovI m d imm)
  | 0x26 => some (.vidx m d)
  | 0x30 | 0x31 | 0x32 | 0x33 | 0x34 | 0x35 | 0x36 | 0x37 => some (.fcmp (cmpOf (gfield w 56 3).toNat) m pd a b)
  | 0x38 | 0x39 | 0x3A | 0x3B | 0x3C | 0x3D | 0x3E | 0x3F => some (.fcmpI (cmpOf (gfield w 56 3).toNat) m pd a imm)
  | 0x40 => some (.sel m d a b pc)
  | 0x44 => some (.pand pd pa pb)
  | 0x45 => some (.por pd pa pb)
  | 0x46 => some (.pxor pd pa pb)
  | 0x47 => some (.pandn pd pa pb)
  | 0x48 => some (.pset pd (gfield w 0 16))
  | 0x49 => some (.pmovs d pa)
  | 0x4A => some (.pmovp pd a)
  | 0x4C => some (.vbc m d a)
  | 0x4D => some (.vext d a (gfield w 0 4).toFin)
  | 0x50 | 0x51 => some (.add d a sb)
  | 0x52 | 0x53 => some (.sub d a sb)
  | 0x54 | 0x55 => some (.and_ d a sb)
  | 0x56 | 0x57 => some (.or_ d a sb)
  | 0x58 | 0x59 => some (.xor_ d a sb)
  | 0x5A | 0x5B => some (.shl d a sh)
  | 0x5C | 0x5D => some (.shr d a sh)
  | 0x5E | 0x5F => some (.sar d a sh)
  | 0x60 | 0x61 => some (.mul d a sb)
  | 0x62 | 0x63 => some (.slt d a sb)
  | 0x64 | 0x65 => some (.sltu d a sb)
  | 0x66 => some (.movi d imm)
  | 0x70 => some (.ld m d word)
  | 0x71 => some (.st m a word)
  | 0x72 => some (.lds d (gfield w 8 4).toFin word)
  | 0x73 => some (.tld d a imm)
  | 0x78 => some (.inMon m d (bt 0) (bt 1) (if bt 2 then
      some (pa, { missing := bt 4, sat := bt 5, frozen := bt 6, stale := bt 7, hold := bt 8 }) else none))
  | 0x79 => some (.outDrv m a)
  | 0x7A =>
    let f : ToneFreq :=
      if !bt 0 then .keep (bt 4)
      else if !bt 5 then .hz (bt 4)
      else if bt 4 then .pilotPlan else .ditherPlan (gfield w 8 24)
    some (.tone m f (bt 1) (bt 2) a b c)
  | 0x7B => some (.lut m d a)
  | _ => none

/-- The instruction of a word: none unless every bit that its opcode does not use is 0 and Table GI-9 admits it. -/
def gdecode (w : BitVec 64) : Option GOp := (gread w).bind fun op => if gencode op = w ∧ gopOk op then some op else none

/-! ## Programs (R143, R144) -/

/-- Cycles of an instruction (Table GI-3). -/
def gopCost : GOp → Nat
  | .tld .. => 2
  | .lut .. => 2
  | _ => 1

/-- The words of an image, eight bytes each, little-endian. -/
def programWords (img : List Byte) : List (BitVec 64) :=
  (List.range (img.length / 8)).map fun n => BitVec.ofNat 64 (leAt img (8 * n) 8)

/-- The index of the last instruction of the region that index i lies in, with GRP at g and GNEXT at n where there are any. -/
def regionEnd (len i : Nat) (loop : Option (Nat × Nat)) : Nat := match loop with
  | none => len - 1
  | some (g, n) => if i ≤ g then g else if i ≤ n then n else len - 1

/-- GRP and GNEXT of a program that has one of each. -/
def loopOfProgram (p : List (Option GOp)) : Option (Nat × Nat) :=
  match p.findIdx? (· == some .grp), p.findIdx? (· == some .gnext) with
  | some g, some n => some (g, n)
  | _, _ => none

/-- The checks of Table GI-9 on instruction i. A check of the whole program fails at one instruction: a missing END at the last one, a second
GRP or one without GNEXT at the first GRP (DESIGN CHOICE, log entry 124). -/
def instrOk (p : List (Option GOp)) (i : Nat) : Bool :=
  let grps := (List.range p.length).filter fun k => p[k]?.join == some .grp
  let nexts := (List.range p.length).filter fun k => p[k]?.join == some .gnext
  match p[i]?.join with
  | none => false
  | some op => (decide (op = .end_) == decide (i + 1 = p.length)) && (match op with
    | .grp => decide (grps.length = 1) && nexts.any (i < ·)
    | .gnext => decide (nexts.length = 1) && grps.any fun g => decide (g + 1 < i)
    | .br _ t => decide (i < t.toNat) && decide (t.toNat ≤ regionEnd p.length i (loopOfProgram p))
    | _ => true)

/-- The index of the first failing instruction, where a check fails; a bad length fails at 0. -/
def programFault (words : List (BitVec 64)) : Option Nat :=
  let p := words.map gdecode
  if words.length = 0 ∨ 4096 < words.length then some 0 else (List.range p.length).find? fun i => !instrOk p i

/-- Largest sums of cycles from each instruction to the end of its region, which ends at index `last`; the list starts at index
`i`. BR.AL has one way on (log entry 12). -/
def pathSums (i last : Nat) : List GOp → List Nat
  | [] => []
  | op :: r =>
    let rest := pathSums (i + 1) last r
    let at_ (k : Nat) : Nat := if last < k then 0 else rest[k - (i + 1)]?.getD 0
    (gopCost op + match op with
      | .br .al t => at_ t.toNat
      | .br _ t => max (at_ (i + 1)) (at_ t.toNat)
      | _ => at_ (i + 1)) :: rest

/-- Count of the region from index lo to index hi. -/
def regionCount (p : List GOp) (lo hi : Nat) : Nat := (pathSums lo hi ((p.drop lo).take (hi + 1 - lo))).headD 0

/-- The static count (R144). -/
def staticCount (words : List (BitVec 64)) : Nat :=
  let p := words.filterMap gdecode
  match loopOfProgram (p.map some) with
  | none => regionCount p 0 (p.length - 1)
  | some (g, n) => regionCount p 0 g + 7 * regionCount p (g + 1) n + regionCount p (n + 1) (p.length - 1)

end Sys2Proof.Machine
end

