-- ==== Sys2Proof/Machine/Host.lean ====
section
/-!
DEFINITION. Status codes of commands (spec/09_command_set.md Table CS-17) and the end of a command.
-/

namespace Sys2Proof.Machine

/-! Status codes (Table CS-17). -/

abbrev St.success : Nat := 0x0000
abbrev St.opcodeInvalid : Nat := 0x0101
abbrev St.fieldInvalid : Nat := 0x0102
abbrev St.lengthInvalid : Nat := 0x0103
abbrev St.lengthExceeds : Nat := 0x0104
abbrev St.lengthMismatch : Nat := 0x0105
abbrev St.countInvalid : Nat := 0x0106
abbrev St.payloadInvalid : Nat := 0x0107
abbrev St.respTooSmall : Nat := 0x0108
abbrev St.seqStale : Nat := 0x0109
abbrev St.busy : Nat := 0x0201
abbrev St.queueInvalid : Nat := 0x0202
abbrev St.dmaError : Nat := 0x0203
abbrev St.bufferRange : Nat := 0x0204
abbrev St.progOverBudget : Nat := 0x0210
abbrev St.progInvalid : Nat := 0x0211
abbrev St.topologyAbsent : Nat := 0x0301
abbrev St.topologyInvalid : Nat := 0x0302
abbrev St.topologyInUse : Nat := 0x0303
abbrev St.mapInvalid : Nat := 0x0304
abbrev St.portNotOwned : Nat := 0x0305
abbrev St.rightMissing : Nat := 0x0306
abbrev St.topologyMismatch : Nat := 0x0307
abbrev St.portInUse : Nat := 0x0308
abbrev St.routeBlocked : Nat := 0x0309
abbrev St.routeTimeout : Nat := 0x030A
abbrev St.commitNotStaged : Nat := 0x030B
abbrev St.settleFailed : Nat := 0x030C
abbrev St.needsHuddle : Nat := 0x030D
abbrev St.preempted : Nat := 0x030E
abbrev St.elementInvalid : Nat := 0x030F
abbrev St.calRefused : Nat := 0x0310
abbrev St.coefInvalid : Nat := 0x0311
abbrev St.connAbsent : Nat := 0x0312
abbrev St.calFailed : Nat := 0x0313
abbrev St.huddleNoSlot : Nat := 0x0401
abbrev St.huddleGroupInvalid : Nat := 0x0402
abbrev St.huddleUnreachable : Nat := 0x0403
abbrev St.huddleTNear : Nat := 0x0404
abbrev St.huddleTimeUnsync : Nat := 0x0405
abbrev St.huddleVoteNo : Nat := 0x0406
abbrev St.huddleAborted : Nat := 0x0407
abbrev St.huddleReverted : Nat := 0x0408
abbrev St.huddleForced : Nat := 0x0409
abbrev St.huddleParamInvalid : Nat := 0x040A
abbrev St.huddleTBusy : Nat := 0x040B
abbrev St.huddleGroupUnknown : Nat := 0x040C
abbrev St.huddleNotInDoubt : Nat := 0x040D
abbrev St.adminOnly : Nat := 0x0501
abbrev St.sigRequired : Nat := 0x0502
abbrev St.sigInvalid : Nat := 0x0503
abbrev St.rollback : Nat := 0x0504
abbrev St.keyState : Nat := 0x0505
abbrev St.challengeInvalid : Nat := 0x0506
abbrev St.notReady : Nat := 0x0601
abbrev St.engineState : Nat := 0x0602
abbrev St.bankActive : Nat := 0x0604
abbrev St.aborted : Nat := 0x0605
abbrev St.stateConflict : Nat := 0x0606
abbrev St.opBusy : Nat := 0x0607
abbrev St.nvmDeferred : Nat := 0x0701
abbrev St.nvmFull : Nat := 0x0702
abbrev St.nvmUncorr : Nat := 0x0703
abbrev St.nvmSlotEmpty : Nat := 0x0704
abbrev St.commitTNear : Nat := 0x0801
abbrev St.commitTFar : Nat := 0x0802
abbrev St.commitTimeStep : Nat := 0x0803
abbrev St.commitTGrid : Nat := 0x0804
abbrev St.commitTConflict : Nat := 0x0805
abbrev St.timeUnsync : Nat := 0x0806
abbrev St.triggerBusy : Nat := 0x0807
abbrev St.subFull : Nat := 0x0901
abbrev St.subInvalid : Nat := 0x0902
abbrev St.subNotFound : Nat := 0x0903
abbrev St.capacity : Nat := 0x0904
abbrev St.replayState : Nat := 0x0905
abbrev St.logRange : Nat := 0x0906

/-- Command `tag` ends with a status and its result words; its completion waits to be posted (R242). Data is the full
response, which posting cuts to RESP_LEN. -/
def complete (tag status : Nat) (r0 : Nat := 0) (r1 : Nat := 0) (data : List Byte := []) : Act :=
  updHost fun h => { h with done := h.done ++ [{ tag := tag, status := status, r0 := r0, r1 := r1, data := data }] }

/-- As `complete`, where a command waits. -/
def completeOpt (tag : Option Nat) (status : Nat) (r0 : Nat := 0) : Act := match tag with
  | some t => complete t status r0
  | none => .done

end Sys2Proof.Machine
end

