-- ==== Sys2Proof/Machine/Nvm.lean ====
section
/-!
DEFINITION. The MRAM: slots, records, transactions, the write inhibit, the recovery scan and the patrol; the Option Area and the
Park Table as stored (spec/12_memories.md R312-R322).
-/

namespace Sys2Proof.Machine

/-! ## Words -/

/-- `n` bytes of MRAM from offset `a`. -/
def mramAt (s : State) (a n : Nat) : List Byte := readBytes mramBlank s.mram a n

/-- The 64-bit word at byte offset `a` reads uncorrectable. -/
def mramWordBad (s : State) (a : Nat) : Bool := s.mramBad.contains (a / 8)

/-- Some word of a span reads uncorrectable. -/
def mramSpanBad (s : State) (a n : Nat) : Bool := s.mramBad.any fun w => decide (a / 8 ≤ w ∧ w < (a + n + 7) / 8)

/-- Write words; a word that is written reads correctable again. -/
def mramPut (a : Nat) (bs : List Byte) : Act := .look fun s => .all [
  writeMram a bs,
  Act.when (mramSpanBad s a bs.length)
    (.upd (.mramBad (s.mramBad.filter fun w => !decide (a / 8 ≤ w ∧ w < (a + bs.length + 7) / 8))) .done)]

/-- Region code of a byte offset (Table MM-2), where the table gives one. -/
def mramRegion (a : Nat) : Option Nat :=
  if a < 0x3000 then some 0 else if a < 0x4000 then some 1
  else if 0x10000 ≤ a ∧ a < 0x20000 then some 2 else if 0x20000 ≤ a ∧ a < 0x40000 then some 3
  else if 0x100000 ≤ a ∧ a < 0x200000 then some 4 else if 0x200000 ≤ a ∧ a < 0x400000 then some 5
  else if 0x400000 ≤ a ∧ a < 0x810000 then some 6
  else if 0x810000 ≤ a ∧ a < 0x1DB8000 then some 7 else none

/-! ## Slots and records (R313, Tables MM-2 and MM-3a; log entry 14) -/

/-- Size of a slot of a region, trailer included. -/
def slotSize : Nat → Nat
  | 1 => 0x800
  | 2 => 0x2000
  | 3 => 0x10000
  | 5 => 0x100000
  | 6 => 8256
  | 7 => 1056
  | _ => 0

/-- First byte of slot j of record i of a region. -/
def slotBase (r i j : Nat) : Nat := match r with
  | 1 => 0x3000 + 0x800 * j
  | 2 => 0x10000 + 0x4000 * i + 0x2000 * j
  | 3 => 0x20000 + 0x10000 * j
  | 5 => 0x200000 + 0x100000 * j
  | 6 => 0x400000 + 16512 * i + 8256 * j
  | _ => 0x810000 + 2112 * i + 1056 * j

/-- First byte of a slot's trailer. -/
def slotTrailer (r i j : Nat) : Nat := slotBase r i j + slotSize r - 32

/-- Records of a region. -/
def recCount : Nat → Nat
  | 1 => 1
  | 2 => 3
  | 3 => 1
  | 5 => 1
  | 6 => 256
  | 7 => numElems
  | _ => 0

abbrev slotMark : Nat := 0x4D525431

/-- A field of a slot's trailer. -/
def slotField (s : State) (r i j o n : Nat) : Nat := leNat (mramAt s (slotTrailer r i j + o) n)

/-- The payload a slot's trailer gives it. -/
def slotPayload (s : State) (r i j : Nat) : List Byte := mramAt s (slotBase r i j) (min (slotField s r i j 4 4) (slotSize r - 32))

/-- A slot is committed (R313). -/
def slotCommitted (s : State) (r i j : Nat) : Bool :=
  decide (slotField s r i j 28 4 = slotMark) && decide (slotField s r i j 4 4 ≤ slotSize r - 32) &&
  decide (slotField s r i j 8 8 ≤ s.nvm.txnC) && !mramSpanBad s (slotBase r i j) (slotSize r) &&
  decide ((crc32c (slotPayload s r i j ++ mramAt s (slotTrailer r i j) 24)).toNat = slotField s r i j 24 4)

/-- The committed slot of a record: the one with the larger TXN (R313). -/
def recSlot (s : State) (r i : Nat) : Option Nat :=
  let c0 := slotCommitted s r i 0
  let c1 := slotCommitted s r i 1
  if c0 && c1 then some (if slotField s r i 0 8 8 < slotField s r i 1 8 8 then 1 else 0)
  else if c0 then some 0 else if c1 then some 1 else none

/-- A record's value; none where it is absent or unreadable. -/
def recValue (s : State) (r i : Nat) : Option (List Byte) := (recSlot s r i).map (slotPayload s r i)

/-- AUX of a record's committed slot. -/
def recAux (s : State) (r i : Nat) : Nat := match recSlot s r i with
  | some j => slotField s r i j 16 8
  | none => 0

/-- The record that a byte of MRAM belongs to: region and index. -/
def recAt (a : Nat) : Option (Nat × Nat) := (mramRegion a).bind fun r =>
  let d := slotBase r 1 0 - slotBase r 0 0
  let i := if d = 0 then 0 else (a - slotBase r 0 0) / d
  if i < recCount r then some (r, i) else none

/-- A record that reads uncorrectable: no slot is committed and one of them holds a word that cannot be read. -/
def recUnreadable (s : State) (r i : Nat) : Bool :=
  (recSlot s r i).isNone && (mramSpanBad s (slotBase r i 0) (slotSize r) || mramSpanBad s (slotBase r i 1) (slotSize r))

/-! ## The commit words (R314) -/

abbrev commitOfs (k : Nat) : Nat := 0x4000 + 8 * k

/-- The transaction a commit word holds, where it is readable and passes its check. -/
def commitWord (s : State) (k : Nat) : Option Nat :=
  let v := leNat (mramAt s (commitOfs k) 8)
  if mramWordBad s (commitOfs k) ∨ v / 2 ^ 48 + v % 2 ^ 16 ≠ 0xFFFF then none else some (v % 2 ^ 48)

/-- The committed transaction number; none where both commit words are unreadable. -/
def storedTxn (s : State) : Option Nat := match commitWord s 0, commitWord s 1 with
  | some a, some b => some (max a b)
  | some a, none => some a
  | none, b => b

/-- NVM_TXN_FATAL: both commit words are unreadable, and all writes stop (R314). -/
def txnFatal : Act := .all [
  updNvm fun n => { n with stopped := true },
  setBit A.nvmEvt 7, raise { src := 339, addr := commitOfs 0, master := 102, access := 1 }]

/-- Bytes of a commit word. -/
def commitBytes (txn : Nat) : List Byte := natLe 6 txn ++ natLe 2 (0xFFFF - txn % 2 ^ 16)

/-! ## Transactions -/

/-- A list in pieces of at most n; `fuel` bounds their number. -/
def chunks {α : Type} (n : Nat) : Nat → List α → List (List α)
  | 0, _ => []
  | fuel + 1, l => if l.isEmpty then [] else l.take n :: chunks n fuel (l.drop n)

/-- Bytes at an offset as 64-bit words, the last filled with zeros. -/
def wordsOf (a : Nat) (bs : List Byte) : List (Nat × List Byte) :=
  (List.range ((bs.length + 7) / 8)).map fun k => (a + 8 * k, slice bs (8 * k) 8)

/-- The trailer of a slot (Table MM-3a). -/
def trailerOf (x : NvmRec) (txn : Nat) : List Byte :=
  let h := natLe 3 x.index ++ natLe 1 x.region ++ natLe 4 x.payload.length ++ natLe 8 txn ++ natLe 8 x.aux
  h ++ natLe 4 (crc32c (x.payload ++ h)).toNat ++ natLe 4 slotMark

/-- The slot a record's new value goes to: the one that does not hold the committed value (R313). -/
def newSlot (s : State) (x : NvmRec) : Nat := if recSlot s x.region x.index = some 0 then 1 else 0

/-- A record as it is written: a characterisation table carries the day on which it is written (R322, Table MM-3a). -/
def datedRec (s : State) (x : NvmRec) : NvmRec := if x.region = 7 then { x with aux := x.aux + nowNs s / 86400000000000 % 2 ^ 32 } else x

/-- The steps of a transaction, at most 56 words each, each slot's trailer last (R314), then the Option Area's copies in
order (R318; log entry 40). -/
def txnSteps (s : State) (t : NvmTxn) (num : Nat) : List (List (Nat × List Byte)) :=
  let ofRec (y : NvmRec) : List (List (Nat × List Byte)) :=
    let x := datedRec s y
    let j := newSlot s x
    let w := wordsOf (slotBase x.region x.index j) x.payload ++ wordsOf (slotTrailer x.region x.index j) (trailerOf x num)
    chunks 56 w.length w
  t.recs.flatMap ofRec ++
  match t.options with
  | some img => (List.range 3).flatMap fun k => chunks 56 512 (wordsOf (0x1000 * k) img)
  | none => []

/-- MRAM writes are inhibited (NVM_STAT.INHIBIT, R316). -/
def nvmInhibited (s : State) : Bool := bit s A.nvmStat 28

/-- What keeps a command from asking for a transaction: the recovery scan has not ended (R315); 0 where it has. The inhibit is the engine's to
check, when the transaction's turn comes (R314). -/
def mramStatus (s : State) : Nat := if !bit s A.nvmStat 31 then St.notReady else 0

/-- A transaction that writes the Option Area, keys, or a firmware extension is still to commit. -/
def imageTxnPending (s : State) : Bool := ((s.nvm.run.map (·.txn)).toList ++ s.nvm.queue).any fun t => match t.after with
  | .options _ _ | .patch _ | .keys => true
  | _ => false

/-- A transaction asked of the engine; it runs in the order they are asked (R315). -/
def queueTxn (t : NvmTxn) : Act := .all [
  updNvm fun n => { n with queue := n.queue ++ [t] }, setBit A.nvmStat 30]

/-- Whether this is a transaction of NVM_PT_CTRL.COMMIT or PARK_TABLE_WRITE. -/
def isPark (t : NvmTxn) : Bool := match t.after with
  | .park _ => true
  | _ => false

/-- BUSY follows the engine's work. -/
def refreshBusy : Act := .look fun s => putBit A.nvmStat 30 (s.nvm.run.isSome || !s.nvm.queue.isEmpty)

/-- The Park Table commit in progress ends. -/
def parkCommitEnds : Act := .all [clrBit A.nvmStat 29, clrBit A.nvmPtCtrl 0]

/-- A transaction meets the inhibit: nothing it would have written takes effect (R316). `failed` is what follows beyond the
command's status. -/
def abandonTxn (t : NvmTxn) (clear : List Nat) (failed : NvmTxn → Act) : Act := .all [
  updNvm fun n => { n with run := none, clear := clear },
  wrNat A.nvmResult St.nvmDeferred,
  Act.when (isPark t) parkCommitEnds,
  completeOpt t.tag St.nvmDeferred,
  failed t,
  event A.nvmEvt 4 340 102,
  refreshBusy]

/-- Record counts of a region after a record is committed (Table MM-10). -/
def countRecord (s : State) (num : Nat) (x : NvmRec) : Act := .all [
  Act.when (recSlot s x.region x.index).isNone (bump (A.rgStat x.region) 15 0),
  Act.when (recUnreadable s x.region x.index)
    (.look fun s => setFld (A.rgStat x.region) 31 16 (fld s (A.rgStat x.region) 31 16 - 1)),
  .look fun s => wrNat (A.rgWrcnt x.region) (min (2 ^ 32 - 1) ((rd s (A.rgWrcnt x.region)).toNat + 1)),
  wrNat (A.rgLasttxn x.region) (num % 2 ^ 32),
  wrNat (A.rgLastidx x.region) x.index]

/-- The next transaction begins: the inhibit is checked, slots that an abandoned one wrote are cleared, and the number is assigned (R314,
R316). Under the inhibit the slots wait to be cleared. -/
def beginTxn (failed : NvmTxn → Act) : Act := .look fun s => match s.nvm.queue with
  | [] => .done
  | t :: rest => .all [
    updNvm fun n => { n with queue := rest },
    if nvmInhibited s then abandonTxn t s.nvm.clear failed
    else .all [
      Act.each s.nvm.clear fun a => mramPut a (List.replicate 32 0#8),
      updNvm fun n => { n with clear := [] },
      .look fun s =>
        let num := s.nvm.txnC + 1
        updNvm fun n => { n with run := some {
          txn := t, num := num, steps := txnSteps s t num,
          slots := t.recs.map fun x => (slotBase x.region x.index (newSlot s x), slotTrailer x.region x.index (newSlot s x)) } }]]

/-- Trailers of the slots a transaction has begun to write: those whose first word is not still to come. -/
def begunSlots (r : NvmRun) : List Nat :=
  (r.slots.filter fun p => !(r.steps.any fun st => st.any fun w => w.1 == p.1)).map (·.2)

/-- The commit (R314): the commit word that does not hold TXN_C takes the number, so that all records become new together.
`before` is the state in which no record of it was committed. -/
def commitTxn (before : State) (r : NvmRun) (after : NvmTxn → Act) : Act := .all [
  Act.when (r.txn.options.isNone || !r.txn.recs.isEmpty) (.look fun s => .all [
    mramPut (commitOfs (if commitWord s 0 = some s.nvm.txnC then 1 else 0)) (commitBytes r.num),
    updNvm fun n => { n with txnC := r.num },
    wrPair A.nvmTxnLo A.nvmTxnHi r.num,
    Act.each r.txn.recs (countRecord before r.num)]),
  updNvm fun n => { n with run := none },
  wrNat A.nvmResult St.success,
  after r.txn,
  completeOpt r.txn.tag St.success r.txn.result0,
  refreshBusy]

/-- The MRAM takes writes: the recovery scan is over, they have not stopped, and nothing inhibits them (R315-R317). -/
def mramWritable (s : State) : Bool := bit s A.nvmStat 31 && !s.nvm.stopped && !nvmInhibited s && !domInReset s 42

/-- Retired HBM lines that wait join the list of Table MM-2 (R307). -/
def writeRetired : Act := .whenS mramWritable (.look fun s => .all [
  Act.each s.nvm.retire fun x => mramPut x.1 x.2, updNvm fun n => { n with retire := [] }])

/-- One step of the engine: what waits of the list of retired lines is written; a transaction begins if none runs; the inhibit is checked; at most
56 words are written; the last step commits (R314). Nothing is written once writes have stopped (R317, R352). -/
def nvmStep (after failed : NvmTxn → Act) : Act := .whenS (fun s => !s.nvm.stopped && !inSafe s && bit s A.nvmStat 31) (.all [
  writeRetired,
  .whenS (fun s => s.nvm.run.isNone) (beginTxn failed),
  .look fun s => match s.nvm.run with
    | none => .done
    | some r =>
      if nvmInhibited s then abandonTxn r.txn (begunSlots r) failed
      else match r.steps with
        | [] => commitTxn s r after
        | st :: rest => .all [
          Act.each st fun w => mramPut w.1 w.2,
          if rest.isEmpty then commitTxn s r after
          else updNvm fun n => { n with run := some { r with steps := rest } }]])

/-! ## Recovery scan (R315) -/

/-- A slot whose TXN exceeds TXN_C loses its trailer. -/
def scanSlot (s : State) (r i j : Nat) : Act :=
  Act.when (decide (s.nvm.txnC < slotField s r i j 8 8)) (mramPut (slotTrailer r i j) (List.replicate 32 0#8))

/-- Entries of the fault log's ring. -/
abbrev flogLen : Nat := 16384

/-- Regions that hold records. -/
abbrev recRegions : List Nat := [1, 2, 3, 5, 6, 7]

/-- Records committed and unreadable of a region, as the scan finds them. -/
def scanCounts (r : Nat) : Act := .look fun s =>
  let l := List.range (recCount r)
  wrNat (A.rgStat r) ((l.filter (recUnreadable s r)).length % 2 ^ 16 * 2 ^ 16 + (l.filter fun i => (recSlot s r i).isSome).length)

/-- NVM_RECOVERY_SCAN: before any write, slots of transactions that never committed lose their trailers; then READY. With both
commit words unreadable nothing is written and READY stays 0. It waits while MRAM writes are inhibited, and after a THERMTRIP it does not run
(R316, R317; DEDUCED, log entry 133). -/
def execNvmRecoveryScan (s : State) : Host.Outcome State Fault Refusal :=
  (Act.whenS (fun s => !domInReset s 42 && !bit s A.nvmStat 31 && !nvmInhibited s && !s.thm.tripped) (.look fun s => match storedTxn s with
    | none => txnFatal
    | some t => .all [
      updNvm fun n => { n with txnC := t, stopped := false },
      wrPair A.nvmTxnLo A.nvmTxnHi t,
      .look fun s => Act.each recRegions fun r => Act.upto (recCount r) fun i => .all [scanSlot s r i 0, scanSlot s r i 1],
      Act.each recRegions scanCounts,
      .look fun s => setFld A.nvmFlog 15 0 (s.nvm.flogSeq % flogLen),
      setBit A.nvmStat 31])).next s

/-! ## Errors and the patrol (R312, Table MM-6) -/

/-- A word of MRAM was found uncorrectable: it is counted, the first is held, and the source of its region is raised. -/
def mramUe (w access master : Nat) : Act := .look fun s => .all [
  bump A.nvmUecnt 15 0,
  Act.when (!bit s A.nvmErraddr 31) (wrNat A.nvmErraddr (2 ^ 31 + 8 * w)),
  (match mramRegion (8 * w) with
    | some r => bump (A.rgUecnt r) 15 0
    | none => .done),
  setBit A.nvmEvt 1,
  raise { src := if mramRegion (8 * w) = some 1 then 338 else 337, addr := w, master := master, access := access }]

/-- Word w reads uncorrectable from now on: the record that it makes unreadable is counted (Table MM-10). -/
def wordLost (w : Nat) : Act := .look fun s => Act.when (!s.mramBad.contains w) (.all [
  .upd (.mramBad (w :: s.mramBad)) .done,
  .look fun t => Act.each (recAt (8 * w)).toList fun (r, i) => .all [
    Act.when ((recSlot s r i).isSome && (recSlot t r i).isNone) (setFld (A.rgStat r) 15 0 (fld t (A.rgStat r) 15 0 - 1)),
    Act.when (!recUnreadable s r i && recUnreadable t r i) (bump (A.rgStat r) 31 16)]])
/-- A reader of record i of region r finds it unreadable: its first word that cannot be read is reported (Table MM-6). -/
def noteUnreadable (r i : Nat) : Act := .look fun s => Act.when (recUnreadable s r i)
  (Act.each (s.mramBad.find? fun w => decide (recAt (8 * w) = some (r, i))).toList fun w => mramUe w 1 102)

/-- A command that needs records: with one unreadable it reports that, and fails (Table MM-6). -/
def withRecords (tag : Nat) (l : List (Nat × Nat)) (body : Act) : Act := .look fun s =>
  if l.any fun x => recUnreadable s x.1 x.2 then .all [Act.each l fun x => noteUnreadable x.1 x.2, complete tag St.nvmUncorr] else body

/-- NVM_SCRUB_PATROL: the patrol reads word w. -/
def execNvmScrubPatrol (w : Fin 4194304) (found : MemErr) (s : State) : Host.Outcome State Fault Refusal :=
  (Act.whenS (fun s => bit s A.nvmCtrl 0 && bit s A.nvmStat 31) (match found with
    | .none => Act.done
    | .corrected => .all [
      bump A.nvmCecnt 15 0,
      (match mramRegion (8 * w) with
        | some r => .look fun s => wrNat (A.rgCecnt r) (min (2 ^ 32 - 1) ((rd s (A.rgCecnt r)).toNat + 1))
        | none => .done),
      setBit A.nvmEvt 0, raise { src := 336, addr := w, master := 103, access := 4 }]
    | .uncorrectable => .all [
      wordLost w, mramUe w 4 103,
      .whenS (fun s => (storedTxn s).isNone && !s.nvm.stopped) txnFatal])).next s

/-- NVM_CTRL.CNT_CLR. -/
def nvmCntClr : Act := .all [
  clearRegs [A.nvmCecnt, A.nvmUecnt], setFld A.nvmFlog 31 16 0,
  Act.upto 8 fun r => clearRegs [A.rgWrcnt r, A.rgCecnt r, A.rgUecnt r]]
def execNvmCntClr (s : State) : Host.Outcome State Fault Refusal := (hostWriteFld A.nvmCtrl 1 1 1 nvmCntClr).next s

/-! ## The fault log (R350, Table FT-4) -/

/-- The 64 bytes of an entry. -/
def flogBytes (e : FlogEntry) (seq : Nat) : List Byte :=
  let b := natLe 4 0x464C4731 ++ natLe 4 seq ++ natLe 8 e.time ++ natLe 2 (e.kind * 2 ^ 12 + e.source) ++
    natLe 2 (e.cls * 2 ^ 14 + e.react) ++ natLe 2 e.occ ++ natLe 2 e.rstcnt ++ natLe 8 e.addr ++ natLe 4 e.info ++
    natLe 2 e.hot ++ List.replicate 22 0#8
  b ++ natLe 4 (crc32c b).toNat

/-- The oldest waiting entry is written. -/
def writeLog : Act := .look fun s => match s.nvm.flog with
  | [] => .done
  | e :: rest => .all [
    mramPut (0x100000 + 64 * (s.nvm.flogSeq % flogLen)) (flogBytes e (s.nvm.flogSeq + 1)),
    updNvm fun n => { n with flog := rest, flogSeq := n.flogSeq + 1 },
    .look fun s => setFld A.nvmFlog 15 0 (s.nvm.flogSeq % flogLen)]

/-- FAULT_LOG_WRITE: the oldest waiting entry is written between transaction steps, unless writes are inhibited or have
stopped, or the recovery scan has not ended. -/
def execFaultLogWrite (s : State) : Host.Outcome State Fault Refusal :=
  (Act.whenS mramWritable writeLog).next s

/-! ## The Option Area (R318, R319, Table MM-4) -/

/-- The ROM default image. -/
def optDefault : List Byte :=
  let b := natLe 4 0x4F505431 ++ natLe 2 1 ++ natLe 2 0 ++ natLe 4 0 ++ natLe 2 0 ++ natLe 1 0 ++ natLe 1 115 ++ natLe 4 0 ++
    natLe 1 4 ++ List.replicate (4092 - 21) 0#8
  b ++ natLe 4 (crc32c b).toNat

/-- CRC field of an image and the CRC its bytes give. -/
def optCrcOk (img : List Byte) : Bool := decide (leAt img 4092 4 = (crc32c (img.take 4092)).toNat)

/-- Copy k as stored. -/
def optCopy (s : State) (k : Nat) : List Byte := mramAt s (0x1000 * k) 4096

/-- Copy k is valid: its MAGIC and CRC are correct (R318). -/
def optValid (s : State) (k : Nat) : Bool :=
  !mramSpanBad s (0x1000 * k) 4096 && decide (leAt (optCopy s k) 0 4 = 0x4F505431) && optCrcOk (optCopy s k)

/-- Bytewise majority of three images: the byte that two of them have; where all three differ, each bit's majority (log entry 106). -/
def majority (a b c : List Byte) : List Byte :=
  (a.zip (b.zip c)).map fun p => (p.1 &&& p.2.1) ||| (p.1 &&& p.2.2) ||| (p.2.1 &&& p.2.2)

/-- The image the loader uses, and the rule that chose it (R318, OPT_STAT.RULE). -/
def optChoose (s : State) : List Byte × Nat :=
  let v := (List.range 3).filter (optValid s)
  let twin := v.find? fun k => v.any fun j => decide (k < j) && decide (optCopy s k = optCopy s j)
  match twin with
  | some k => (optCopy s k, 1)
  | none =>
    match v with
    | k :: r => (optCopy s (r.foldl (fun b j => if leAt (optCopy s b) 8 4 < leAt (optCopy s j) 8 4 then j else b) k), 2)
    | [] =>
      let m := majority (optCopy s 0) (optCopy s 1) (optCopy s 2)
      if optCrcOk m then (m, 3) else (optDefault, 4)

/-- The copies that differ from the image in use are rewritten after step 5 and counted; OPT_CORR reports each (R318,
Table MM-6). -/
def rewriteOptions : Act := Act.upto 3 fun k => .look fun s =>
  Act.when (!s.nvm.opt.isEmpty && (decide (optCopy s k ≠ s.nvm.opt) || mramSpanBad s (0x1000 * k) 4096) && !s.nvm.stopped && !nvmInhibited s) (.all [
    mramPut (0x1000 * k) s.nvm.opt,
    bump A.nvmCecnt 31 16,
    setBit A.nvmEvt 2, raise { src := 343, addr := 0x1000 * k / 8, master := 102, access := 2 }])

/-- The first field of an OPTION_WRITE image that its checks refuse, in the order in which R319 lists them: fields out of range, reserved bytes,
and MAGIC, VERSION and CRC; the CRC is computed with GENERATION 0 (R398, Table MM-4; DEDUCED, log entry 106). -/
def optError (img : List Byte) : Option Nat :=
  let u (o n : Nat) := leAt img o n
  if u 8 4 ≠ 0 then some 8
  else if 2 ^ 12 ≤ u 12 2 then some 12
  else if 2 ≤ u 14 1 then some 14
  else if u 15 1 < 95 ∨ 125 < u 15 1 then some 15
  else if 2 ^ 14 ≤ u 18 2 then some 18
  else if 16 ≤ u 20 1 then some 20
  else if u 6 2 ≠ 0 then some 6
  else if u 21 3 ≠ 0 then some 21
  else if !((img.drop 28).take 4064).all (· == 0#8) then some 28
  else if u 0 4 ≠ 0x4F505431 then some 0
  else if u 4 2 ≠ 1 then some 4
  else if !optCrcOk img then some 4092 else none

/-- The image as stored: with its GENERATION and a CRC computed again. -/
def optSeal (img : List Byte) (gen : Nat) : List Byte :=
  let b := img.take 8 ++ natLe 4 gen ++ (img.take 4092).drop 12
  b ++ natLe 4 (crc32c b).toNat

/-! ## The Park Table (R320, R321, Table MM-5) -/

abbrev parkLen : Nat := 46240

/-- First set of a list of optional answers. -/
def firstSome : List (Option Nat) → Option Nat
  | [] => none
  | some x :: _ => some x
  | none :: r => firstSome r

/-- A field that has to be 0. -/
def zeroField (img : List Byte) (o n report : Nat) : Option Nat := if leAt img o n = 0 then none else some report

/-- MAGIC, VERSION, reserved fields and CRC, in ascending offset. -/
def parkFields (img : List Byte) : Option Nat := firstSome (
  [if leAt img 0 4 = 0x504B5431 then none else some 0,
   if leAt img 4 2 = 1 then none else some 4,
   zeroField img 6 54 6,
   if leAt img 60 4 = (crc32c (img.take 60 ++ natLe 4 0 ++ (img.take parkLen).drop 64)).toNat then none else some 60] ++
  ((List.range 192).flatMap fun n =>
    [if leAt img (64 + 128 * n) 1 < 2 then none else some (64 + 128 * n),
     zeroField img (65 + 128 * n) 7 (65 + 128 * n), zeroField img (184 + 128 * n) 8 (184 + 128 * n)]) ++
  ((List.range numElems).map fun e => if leAt img (24640 + 2 * e) 2 < 4096 then none else some (24641 + 2 * e)) ++
  ((List.range 24).map fun b => if leAt img (46144 + 4 * b) 4 < 2 ^ 17 then none else some (46146 + 4 * b)))

/-- Park codes within the half range of each lane whose PARK_RANGE or active range is 0.5 V (R67). -/
def parkCodes (img : List Byte) (active : Nat → Bool) : Option Nat := firstSome (
  (List.range 192).flatMap fun n =>
    if leAt img (64 + 128 * n) 1 % 2 = 1 ∧ active n then []
    else (List.range 56).map fun k =>
      let o := 72 + 128 * n + 2 * k
      let c := signed 16 (leAt img o 2)
      if -16384 ≤ c ∧ c ≤ 16383 then none else some o)

/-- The BCO park values within the budget, taken in ascending channel (R91). -/
def parkBudget (img : List Byte) : Nat → Nat → Nat → Option Nat
  | 0, _, _ => none
  | n + 1, b, sum =>
    let w := bcoParkWord img b
    let t := sum + w % 2 ^ 16 * (if w.testBit 16 then 10 else 1)
    if 10485760 < t then some (46144 + 4 * b) else parkBudget img n (b + 1) t

/-- The first failing offset of a Park Table image, under the ranges `active` (R321). -/
def parkError (img : List Byte) (active : Nat → Bool) : Option Nat :=
  firstSome [parkFields img, parkCodes img active, parkBudget img 24 0 0]

/-- The range a lane's codes are checked against: its active range; of a lane that is not driven that is the PARK_RANGE of the table in force
(Table CV-7), and without one the image's own, as at bring-up (DEDUCED, log entry 15). -/
def parkActive (s : State) (img : List Byte) (n : Nat) : Bool :=
  if bit s (A.edlStat n) 0 then bit s (A.edlStat n) 1
  else if s.nvm.park.isEmpty then decide (leAt img (64 + 128 * n) 1 % 2 = 1) else parkRange s n

/-- A checked image goes to the NVM engine as one record. -/
def storePark (img : List Byte) (tag : Option Nat) : Act := .all [
  setBit A.nvmStat 29,
  queueTxn { recs := [{ region := 3, index := 0, payload := img }], after := .park img, tag := tag }]

/-- Bytes of HBM as the device reads them: a line that is uncorrectable reads as ones, and without a trained HBM the bytes are open
(R308, R310; log entry 48). -/
def hbmAt (s : State) (a n : Nat) : List Byte := (List.range n).map fun k =>
  if !bit s A.hbmStat 31 then Config.untrainedByte s.free (a + k)
  else if s.hbmBad.contains ((a + k) / 64) then 0xFF#8 else readByte blank s.hbm (a + k)

/-- HBM address of the host scratch (Table MM-1). -/
abbrev scratchBase : Nat := 0x544000000

/-- A Park Table image fails a check at an offset (R321). -/
def parkRefused (o : Nat) : Act := .all [wrNat A.nvmResult St.payloadInvalid, wrNat A.nvmPtErrofs o]

/-- NVM_PT_CTRL.COMMIT is written 1: the image is copied from host scratch, checked, and stored where it passes. -/
def writePtCommit : Act := .look fun s =>
    if bit s A.nvmStat 29 then event A.nvmEvt 6 342 104
    else if !bit s A.nvmStat 31 then wrNat A.nvmResult St.notReady
    else
      let img := hbmAt s scratchBase parkLen
      match parkError img (parkActive s img) with
      | some o => parkRefused o
      | none => .all [setBit A.nvmPtCtrl 0, storePark img none]

/-- PARK_TABLE_COMMIT_WRITE. -/
def execParkTableCommitWrite (s : State) : Host.Outcome State Fault Refusal := (hostWrite A.nvmPtCtrl 1#32 writePtCommit).next s

/-- PARK_V of an element: park code c as c / 32,768 V (Table SL-3, R66). -/
def parkVolts (s : State) (e : Nat) : Word :=
  let c := (parkCode s (lanePairOf e) (slotOf e)).toInt
  Fp.ofInt c 15

/-- PARK_V_REWRITE: the supervisors rewrite an element's word 43 after a Park Table took effect. -/
def execParkVRewrite (n : Fin 10752) (s : State) : Host.Outcome State Fault Refusal :=
  (Act.whenS (fun s => s.nvm.parkRewrite && elemAssigned s n) (.look fun s => setElemWord n 43 (parkVolts s n))).next s

end Sys2Proof.Machine
end

