-- ==== Sys2Proof/Machine/Slp.lean ====
section
/-!
DEFINITION. The Standard Loop Program SLP-1 (spec/06_standard_loop.md R148-R162): what one engine frame of it does to one element,
as a function of the element's 128 words and its samples. Every operator of the pseudocode is one rounded operation
(log entry 13).
-/

namespace Sys2Proof.Machine

/-! ## Numbers and words -/

abbrev f0 : Word := 0#32
abbrev f1 : Word := 0x3F800000#32
abbrev f2 : Word := 0x40000000#32
abbrev f3 : Word := 0x40400000#32
abbrev f4 : Word := 0x40800000#32
abbrev f5 : Word := 0x40A00000#32
abbrev fHalf : Word := 0x3F000000#32
abbrev fMinus1 : Word := 0xBF800000#32

/-- Element modes as STATE holds them (Table SL-3). -/
abbrev stOFF : Word := f0
abbrev stPARK : Word := f1
abbrev stHOLD : Word := f2
abbrev stTRACK : Word := f3
abbrev stRAMP : Word := f4
abbrev stCAL : Word := f5

/-- Word numbers (Tables SL-1, SL-2). -/
abbrev wSTATE : Nat := 0
abbrev wINTEG : Nat := 1
abbrev wULAST : Nat := 2
abbrev wSP : Nat := 3
abbrev wSPSTEP : Nat := 4
abbrev wRAMPLEFT : Nat := 5
abbrev wTGTLAST : Nat := 6
abbrev wYLAST : Nat := 7
abbrev wSETTLERUN : Nat := 8
abbrev wRTGAGE : Nat := 9
abbrev wSETTLET : Nat := 10
abbrev wCAUSE : Nat := 11
abbrev wHOLDCNT : Nat := 12
abbrev wMISSRUN : Nat := 13
abbrev wSATRUN : Nat := 14
abbrev wDARKRUN : Nat := 15
abbrev wGOODRUN : Nat := 16
abbrev wGRACE : Nat := 17
abbrev wSATF : Nat := 18
abbrev wCBLAST : Nat := 19
abbrev wRHOLAST : Nat := 20
abbrev wPLATCH : Nat := 21
abbrev wFPARK : Nat := 22
abbrev wLXLAST : Nat := 23
abbrev wBANKA : Nat := 24
abbrev wBANKB : Nat := 32
abbrev wRHO : Nat := 40
abbrev wSGN : Nat := 41
abbrev wKIND : Nat := 42
abbrev wPARKV : Nat := 43
abbrev wDK0 : Nat := 44
abbrev wDK1 : Nat := 45
abbrev wLOLTHR : Nat := 46
abbrev wLOLGRACE : Nat := 47
abbrev wC : Nat := 48
abbrev wS : Nat := 49
abbrev wCW : Nat := 50
abbrev wSW : Nat := 51
abbrev wDMC : Nat := 52
abbrev wDMS : Nat := 53
abbrev wX : Nat := 54
abbrev wLIGAIN : Nat := 55
abbrev wLIBAND : Nat := 56
abbrev wLIALPHA : Nat := 57
abbrev wTONEA : Nat := 58
abbrev wTONEIDX : Nat := 59
abbrev wACC1 : Nat := 60
abbrev wSN1 : Nat := 65
abbrev wSN2 : Nat := 66
abbrev wSNE : Nat := 67
abbrev wSNU : Nat := 68
abbrev wSNN : Nat := 69
abbrev wGNOM : Nat := 70
abbrev wVREF : Nat := 71
abbrev wCALV : Nat := 72
abbrev wCALVLAST : Nat := 73
abbrev wCALS0 : Nat := 74
abbrev wCALN : Nat := 78
abbrev wCALDWELL : Nat := 79
abbrev wCALCNT : Nat := 80
abbrev wLIE : Nat := 81
abbrev wHFLT : Nat := 82
abbrev wTGT : Nat := 104
abbrev wMODEREQ : Nat := 105
abbrev wCBANK : Nat := 106
abbrev wPOLICY : Nat := 107
abbrev wLIGHTEXP : Nat := 108
abbrev wHOLDLIM : Nat := 109
abbrev wRAMPN : Nat := 110
abbrev wTOL : Nat := 111

/-- Hold causes (Table SL-4). -/
abbrev hcLANE : Word := f1
abbrev hcMISSING : Word := f2
abbrev hcSAT : Word := f3
abbrev hcFROZEN : Word := f4
abbrev hcDARK : Word := f5
abbrev hcREQUEST : Word := 0x40C00000#32
abbrev hcSTART : Word := 0x40E00000#32
abbrev hcHFLT : Word := 0x41000000#32

/-- Events (Table SL-7). -/
abbrev evHOLD_ENTER : Nat := 0x0201
abbrev evHOLD_LIMIT : Nat := 0x0202
abbrev evPARKED : Nat := 0x0203
abbrev evRESUME : Nat := 0x0204
abbrev evSETTLED : Nat := 0x0205
abbrev evBAD_REQ : Nat := 0x0206
abbrev evCOEF_CHANGE : Nat := 0x0207

/-- What one frame gives one element. -/
structure SlpIn where
  /-- FRAME (Table GI-6). -/
  frame : Nat
  /-- A set-point action was applied at the start of the frame (SPEV bit 0). -/
  rotated : Bool
  x0 : Sample
  x1 : Sample

/-- One element in one frame: its words that are not 0, the drive it writes, its events, its dwell count and whether a
computation gave a NaN. -/
structure Slp where
  ws : SMap Word
  drive : Option Word := none
  evs : List Nat := []
  dwell : Nat := 0
  nan : Bool := false
  /-- A frame of CAL that counts, and whether it was usable (R165). -/
  cal : Option Bool := none
  /-- What the element looked up in its table. -/
  luts : List Word := []
  /-- The words that the frame writes, changed or not. -/
  wrote : List Nat := []
  /-- The present HOLD has reached its limit (R161). -/
  ended : Bool := false
deriving DecidableEq, Repr

/-- Word k. -/
def Slp.get (p : Slp) (k : Nat) : Word := sget (fun _ => 0#32) p.ws k
/-- Word k takes v. -/
def Slp.put (p : Slp) (k : Nat) (v : Word) : Slp :=
  { p with
    ws := sset (fun _ => 0#32) p.ws k v
    wrote := if p.wrote.contains k then p.wrote else k :: p.wrote }
/-- Words take their values, in order. -/
def Slp.puts (p : Slp) (l : List (Nat × Word)) : Slp := l.foldl (fun q x => q.put x.1 x.2) p
/-- Word k counts up by 1. -/
def Slp.inc (p : Slp) (k : Nat) : Slp := p.put k (Fp.add (p.get k) f1)
/-- An event. -/
def Slp.ev (p : Slp) (e : Nat) : Slp := { p with evs := p.evs ++ [e] }

/-! ## Usable samples (R151) -/

def Slp.voa (p : Slp) : Bool := Fp.eq (p.get wKIND) f1

/-- A flag is set on a monitor point the element uses. -/
def Slp.flag (p : Slp) (i : SlpIn) (f : Sample → Bool) : Bool := f i.x0 || (!p.voa && f i.x1)

/-- None of the flags is set on a used point. -/
def Slp.flagFree (p : Slp) (i : SlpIn) : Bool :=
  !p.flag i fun x => x.missing || x.sat || x.frozen || x.stale || x.laneHold

/-- Dark-corrected monitors. -/
def Slp.a (p : Slp) (i : SlpIn) : Word := Fp.sub (sampleValue true i.x0) (p.get wDK0)
def Slp.b (p : Slp) (i : SlpIn) : Word := Fp.sub (sampleValue true i.x1) (p.get wDK1)

/-- The monitor sum that R151 compares with LOL_THR. -/
def Slp.sum (p : Slp) (i : SlpIn) : Word := if p.voa then p.a i else Fp.add (p.a i) (p.b i)

/-- The element is lit. -/
def Slp.lit (p : Slp) (i : SlpIn) : Bool :=
  Fp.le (p.get wLOLTHR) (p.sum i)

/-! ## Measurement (R152, R153) -/

/-- The result of a measurement: y, r, w1, the lock-in region, X and LI_E. -/
structure Meas where
  y : Word
  r : Word := 0#32
  w1 : Word := 0#32
  region : Option Word := none
  x : Word
  liE : Word

/-- A resynchronisation frame, and the three that follow one. -/
def SlpIn.resync (i : SlpIn) : Bool := decide (i.frame % 4096 = 0)
def SlpIn.afterResync (i : SlpIn) : Bool := decide (1 ≤ i.frame % 4096 ∧ i.frame % 4096 ≤ 3)

/-- Twice the cosine of the demodulation phase. -/
def Slp.w1 (p : Slp) : Word := Fp.mul f2 (Fp.add (Fp.mul (p.get wC) (p.get wDMC)) (Fp.mul (p.get wS) (p.get wDMS)))

/-- The normalised ratio of an MZI element. -/
def Slp.ratio (p : Slp) (i : SlpIn) : Word := Fp.mul (p.b i) (Fp.rcp (Fp.add (p.a i) (p.b i)))

/-- The lock-in region that SP lies in. -/
def Slp.region (p : Slp) : Option Word :=
  if Fp.lt (p.get wSP) (p.get wLIBAND) then some f0
  else if Fp.lt (Fp.sub f1 (p.get wLIBAND)) (p.get wSP) then some f1
  else none

/-- The measurement of a flag-free lit frame; `lut` is the element's table lookup. -/
def Slp.measure (p : Slp) (i : SlpIn) (lut : Word → Word) : Meas :=
  if p.voa then { y := p.a i, x := p.get wX, liE := p.get wLIE }
  else
    let r := p.ratio i
    let w1 := p.w1
    match p.region with
    | none => { y := lut r, r := r, w1 := w1, x := p.get wX, liE := fMinus1 }
    | some e =>
      let g := Fp.sub f1 (Fp.mul f2 e)
      let x := if Fp.eq (p.get wLIE) e then p.get wX
        else Fp.mul (Fp.mul g (Fp.sub (lut r) e)) (Fp.rcp (p.get wLIGAIN))
      let x := if i.afterResync then x
        else Fp.add x (Fp.mul (p.get wLIALPHA) (Fp.sub (Fp.mul (Fp.sub r e) w1) x))
      { y := Fp.add e (Fp.mul (Fp.mul g (p.get wLIGAIN)) x), r := r, w1 := w1, region := some e, x := x, liE := e }

/-- The phasor advances by one step and is renormalised; a resynchronisation sets it to (1, 0). -/
def Slp.phasor (p : Slp) (i : SlpIn) : Slp :=
  if i.resync then p.puts [(wC, f1), (wS, f0)]
  else
    let c := Fp.sub (Fp.mul (p.get wC) (p.get wCW)) (Fp.mul (p.get wS) (p.get wSW))
    let s := Fp.add (Fp.mul (p.get wS) (p.get wCW)) (Fp.mul (p.get wC) (p.get wSW))
    let n := Fp.rsq (Fp.add (Fp.mul c c) (Fp.mul s s))
    p.puts [(wC, Fp.mul c n), (wS, Fp.mul s n)]

/-! ## Counters (R151, R154, R160, R162) -/

/-- MISS_RUN, SAT_RUN, DARK_RUN and GOOD_RUN after this frame's sample; `missing` counts a NaN measurement. -/
def Slp.counters (p : Slp) (i : SlpIn) (missing usable : Bool) : Slp :=
  let p := if missing then p.inc wMISSRUN else p.put wMISSRUN f0
  let p := if p.flag i Sample.sat then p.inc wSATRUN else p.put wSATRUN f0
  let p := if p.flagFree i && !missing then (if p.lit i then p.put wDARKRUN f0 else p.inc wDARKRUN) else p
  if usable then p.inc wGOODRUN else p.put wGOODRUN f0

/-- GRACE and LX_LAST (R154). -/
def Slp.grace (p : Slp) (i : SlpIn) : Slp :=
  let set := (i.rotated && !Fp.eq (p.get wTGT) (p.get (wTGT + 16))) || !Fp.eq (p.get wLIGHTEXP) (p.get wLXLAST)
  let p := if set then p.put wGRACE (p.get wLOLGRACE)
    else if Fp.lt f0 (p.get wGRACE) then p.put wGRACE (Fp.sub (p.get wGRACE) f1) else p
  p.put wLXLAST (p.get wLIGHTEXP)

/-! ## The control law (R154-R158) -/

/-- A soft start (R154). -/
def Slp.softStart (p : Slp) (y : Word) : Slp := p.puts [
  (wSP, y), (wRAMPLEFT, p.get wRAMPN), (wSPSTEP, Fp.mul (Fp.sub (p.get wTGT) y) (Fp.rcp (p.get wRAMPN))),
  (wINTEG, p.get wULAST), (wYLAST, y), (wTGTLAST, p.get wTGT), (wRTGAGE, f0), (wSETTLERUN, f0), (wSTATE, stRAMP)]

/-- A later usable frame of RAMP. -/
def Slp.ramp (p : Slp) : Slp :=
  let left := Fp.sub (p.get wRAMPLEFT) f1
  let p := p.put wRAMPLEFT left
  if Fp.le left f0 then p.puts [(wSP, p.get wTGT), (wSTATE, stTRACK)]
  else p.put wSP (Fp.add (p.get wSP) (p.get wSPSTEP))

/-- Coefficient k of the bank that `bank` names: KP, KI, KD, LO, HI. -/
def Slp.coef (p : Slp) (bank : Word) (k : Nat) : Word := p.get ((if Fp.lt bank fHalf then wBANKA else wBANKB) + k)

/-- The drive of a usable frame of RAMP or TRACK (R155). -/
def Slp.control (p : Slp) (y : Word) : Slp :=
  let bank := p.get wCBANK
  let rho := p.get wRHO
  let kp := Fp.mul rho (p.coef bank 0)
  let ki := Fp.mul rho (p.coef bank 1)
  let kd := Fp.mul rho (p.coef bank 2)
  let lo := p.coef bank 3
  let hi := p.coef bank 4
  let sgn := p.get wSGN
  let e := Fp.mul sgn (Fp.sub (p.get wSP) y)
  let dy := Fp.sub y (p.get wYLAST)
  let pt := Fp.mul kp e
  let dt := Fp.mul (Fp.mul (Fp.negate sgn) kd) dy
  let changed := !(Fp.eq bank (p.get wCBLAST) && Fp.eq rho (p.get wRHOLAST))
  let kp' := Fp.mul (p.get wRHOLAST) (p.coef (p.get wCBLAST) 0)
  let kd' := Fp.mul (p.get wRHOLAST) (p.coef (p.get wCBLAST) 2)
  let integ := if changed then
      Fp.sub (Fp.add (p.get wINTEG) (Fp.mul (Fp.sub kp' kp) e)) (Fp.mul (Fp.mul sgn (Fp.sub kd' kd)) dy)
    else p.get wINTEG
  let inc := Fp.mul ki e
  let inc := if (Fp.eq (p.get wSATF) f1 && Fp.lt f0 inc) || (Fp.eq (p.get wSATF) fMinus1 && Fp.lt inc f0) then f0 else inc
  let i := Fp.add integ inc
  let ic := Fp.clamp i (Fp.sub (Fp.sub lo pt) dt) (Fp.sub (Fp.sub hi pt) dt)
  let satf := if Fp.lt ic i then f1 else if Fp.lt i ic then fMinus1 else f0
  let u := Fp.clamp (Fp.add (Fp.add ic pt) dt) lo hi
  let q := p.puts [(wINTEG, ic), (wSATF, satf), (wULAST, u), (wYLAST, y), (wCBLAST, bank), (wRHOLAST, rho)]
  let q := { q with drive := some u, nan := q.nan || Fp.isNan u }
  if changed then q.ev evCOEF_CHANGE else q

/-- The error and the drive of the frame, for the accumulators. -/
def Slp.err (p : Slp) (y : Word) : Word := Fp.mul (p.get wSGN) (Fp.sub (p.get wSP) y)

/-- RTG_AGE, in every frame of RAMP or TRACK but the soft start's; it saturates (R158). -/
def Slp.age (p : Slp) : Slp :=
  if Fp.lt (p.get wRTGAGE) (Fp.ofNat 65535) then p.inc wRTGAGE else p

/-- SETTLE_RUN and SETTLE_T (R158); `y` where the frame is a usable TRACK frame. -/
def Slp.settle (p : Slp) (y : Option Word) : Slp := match y with
  | some y =>
    if Fp.le (Fp.abs (Fp.sub (p.get wTGT) y)) (p.get wTOL) then
      let p := p.inc wSETTLERUN
      if Fp.eq (p.get wSETTLERUN) f4 then (p.put wSETTLET (p.get wRTGAGE)).ev evSETTLED else p
    else p.put wSETTLERUN f0
  | none => p.put wSETTLERUN f0

/-- The accumulators (R156). -/
def Slp.accumulate (p : Slp) (i : SlpIn) (m : Meas) : Slp :=
  if Fp.lt (p.get wSETTLERUN) f4 || i.afterResync then p
  else
    let q := if p.voa then f0 else Fp.sub m.r (m.region.getD fHalf)
    let e := p.err m.y
    p.puts [
      (wACC1, Fp.add (p.get wACC1) (Fp.mul q m.w1)),
      (wACC1 + 1, Fp.add (p.get (wACC1 + 1)) (Fp.mul q (Fp.sub (Fp.mul m.w1 m.w1) f2))),
      (wACC1 + 2, Fp.add (p.get (wACC1 + 2)) (Fp.mul e e)),
      (wACC1 + 3, Fp.add (p.get (wACC1 + 3)) (p.get wULAST)),
      (wACC1 + 4, Fp.add (p.get (wACC1 + 4)) f1)]

/-- The snapshots of a resynchronisation frame (R156). -/
def Slp.snapshot (p : Slp) (i : SlpIn) : Slp :=
  if i.resync then
    (List.range 5).foldl (fun q k => q.puts [(wSN1 + k, q.get (wACC1 + k)), (wACC1 + k, f0)]) p
  else p

/-- A usable frame of RAMP or TRACK. -/
def Slp.regulate (p : Slp) (i : SlpIn) (m : Meas) (restart : Bool) : Slp :=
  let start := restart || !Fp.eq (p.get wTGT) (p.get wTGTLAST)
  let p := if start then p.softStart m.y
    else
      let p := p.age
      if Fp.eq (p.get wSTATE) stRAMP then p.ramp else p
  let p := p.control m.y
  let p := p.settle (if Fp.eq (p.get wSTATE) stTRACK then some m.y else none)
  if Fp.eq (p.get wSTATE) stTRACK then p.accumulate i m else p

/-! ## Modes (R150, R160-R162) -/

/-- MODE_REQ holds no mode. -/
def Slp.badReq (p : Slp) : Bool :=
  let m := p.get wMODEREQ
  !(Fp.eq m stOFF || Fp.eq m stPARK || Fp.eq m stHOLD || Fp.eq m stTRACK || Fp.eq m stCAL)

/-- Row 1 of Table SL-3. -/
def Slp.parks (p : Slp) : Bool :=
  Fp.eq (p.get wFPARK) f1 || Fp.eq (p.get wPLATCH) f1 || Fp.eq (p.get wMODEREQ) stPARK || p.badReq

/-- A hold cause counts toward HOLD_LIM (Table SL-4). -/
def countingCause (c : Word) : Bool :=
  Fp.eq c hcHFLT || Fp.eq c hcMISSING || Fp.eq c hcSAT || Fp.eq c hcFROZEN || Fp.eq c hcDARK

/-- The first cause of Table SL-4 that holds for a loop in RAMP or TRACK. -/
def Slp.holdCause (p : Slp) (i : SlpIn) : Option Word :=
  if p.flag i Sample.laneHold then some hcLANE
  else if Fp.eq (p.get wHFLT) f1 then some hcHFLT
  else if Fp.lt (Fp.ofNat 8) (p.get wMISSRUN) then some hcMISSING
  else if Fp.le f4 (p.get wSATRUN) then some hcSAT
  else if p.flag i Sample.frozen && (if p.voa then Fp.eq (p.get wLIGHTEXP) f1 else Fp.lt f0 (p.get wTONEA)) then some hcFROZEN
  else if Fp.le f4 (p.get wDARKRUN) && Fp.eq (p.get wLIGHTEXP) f1 && Fp.eq (p.get wGRACE) f0 then some hcDARK
  else if Fp.eq (p.get wMODEREQ) stHOLD then some hcREQUEST
  else none

/-- A frame of PARK: PARK_V every frame (Table SL-3), and the latch (R150). -/
def Slp.parkFrame (p : Slp) : Slp :=
  let p := if Fp.eq (p.get wPLATCH) f1 then
      (if Fp.eq (p.get wTGT) (p.get wTGTLAST) then p else p.put wPLATCH f0)
    else p.put wTGTLAST (p.get wTGT)
  let v := p.get wPARKV
  { p.puts [(wSTATE, stPARK), (wINTEG, v), (wULAST, v), (wSETTLERUN, f0)] with drive := some v }

/-- A frame of OFF. -/
def Slp.offFrame (p : Slp) : Slp := p.puts [(wSTATE, stOFF), (wSETTLERUN, f0)]

/-- A frame of CAL (Table SL-3, R165): the dwell and the sums. -/
def Slp.calFrame (p : Slp) (i : SlpIn) : Slp :=
  let v := p.get wCALV
  let p := { p.puts [(wSTATE, stCAL), (wINTEG, v), (wULAST, v), (wSETTLERUN, f0)] with drive := some v }
  let changed := !Fp.eq v (p.get wCALVLAST)
  let p : Slp := if changed then
      { p.puts [(wCALVLAST, v), (74, f0), (75, f0), (76, f0), (77, f0), (wCALN, f0)] with
        dwell := Fp.mag (p.get wCALDWELL) / 2 ^ 149 }
    else p
  if 0 < p.dwell then { p with dwell := p.dwell - 1 }
  else if !Fp.lt (p.get wCALN) (p.get wCALCNT) then p
  else if p.flagFree i then
    let p := { p with cal := some true }
    let r := if p.voa then f0 else p.ratio i
    p.puts [
      (wCALS0, Fp.add (p.get wCALS0) (sampleValue true i.x0)),
      (75, Fp.add (p.get 75) (sampleValue true i.x1)),
      (76, Fp.add (p.get 76) (Fp.mul r (Fp.mul f2 (p.get wC)))),
      (77, Fp.add (p.get 77) (Fp.mul r (Fp.mul f2 (p.get wS)))),
      (wCALN, Fp.add (p.get wCALN) f1)]
  else { p with cal := some false }

/-- Enter HOLD with a cause (R160). -/
def Slp.enterHold (p : Slp) (c : Word) : Slp :=
  let p := { p.puts [(wSTATE, stHOLD), (wCAUSE, c), (wHOLDCNT, f0), (wSETTLERUN, f0)] with ended := false }
  if countingCause c then p.ev evHOLD_ENTER else p

/-- One more frame of HOLD for a counting cause (R161): at HOLD_LIM, where HOLD_CNT then stays, the policy decides, once; a limit that was
lowered to or below the count is reached at once, a limit below 1 by the first frame, and a limit raised after it was reached is reached again
(DEDUCED, log entry 117). -/
def Slp.countHold (p : Slp) : Slp :=
  if !countingCause (p.get wCAUSE) then p
  else
    let lim := if Fp.lt (p.get wHOLDLIM) f1 then f1 else p.get wHOLDLIM
    let new := Fp.add (p.get wHOLDCNT) f1
    if !Fp.le lim new then { p.put wHOLDCNT new with ended := false }
    else if p.ended then p.put wHOLDCNT lim
    else
      let p := ({ p.put wHOLDCNT lim with ended := true } : Slp).ev evHOLD_LIMIT
      if Fp.eq (p.get wPOLICY) f1 then p else ((p.put wPLATCH f1).ev evPARKED).parkFrame

/-- A loop that is in HOLD (R160, R162); `m` where the sample is usable. A hold of cause LANE whose mode is HOLD becomes one of cause REQUEST in
the first frame without LANE_HOLD (DESIGN CHOICE, log entry 117). GOOD_RUN counts on while HFLT is set, and the loop resumes once it has
returned to 0.0 (DEDUCED, log entry 117). -/
def Slp.holdFrame (p : Slp) (i : SlpIn) (m : Option Meas) : Slp :=
  let p := p.put wSETTLERUN f0
  let req := Fp.eq (p.get wMODEREQ) stHOLD
  let c := p.get wCAUSE
  -- a requested hold that is asked to track waits for its start; LANE_HOLD takes the cause over
  let p := if p.flag i Sample.laneHold then p.put wCAUSE hcLANE
    else if Fp.eq c hcREQUEST && !req then p.puts [(wCAUSE, hcSTART), (wGOODRUN, if m.isSome then f1 else f0)]
    else if Fp.eq c hcLANE && req then p.put wCAUSE hcREQUEST
    else p
  let c := p.get wCAUSE
  match m with
  | some m =>
    if !Fp.eq c hcREQUEST && Fp.le f4 (p.get wGOODRUN) && (!Fp.eq c hcHFLT || Fp.eq (p.get wHFLT) f0) then
      if req then p.put wCAUSE hcREQUEST
      else (p.regulate i m true).ev evRESUME
    else p.countHold
  | none => p.countHold

/-- A loop that left OFF, PARK or CAL (R150). -/
def Slp.leaveFrame (p : Slp) (usable : Bool) : Slp :=
  if Fp.eq (p.get wMODEREQ) stHOLD then p.enterHold hcREQUEST
  else (p.enterHold hcSTART).put wGOODRUN (if usable then f1 else f0)

/-- A frame of RAMP or TRACK. -/
def Slp.activeFrame (p : Slp) (i : SlpIn) (m : Option Meas) : Slp := match p.holdCause i with
  | some c => p.enterHold c
  | none => match m with
    | some m => p.regulate i m false
    | none => p.age.put wSETTLERUN f0

/-- What the measurement of a flag-free lit frame of an MZI element looks up. -/
def Slp.lookups (p : Slp) (i : SlpIn) : List Word := match p.region with
  | some e => if Fp.eq (p.get wLIE) e then [] else [p.ratio i]
  | none => [p.ratio i]

/-- One engine frame of SLP-1 for one element. -/
def Slp.frame (p : Slp) (i : SlpIn) (lut : Word → Word) : Slp :=
  let free := p.flagFree i
  let m := p.measure i lut
  let nan := free && (Fp.isNan (p.sum i) || (p.lit i && Fp.isNan m.y))
  let usable := free && p.lit i && !nan
  let missing := p.flag i Sample.missing || nan
  let p := { p with nan := nan, luts := if free && p.lit i && !p.voa then p.lookups i else [] }
  let p := p.counters i missing usable
  let p := p.grace i
  let p := if usable then p.puts [(wX, m.x), (wLIE, m.liE)] else p
  let m? := if usable then some m else none
  let p := if p.badReq then p.ev evBAD_REQ else p
  let st := p.get wSTATE
  let p :=
    if p.parks then p.parkFrame
    else if Fp.eq (p.get wMODEREQ) stOFF then p.offFrame
    else if Fp.eq (p.get wMODEREQ) stCAL then p.calFrame i
    else if Fp.eq st stHOLD then p.holdFrame i m?
    else if Fp.eq st stRAMP || Fp.eq st stTRACK then p.activeFrame i m?
    else p.leaveFrame usable
  (p.phasor i).snapshot i

end Sys2Proof.Machine
end

