-- ==== Sys2Proof/Machine/Engines.lean ====
section
/-!
DEFINITION. The loop engines: frames, overruns, halts, set-point windows, program banks, cluster tables
(spec/04_loop_engines.md R96-R117, R401).
-/

namespace Sys2Proof.Machine

/-! ## Addresses (Table LE-4) -/

/-- BAR2 address of instruction n of bank b of engine e. -/
def progAddr (e b n : Nat) : Nat := 0x1000000 + 0x10000 * e + 0x8000 * b + 8 * n

/-- The word of instruction n. -/
def progWord (s : State) (e b n : Nat) : BitVec 64 := BitVec.ofNat 64 (leNat (readBytes memBlank s.mem (progAddr e b n) 8))

/-- The active program bank. -/
def actBank (s : State) (e : Nat) : Nat := (bit s (A.engStat e) 29).toNat
/-- A bank was verified. -/
def bankOk (s : State) (e b : Nat) : Bool := bit s (A.engStat e) (27 + b)
/-- An engine is halted. -/
def engHalted (s : State) (e : Nat) : Bool := bit s (A.engStat e) 30
/-- A bank holds the SLP-1 ROM image. -/
def bankRom (s : State) (e b : Nat) : Bool := (engOf s e).rom.getLsbD b

/-- The supervisors run (R352, Table FT-7). -/
def supvRuns (s : State) : Bool := !inSafe s && !s.thm.tripped && domRuns s 13

/-! ## Start, stop, halt, overrun -/

/-- RUNNING, with the cluster's summary of it. -/
def setRunning (e : Nat) (b : Bool) : Act := .all [putBit (A.engStat e) 31 b, putBit (A.cluStat (e / 8)) (e % 8) b]

/-- Keys of engine e's entries in a table that has n of them for each engine. -/
def engKeys (e n : Nat) : List (Nat × Nat) := [(n * e, n * e + n - 1)]

/-- A start (R101): both drive-out sides hold park codes, V, S and P are 0, execution begins at instruction 0. -/
def startEngine (e : Nat) : Act := .all [
  setRunning e true,
  updEng fun x => { x with
    vregs := sdrop (engKeys e 512) x.vregs,
    sregs := sdrop (engKeys e 32) x.sregs,
    pregs := sdrop (engKeys e 8) x.pregs,
    drvEmit := sdrop (engKeys e 112) x.drvEmit,
    drvFill := sdrop (engKeys e 112) x.drvFill,
    calDwell := sdrop (engKeys e 112) x.calDwell },
  updEngN e fun x => { x with overran := false }]

/-- A stop (R101, R116): from the lane frame whose drives would come now, element slots carry park codes. -/
def stopEngine (e : Nat) : Act := .all [
  setRunning e false, clrBit (A.engStat e) 30,
  updEng fun x => { x with drvFill := sdrop (engKeys e 112) x.drvFill },
  updEngN e fun x => { x with active := false }]

/-- A fetch error halts the engine (R116). -/
def haltEngine (e n : Nat) : Act := .look fun s =>
  let v := actBank s e * 4096 + n
  .all [
    setRunning e false, setBit (A.engStat e) 30, setBit (A.engEvt e) 7,
    wrNat (A.engPmerr e) (2 ^ 31 + v), wrNat (A.engPc e) v,
    updEngN e fun x => { x with active := false, haltedAt := s.tim.frames },
    raise { src := 284 + 4 * (e / 8), master := e, access := 3, addr := n, detail := e }]

/-- An overrun (R104): a group is unfinished whose OUT.DRV has not issued, one of those that keep their previous drives (DEDUCED, log entry
116). -/
def takeOverrun (e : Nat) : Act := .look fun s =>
  let x := engOf s e
  .all [
    setFld (A.engStat e) 14 8 (~~~x.done).toNat,
    wrNat (A.engPc e) (actBank s e * 4096 + x.pc),
    bump (A.engOvrcnt e) 15 0,
    setFld (A.engCyc e) 15 0 0xFFFF,
    setBit (A.cluEvt (e / 8)) 0,
    updEngN e fun x => { x with active := false, overran := true },
    setBit (A.engEvt e) 0,
    raise { src := 257 + 2 * (e / 8), addr := A.engEvt e, master := e, detail := e }]

/-- The next instruction of the frame program, where its word decodes. -/
def nextOp (s : State) (e : Nat) : Option GOp := gdecode (progWord s e (actBank s e) (engOf s e).pc)

/-- An END due in cycle 383 of a 383-cycle frame: the frame ends normally (R104). -/
def endDue (s : State) (e : Nat) : Bool :=
  decide (s.eng.frameLen = 383) && decide ((engOf s e).cycle = 383) && (nextOp s e == some .end_)

/-- The frame program runs until END, the end of the frame or a damaged word (R104, R116, R119). Where a 383-cycle frame leaves END unissued,
ENG_CYC keeps the count of the frame before (DESIGN CHOICE, log entry 125). -/
def runProgram (e : Nat) : Nat → Act
  | 0 => .done
  | fuel + 1 => .look fun s =>
    let x := engOf s e
    if !x.active then .done
    else if s.eng.frameLen ≤ x.cycle then
      Act.when (endDue s e) (updEngN e fun x => { x with active := false })
    else if isBad s (progAddr e (actBank s e) x.pc) then haltEngine e x.pc
    else match nextOp s e with
      | some op => (gop e op).seq (runProgram e fuel)
      | none => haltEngine e x.pc

/-! ## One frame of SLP-1 (spec/06_standard_loop.md) -/

/-- The 128 logical words of a loop, a damaged one read as NaN (R115). -/
def loopWords (s : State) (e i : Nat) : SMap Word :=
  (List.range 128).filterMap fun w =>
    let a := lsmAddr e i (physWord (rotOf s e) w)
    let v := if isBad s a then Fp.nan else readWord s.mem a
    if v = 0#32 then none else some (w, v)

/-- The element is an input VOA of a port (Table FM-5: role 1). -/
def inputVoa (s : State) (n : Nat) : Bool := match elemRec s n with
  | some r => r.voa && decide (r.role = 1)
  | none => false

/-- The supervisors follow the settling of an element (R158, R167, R185): its first settle since the last soft start, and, for the
settle set of the commit in progress, its SETTLED and whether it had a usable sample since the strobe. -/
def noteFrame (e n : Nat) (old : SMap Word) (r : Slp) : Act := .look fun s =>
  let get (w : Nat) : Word := sget (fun _ => 0#32) r.ws w
  let started := Fp.eq (get 0) stRAMP && (Fp.eq (get wRTGAGE) f0 || Fp.lt (get wRTGAGE) (sget (fun _ => 0#32) old wRTGAGE))
  let settledNow := r.evs.contains evSETTLED
  let usable := Fp.lt f0 (get wGOODRUN) && !Fp.eq (get 0) stPARK && !Fp.eq (get 0) stOFF && !Fp.eq (get 0) stCAL
  let watched := s.pipe.cur.any fun c => c.settle.contains n
  .all [
    Act.when (r.cal.isSome && s.sup.run.any fun x => decide (x.elem = n)) (updSup fun x => { x with run := x.run.map fun y => { y with
      counted := y.counted + 1, usable := if r.cal = some true then y.usable + 1 else y.usable } }),
    Act.when (started || settledNow) (updSup fun x => { x with elems := smod (fun _ => {}) x.elems n fun y => { y with
      settleT := if settledNow then (match y.settleT, started with
          | some t, false => some t
          | _, _ => some (Fp.scaleRne (get wSETTLET) 1 1).toNat)
        else none } }),
    Act.when (watched && (settledNow || (usable && !(engOf s e).spev.getLsbD 0))) (updPipe fun x => { x with cur := x.cur.map fun c =>
    { c with
      lastAt := if settledNow then s.eng.frame else c.lastAt,
      settled := if settledNow && !c.settled.contains n then c.settled ++ [n] else c.settled,
      used := if usable && !c.used.contains n then c.used ++ [n] else c.used } })]

/-- What one loop's frame leaves behind: its words, drive, tone and dwell; events are gathered by group. -/
def slpApply (e i : Nat) (old : SMap Word) (r : Slp) (resync : Bool) : Act := .look fun s =>
  let n := 112 * e + i
  let get (w : Nat) : Word := sget (fun _ => 0#32) r.ws w
  let st := get 0
  let quiet := Fp.eq st stPARK || Fp.eq st stOFF
  let mask := [A.parkMask0 e, A.parkMask1 e, A.parkMask2 e, A.parkMask3 e].getD (i / 32) 0
  .all [
    Act.each (r.wrote.filter (· < 104)) fun w => setLsmWord e i w (get w),
    (match r.drive with
      | none => .done
      | some v =>
        if Fp.isNan v then .all [setDrive n .park, bump (A.edlNancnt (lanePairOf n)) 15 0,
          event (A.edlStat (lanePairOf n)) 8 (184 + 2 * (lanePairOf n / 16)) e (lanePairOf n)]
        else setDrive n (.volts v)),
    toneUpdate e n (if inputVoa s n then .pilotPlan else .ditherPlan 6442451#24) (get 59)
      (some (if quiet then 0#32 else get 58)) (if resync then some 0#32 else none),
    updEng fun x => { x with calDwell := sset (fun _ => 0) x.calDwell n r.dwell, holdEnd := sset (fun _ => false) x.holdEnd n r.ended },
    Act.when r.nan (sticky e (BitVec.twoPow 16 (i % 16))),
    noteFrame e n old r,
    Act.when (Fp.eq st stPARK) (setBit mask (i % 32)),
    Act.when (!Fp.eq st stPARK && Fp.eq (sget (fun _ => 0#32) old 0) stPARK) (clrBit mask (i % 32))]

/-- SLP-1 loads the word: not a reserved one, and of the set-point windows the current one and the retained TGT (R149, Table SL-2). Each loop's
are loaded in every frame, whatever its mode and KIND (DEDUCED, log entry 125). -/
def slpLoads (w : Nat) : Bool :=
  !(decide (29 ≤ w ∧ w ≤ 31) || decide (37 ≤ w ∧ w ≤ 39) || decide (83 ≤ w ∧ w ≤ 103) || (decide (112 ≤ w) && decide (w ≠ 120)))

/-- Damaged words of the present group's loops that SLP-1 loads: each is recorded once, with the sticky bits of its lanes (R115, R125). -/
def slpErrors (e g : Nat) : Act := .look fun s =>
  Act.each ((List.range 128).filter slpLoads) fun w =>
    let bad := (List.range 16).filter fun l => isBad s (lsmAddr e (16 * g + l) (physWord (rotOf s e) w))
    Act.when (!bad.isEmpty) (.all [sticky e (laneSet bad), lsmError e w])

/-- A loop as a frame of SLP-1 finds it. -/
def loopStart (s : State) (e i : Nat) (old : SMap Word) : Slp :=
  { ws := old, dwell := sget (fun _ => 0) s.eng.calDwell (112 * e + i), ended := sget (fun _ => false) s.eng.holdEnd (112 * e + i) }

/-- One group of SLP-1: its 16 loops, then its events, one entry for each code (R168). -/
def slpGroup (e g : Nat) : Act := .look fun s =>
  let input (i : Nat) : SlpIn :=
    { frame := s.eng.frame, rotated := (engOf s e).spev.getLsbD 0,
      x0 := sampleOf s (112 * e + i) 0, x1 := sampleOf s (112 * e + i) 1 }
  let rs := (List.range' (16 * g) 16).map fun i =>
    let old := loopWords s e i
    (i, old, (loopStart s e i old).frame (input i) (lutValue s (112 * e + i)))
  .all [
    updEngN e fun x => { x with gb := g, done := x.done ||| BitVec.twoPow 7 g },
    slpErrors e g,
    Act.each rs fun r => Act.each r.2.2.luts fun x => lutError e (112 * e + r.1) x,
    Act.each rs fun r => slpApply e r.1 r.2.1 r.2.2 (decide (s.eng.frame % 4096 = 0)),
    (let nan := laneSet ((rs.filter fun r => r.2.2.drive.any Fp.isNan).map (·.1 % 16))
    Act.when (decide (nan ≠ 0#16)) (queueEvt e 0xFF00 nan)),
    Act.each (List.range' 0x0201 7) fun code =>
      let lanes := laneSet ((rs.filter fun r => r.2.2.evs.contains code).map (·.1 % 16))
      Act.when (decide (lanes ≠ 0#16)) (queueEvt e code lanes)]

/-- The instructions of the SLP-1 image in the active bank that cannot be read. -/
def slpDamaged (s : State) (e : Nat) : List Nat :=
  (List.range (min 4096 (Config.slpImage.length / 8))).filter fun n => isBad s (progAddr e (actBank s e) n)

/-- Where a frame of SLP-1 stops at a damaged word: how many groups are over, and the word that is due to issue; none where the frame's path
meets none of them. The image is not given, so which it is is open (R116, R146; log entry 116). -/
def slpStop (s : State) (e w : Nat) : Option (Nat × Nat) :=
  let d := slpDamaged s e
  if w % 9 = 8 then none else d[w / 9 % d.length]?.map fun n => (w % 9, n)

/-- A whole frame of SLP-1: seven groups. Its cycle count lies between 1 and 378 and is otherwise open (R146, log entry 1). -/
def slpWhole (e : Nat) : Act := .all [
  Act.upto 7 (slpGroup e),
  withFree fun w => .look fun s =>
    let c := 1 + w.toNat % 378
    .all [wrNat (A.engCyc e) (max c (fld s (A.engCyc e) 31 16) * 2 ^ 16 + c),
      updEngN e fun x => { x with gb := 0, active := false, cycle := c }]]

/-- One frame of SLP-1. A damaged word of the image that comes due to issue halts the engine after the groups before it (R116); what the group
that it interrupts had already done is not shown (log entry 116). -/
def runSlp (e : Nat) : Act := .look fun s =>
  if (slpDamaged s e).isEmpty then slpWhole e
  else withFree fun w => match slpStop s e w.toNat with
    | some (k, n) => .all [Act.upto k (slpGroup e), haltEngine e n]
    | none => slpWhole e

/-! ## The engine frame (R96-R101, R104, R109, R111) -/

/-- Length of the frame: 383 or 385 cycles after the net trim reached four root cycles (R98). -/
def frameLength : Act := updEng fun x =>
  if x.trim ≤ -4 then { x with frameLen := 383, trim := x.trim + 4 }
  else if 4 ≤ x.trim then { x with frameLen := 385, trim := x.trim - 4 }
  else { x with frameLen := 384 }

/-- The buffers swap: samples become readable and the fill side is cleared; drives become the emission side, but for halted
engines, whose two sides stay frozen (R99, R100, R116). -/
def swapBuffers : Act := .look fun s =>
  let halted := (List.range 96).filter (engHalted s)
  let frozen (k : Nat) : Bool := halted.contains (k / 112)
  updEng fun x => { x with
    smpRead := x.smpFill, smpFill := [],
    drvEmit := if halted.isEmpty then x.drvFill
      else (x.drvEmit.filter fun p => frozen p.1).foldl (fun m p => sset (fun _ => .park) m p.1 p.2)
        (x.drvFill.filter fun p => !frozen p.1) }

/-- The armed set-point action, at the commit strobe (R108, R109). Answers through SPEV bit 0. -/
def applyRotation (e : Nat) : Act := .whenS (fun s => s.eng.strobe && bit s (A.engSpbank e) 2 && !engHalted s e) (.look fun s =>
  let act := fld s (A.engSpbank e) 1 0
  let turn := if act = 1 then 1 else if act = 2 then 2 else 0
  .all [
    setFld (A.engStat e) 23 22 ((rotOf s e + turn) % 3),
    clrBit (A.engSpbank e) 2, clrBit (A.engStat e) 20, setBit (A.engEvt e) 2,
    updEngN e fun x => { x with spev := x.spev ||| 1#32 }])

/-- The armed program swap, next frame or at the commit strobe (R111). -/
def applySwap (e : Nat) : Act := .whenS
  (fun s => !engHalted s e && (decide (fld s (A.engSwap e) 1 0 = 1) || (decide (fld s (A.engSwap e) 1 0 = 2) && s.eng.strobe)))
  (.look fun s => .all [
    setFld (A.engSwap e) 1 0 0, clrBit (A.engStat e) 21,
    if bankOk s e (1 - actBank s e) then .all [
      putBit (A.engStat e) 29 (decide (actBank s e = 0)), setBit (A.engEvt e) 3,
      updEngN e fun x => { x with spev := x.spev ||| 2#32 }]
    else setBit (A.engEvt e) 9])

/-- A start takes effect where the active bank is still verified; otherwise it is refused as RUN is (R110; DEDUCED, log entry 116). -/
def applyStart (e : Nat) : Act := .look fun s =>
  if bankOk s e (actBank s e) then startEngine e else .all [clrBit (A.engCtrl e) 0, setBit (A.engEvt e) 9]

/-- A start or stop that was asked for. A start asked for after a stop follows it; on a halted engine one frame later, after the supervisors
have rewritten its windows (R116; DESIGN CHOICE, log entry 116). -/
def applyRun (e : Nat) : Act := .look fun s => match (engOf s e).runReq with
  | none => .done
  | some false => .all [stopEngine e, updEngN e fun x => { x with runReq := none }]
  | some true =>
    if engHalted s e then stopEngine e
    else .all [Act.when (engRuns s e) (stopEngine e), applyStart e, updEngN e fun x => { x with runReq := none }]

/-- The boundary of one engine: what is armed applies, then the program begins at instruction 0. -/
def engineBoundary (e : Nat) : Act := .whenS (fun s => domRuns s (e / 8)) (.all [
  .whenS (fun s => (engOf s e).active && engRuns s e) (takeOverrun e),
  updEngN e fun x => { x with spev := if x.overran then 4#32 else 0#32, overran := false },
  applyRotation e, applySwap e, applyRun e,
  .whenS (fun s => engRuns s e) (updEngN e fun x => { x with
    pc := 0, grpPc := 0, inBody := false, gb := 0, cycle := 0, done := 0#7, active := true })])

/-- The element update of a cluster moves on: lookups go to the shadow for one frame while its entries are copied (R114). -/
def advanceEct (c : Nat) : Act := .look fun s => match sget (fun _ => none) s.eng.ect c with
  | none => .done
  | some u =>
    if u.frames = 0 then updEng fun x => { x with ect := sset (fun _ => none) x.ect c (some { u with frames := 1 }) }
    else
      let a := ectBase c (ectIndex u.elem)
      .all [
        writeMem a u.image,
        Act.when (s.memBad.any fun w => decide (a ≤ w ∧ w < a + 1024))
          (.upd (.memBad (s.memBad.filter fun w => !decide (a ≤ w ∧ w < a + 1024))) .done),
        updEng fun x => { x with ect := sset (fun _ => none) x.ect c none },
        clrBit (A.cluStat c) 30, bump (A.ectUpdcnt c) 15 0, setBit (A.cluEvt c) 1]

/-- One engine's program of the frame. -/
def runFrame (e : Nat) : Act := .whenS (fun s => engRuns s e && domRuns s (e / 8)) (.look fun s =>
  if bankRom s e (actBank s e) then runSlp e else runProgram e 386)

/-- ENGINE_FRAME_START (Table LE-2). -/
def engineFrame : Act := .all [
  .look fun s => updEng fun x => { x with frame := frameNo s },
  Act.upto 96 fun e => .whenS (fun s => (engOf s e).active && engRuns s e && endDue s e) (updEngN e fun x => { x with active := false }),
  frameLength,
  Act.upto 12 injectUnacked, swapBuffers, dueTones,
  Act.upto 12 advanceEct,
  Act.upto 96 engineBoundary,
  updEng fun x => { x with strobe := false },
  Act.upto 96 runFrame]

/-- ENGINE_OVERRUN: the frame of engine e ends with an instruction unissued (R104). -/
def execEngineOverrun (e : Fin 96) (s : State) : Host.Outcome State Fault Refusal :=
  (Act.whenS (fun s => engRuns s e && (engOf s e).active)
    (.look fun s => if endDue s e then updEngN e fun x => { x with active := false } else takeOverrun e)).next s

/-- INSTR_FETCH_UE: instruction n of the active bank is due to issue and cannot be read (R116). -/
def execInstrFetchUe (e : Fin 96) (n : BitVec 12) (s : State) : Host.Outcome State Fault Refusal :=
  (Act.whenS (fun s => engRuns s e) (.look fun s =>
    let a := progAddr e (actBank s e) n.toNat
    .all [Act.when (!isBad s a) (.upd (.memBad (a :: s.memBad)) .done), haltEngine e n.toNat])).next s

/-! ## Engine registers -/

/-- Write ENG_CTRL.RUN (R101, Table LE-6). On an engine that runs or is halted, RUN = 1 acts only after an RUN = 0 (R116). -/
def writeRun (e : Nat) (v : Bool) : Act := .look fun s =>
  if v && !bankOk s e (actBank s e) then setBit (A.engEvt e) 9
  else .all [putBit (A.engCtrl e) 0 v,
    updEngN e fun x =>
      { x with
        runReq := if !v then (if engRuns s e || engHalted s e then some false else none)
          else if engRuns s e || engHalted s e then (if x.runReq.isSome then some true else none) else some true }]

def execEngineRunWrite (e : Fin 96) (v : Bool) (s : State) : Host.Outcome State Fault Refusal :=
  (hostWriteFld (A.engCtrl e) 0 0 v.toNat (writeRun e v)).next s

/-- Write ENG_SWAP.MODE (R111): 0b11 is ignored. -/
def writeSwap (e m : Nat) : Act := Act.when (decide (m < 3)) (.all [
  setFld (A.engSwap e) 1 0 m, putBit (A.engStat e) 21 (decide (m ≠ 0))])

def execEngSwapWrite (e : Fin 96) (m : Fin 4) (s : State) : Host.Outcome State Fault Refusal :=
  (hostWriteFld (A.engSwap e) 1 0 m (writeSwap e m)).next s

/-- Write SEED (R108): ignored with STG_LOCKED while armed, halted or seeding (Table LE-8). -/
def writeSeed (e : Nat) : Act := .look fun s =>
  if bit s (A.engSpbank e) 2 || engHalted s e || bit s (A.engStat e) 24 then setBit (A.engEvt e) 4 else setBit (A.engStat e) 24

def execSeed (e : Fin 96) (s : State) : Host.Outcome State Fault Refusal := (hostWriteFld (A.engSpbank e) 3 3 1 (writeSeed e)).next s

/-- Words of one window of all 112 loops copied into another, logical words (R108). A word that cannot be read is copied as it is stored, and
its copy is good (DESIGN CHOICE, log entry 125). -/
def copyWindow (e src dst : Nat) : Act := Act.upto 112 fun i => Act.upto 8 fun w => .look fun s =>
  setLsmWord e i (dst + w) (lsmWord s e i (src + w))

/-- SEED completes: staged := current. -/
def seedDone (e : Nat) : Act := .whenS (fun s => bit s (A.engStat e) 24) (.all [clrBit (A.engStat e) 24, copyWindow e 104 112])

def execSeedDone (e : Fin 96) (s : State) : Host.Outcome State Fault Refusal := (seedDone e).next s

/-- Write ARM and ACTION (R109): they are replaced together; a halted engine ignores the write with STG_LOCKED (R116). -/
def writeArm (e : Nat) (arm : Bool) (act : Nat) : Act := .look fun s =>
  if engHalted s e then setBit (A.engEvt e) 4
  else .all [setFld (A.engSpbank e) 1 0 act, putBit (A.engSpbank e) 2 arm, putBit (A.engStat e) 20 arm]

def execSpbankArmWrite (e : Fin 96) (arm : Bool) (act : Fin 4) (s : State) : Host.Outcome State Fault Refusal :=
  (hostWriteFld (A.engSpbank e) 2 0 (arm.toNat * 4 + act) (writeArm e arm act)).next s

/-- ENG_CTRL.CNT_CLR (Table LE-6). -/
def execEngCntClr (e : Fin 96) (s : State) : Host.Outcome State Fault Refusal :=
  (hostWriteFld (A.engCtrl e) 1 1 1 (.all [
    clearRegs [A.engOvrcnt e, A.engEcccnt e], setFld (A.engCyc e) 31 16 0])).next s

/-- CLU_CTRL.CNT_CLR (Table LE-12). -/
def execCluCntClr (c : Fin 12) (s : State) : Host.Outcome State Fault Refusal :=
  (hostWriteFld (A.cluCtrl c) 1 1 1 (clearRegs [A.ectUpdcnt c, A.tblEcccnt c])).next s

/-! ## BAR2 writes of engine and cluster memories (R107, R110, R112) -/

/-- An external write of LSM word w of loop i (R107). -/
def writeLsmExternal (e i w : Nat) (v : Word) : Act := .look fun s =>
  if engRuns s e && decide (104 ≤ w) then
    if w < 112 ∨ 120 ≤ w then setBit (A.engEvt e) 5
    else if bit s (A.engSpbank e) 2 || bit s (A.engStat e) 24 then setBit (A.engEvt e) 4
    else setLsmWord e i w v
  else setLsmWord e i w v

def execLsmExternalWrite (e : Fin 96) (i : Fin 112) (w : Fin 128) (v : BitVec 32) (s : State) : Host.Outcome State Fault Refusal :=
  (Act.whenS (fun s => domUp s (e / 8)) (writeLsmExternal e i w v)).next s

/-- Signed programs are enforced (ENF_PROG, R371). -/
def enfProg (s : State) : Bool := s.sec.enf.getLsbD 0

/-- A bank changes: it is no longer verified and holds no ROM image (R110). -/
def bankTouched (e b : Nat) : Act := .all [
  clrBit (A.engStat e) (27 + b),
  updEngN e fun x => { x with rom := x.rom &&& ~~~(BitVec.twoPow 2 b) }]

/-- A bank that held the ROM image keeps its words when one of them is written. -/
def spillRom (e b : Nat) : Act := .whenS (fun s => bankRom s e b) (writeMem (progAddr e b 0) (Config.slpImage.take 0x8000))

/-- Half h of instruction n of bank b is written through BAR2 (R110, R371). -/
def writeBank (e b n h : Nat) (v : Word) : Act := .look fun s =>
  if engRuns s e && decide (b = actBank s e) then setBit (A.engEvt e) 8
  else if enfProg s then .done
  else
    let a := progAddr e b n
    .all [spillRom e b, writeMemWord (a + 4 * h) v,
      Act.when (isBad s a) (.upd (.memBad (s.memBad.filter (· != a))) .done),
      bankTouched e b]

def execProgramBankWrite (e : Fin 96) (b : Fin 2) (n : Fin 4096) (h : Fin 2) (v : BitVec 32) (s : State) :
    Host.Outcome State Fault Refusal := (Act.whenS (fun s => domUp s (e / 8)) (writeBank e b n h v)).next s

/-- A word of cluster c's table memory is written through BAR2: only the auxiliary region takes it (R401, Table LE-3). -/
def writeTable (c w : Nat) (v : Word) : Act := .look fun s =>
  let a := tableBase c + 4 * w
  Act.when (decide (0xE0000 ≤ 4 * w ∧ 4 * w < 0xFFB80)) (.all [
    writeMemWord a v, Act.when (isBad s a) (.upd (.memBad (s.memBad.filter (· != a))) .done)])

def execClusterTableWrite (c : Fin 12) (w : Fin 262144) (v : BitVec 32) (s : State) : Host.Outcome State Fault Refusal :=
  (Act.whenS (fun s => domUp s c) (writeTable c w v)).next s

/-! ## The Element Characterisation Table (R113, R114, R322) -/

/-- The table of 256 canonical NaNs that an absent or unreadable record stands for (R322). -/
def nanTable : List Byte := (List.range 256).flatMap fun _ => natLe 4 0x7FC00000

/-- An element's table in the master. -/
def masterTable (s : State) (n : Nat) : List Byte := (recValue s 7 n).getD nanTable

/-- CLU_CTRL.ECT_RELOAD written 1 (Table LE-12). -/
def reloadEct (c : Nat) : Act := .all [setBit (A.cluCtrl c) 0, clrBit (A.cluStat c) 31]

def execEctReload (c : Fin 12) (s : State) : Host.Outcome State Fault Refusal :=
  (hostWriteFld (A.cluCtrl c) 0 0 1 (reloadEct c)).next s

/-- Copy the tile's slice from the master into the mirror. An element update in progress goes on with the master's present entries, and one that
waits is not needed any more (DESIGN CHOICE, log entry 125). -/
def copySlice (c : Nat) : Act := .all [
  .upd (.memDrop [(tableBase c, tableBase c + 0xDFFFF)]) .done,
  .look fun s => .upd (.memBad (s.memBad.filter fun a => !decide (tableBase c ≤ a ∧ a < tableBase c + 0xE0000))) .done,
  .look fun s => Act.upto 896 fun j => match recValue s 7 (896 * c + j) with
    | some t => writeMem (ectBase c j) t
    | none => .done,
  .look fun s => updEng fun x => { x with
    ectWait := x.ectWait.filter fun n => decide (n / 896 ≠ c),
    ect := smod (fun _ => none) x.ect c fun o => o.map fun u => { u with image := masterTable s u.elem } }]

/-- The master CRC of cluster c (R322), computed from the master. -/
def masterCrc (s : State) (c : Nat) : Word := crc32c ((List.range 896).flatMap fun j => masterTable s (896 * c + j))
/-- The supervisors compute it at bring-up and after every committed write of an element's table; it is kept until then (R322). -/
def renewMasterCrc (c : Nat) : Act := .look fun s => updEng fun x => { x with masterCrc := sset (fun _ => none) x.masterCrc c (some (masterCrc s c)) }

/-- ECT_MIRROR_LOAD: the supervisors copy tile c's slice and check it against the master's CRC; `ok` is false where the copy
came out wrong, and then the CRC that was found is open (log entry 1). -/
def execEctMirrorLoad (c : Fin 12) (ok : Bool) (s : State) : Host.Outcome State Fault Refusal :=
  (Act.whenS (fun s => domUp s c && supvRuns s && bit s A.nvmStat 31) (.all [
    .whenS (fun s => sget (fun _ => none) s.eng.masterCrc c == none) (renewMasterCrc c),
    copySlice c, Act.upto 896 fun j => noteUnreadable 7 (896 * c + j),
    clrBit (A.cluCtrl c) 0,
    .look fun s =>
    let crc := crc32c (readBytes memBlank s.mem (tableBase c) 0xE0000)
    if ok && sget (fun _ => none) s.eng.masterCrc c == some crc then .all [wr (A.ectCrc c) crc, setBit (A.cluStat c) 31]
    else if ok then .all [wr (A.ectCrc c) crc, clrBit (A.cluStat c) 31, event (A.cluEvt c) 2 (258 + 2 * c) 255 c]
    else .all [withFree fun w => wr (A.ectCrc c) w, clrBit (A.cluStat c) 31, event (A.cluEvt c) 2 (258 + 2 * c) 255 c]])).next s

/-- ECT_ELEMENT_UPDATE: the element's new entries go into the shadow; one element of a cluster at a time (R114). -/
def execEctElementUpdate (n : Fin 10752) (s : State) : Host.Outcome State Fault Refusal :=
  (Act.whenS (fun s => s.eng.ectWait.contains n.val && !bit s (A.cluStat (n / 896)) 30 && domUp s (n / 896) &&
      bit s (A.cluStat (n / 896)) 31) (.look fun s => .all [
    updEng fun x => { x with
      ect := sset (fun _ => none) x.ect (n / 896) (some { elem := n, image := masterTable s n }),
      ectWait := x.ectWait.filter (· != n.val) },
    setBit (A.cluStat (n / 896)) 30, setFld (A.cluStat (n / 896)) 29 20 (n % 896)])).next s

/-- A table word that could not be read asks for its element's table again, through the shadow (R115). -/
def wantMirror (n : Nat) : Act := updEng fun x => { x with ectWait := if x.ectWait.contains n then x.ectWait else x.ectWait ++ [n] }

/-! ## Engine events (R138) -/

/-- The event record of a queue entry: OBJECT is the lowest element concerned, which gives the engine (DESIGN CHOICE, log
entry 16). -/
def engineRecord (s : State) (e : Nat) (w : BitVec 64) : EvRec :=
  let v := w.toNat
  let lanes := v / 2 ^ 32 % 2 ^ 16
  let low := ((List.range 16).find? lanes.testBit).getD 0
  { code := v / 2 ^ 48, source := 1, object := 112 * e + 16 * (v / 2 ^ 29 % 8) + low, time := nowNs s, detail := v }

/-! ## Patrol of the engine memories (R311) -/

/-- SRAM_PATROL: the patrol reads the word at BAR2 address `k` of an LSM, a program bank or a table memory. -/
def execSramPatrol (k : Fin 50331648) (found : MemErr) (s : State) : Host.Outcome State Fault Refusal :=
  let a := k.val
  let e := a / 0x10000 % 0x100
  let lsm := decide (a < 0x600000)
  let prog := decide (0x1000000 ≤ a ∧ a < 0x1600000)
  let c := if lsm || prog then e / 8 else (a - 0x2000000) / 0x100000
  let tbl := decide (0x2000000 ≤ a ∧ a < 0x2C00000)
  let word := if prog then a / 8 * 8 else a / 4 * 4
  let addr := if lsm then a % 0x10000 / 64 else if prog then a % 0x8000 / 8 else a % 0x100000 / 4
  (Act.whenS (fun s => (lsm || prog || tbl) && domRuns s c) (match found with
    | .none => Act.done
    | .corrected => .all [
      Act.when lsm (bump (A.engEcccnt e) 15 0), Act.when prog (bump (A.engEcccnt e) 31 16), Act.when tbl (bump (A.tblEcccnt c) 15 0),
      raise { src := 281 + 4 * c, master := 103, access := 4, addr := addr, detail := if tbl then 0 else e }]
    | .uncorrectable => .all [
      .look fun s => Act.when (!isBad s word) (.upd (.memBad (word :: s.memBad)) .done),
      Act.when lsm (.all [wrNat (A.engLsmerr e) (2 ^ 31 + addr), setBit (A.engEvt e) 6,
        raise { src := 282 + 4 * c, master := 103, access := 4, addr := addr, detail := e }]),
      Act.when tbl (.all [
        .look fun s => Act.when (!bit s (A.tblErraddr c) 31) (wrNat (A.tblErraddr c) (2 ^ 31 + 4 * addr)),
        bump (A.tblEcccnt c) 31 16, setBit (A.cluEvt c) 3,
        raise { src := 283 + 4 * c, master := 103, access := 4, addr := addr },
        Act.when (decide (4 * addr < 0xE0000)) (wantMirror (896 * c + addr / 256))])])).next s

end Sys2Proof.Machine
end

