-- ==== Sys2Proof/Machine/Real.lean ====
section
/-!
DEFINITION. Real-number formulas of the supervisors (spec/06_standard_loop.md, spec/03_converters.md R399): fixed point with 200 binary
places, then one rounding to the nearest binary32 (log entry 17).
-/

namespace Sys2Proof.Machine

/-- One in fixed point. -/
abbrev fxOne : Nat := 2 ^ 200

/-- The nearest binary32 pattern of n / d; a zero denominator gives a NaN. -/
def Fp.ofRat (neg : Bool) (n d : Nat) : Word :=
  if d = 0 then Fp.nan
  else
    let x := n * 2 ^ 400
    Fp.round neg (2 * (x / d) + if x % d = 0 then 0 else 1) 401

/-- The nearest binary32 pattern of a fixed-point value. -/
def Fp.ofFx (neg : Bool) (x : Nat) : Word := Fp.ofRat neg x fxOne

/-- Pi in fixed point: 16 atan(1/5) - 4 atan(1/239). -/
def atanInv (n : Nat) : Nat → Nat → Nat → Int → Int
  | 0, _, _, acc => acc
  | fuel + 1, k, x, acc =>
    let t := Int.ofNat (x / (2 * k + 1))
    atanInv n fuel (k + 1) (x / (n * n)) (if k % 2 = 0 then acc + t else acc - t)
def fxPi : Nat := (16 * atanInv 5 90 0 (fxOne / 5) 0 - 4 * atanInv 239 30 0 (fxOne / 239) 0).toNat

/-- Terms of the series of cosine (from term 0) and sine (from term 1) of the fixed-point angle x: every second term, with
alternating sign. -/
def trigSum (x : Nat) : Nat → Nat → Nat → Bool → Int → Int
  | 0, _, _, _, acc => acc
  | fuel + 1, k, t, neg, acc =>
    let t' := t * x / fxOne / (k + 1) * x / fxOne / (k + 2)
    trigSum x fuel (k + 2) t' (!neg) (if neg then acc - Int.ofNat t else acc + Int.ofNat t)
def fxCos (x : Nat) : Int := trigSum x 45 0 fxOne false 0
def fxSin (x : Nat) : Int := trigSum x 45 1 x false 0

/-- The pattern of a signed fixed-point value. -/
def Fp.ofFxInt (x : Int) : Word := Fp.ofFx (decide (x < 0)) x.natAbs

/-- x to the power n in fixed point. -/
def fxPow (x : Nat) : Nat → Nat
  | 0 => fxOne
  | n + 1 => fxPow x n * x / fxOne

/-- 10^(-1/1000) in fixed point: the thousandth root of 1/10, found bit by bit. -/
def rootBits (n target : Nat) : Nat → Nat → Nat
  | 0, r => r
  | b + 1, r => rootBits n target b (if fxPow (r + 2 ^ b) n ≤ target then r + 2 ^ b else r)
/-- 10^(-1/10): the tenth root of 1/10. -/
def fxTenth : Nat := rootBits 10 (fxOne / 10) 200 0
/-- 10^(-a/1000), by three tenth roots. -/
def fxAtten (a : Nat) : Nat :=
  let r2 := rootBits 10 fxTenth 200 0
  let r3 := rootBits 10 r2 200 0
  fxPow (fxOne / 10) (a / 1000) * fxPow fxTenth (a / 100 % 10) / fxOne * fxPow r2 (a / 10 % 10) / fxOne * fxPow r3 (a % 10) / fxOne

/-- The nearest pattern of the product of a finite value and a fixed-point factor. -/
def Fp.scaleFx (w : Word) (x : Nat) : Word := Fp.ofRat (Fp.neg w) (Fp.mag w * x) (2 ^ 149 * fxOne)

/-- a x b / c of positive finite values, one rounding. -/
def Fp.mulDiv (a b c : Word) : Word := Fp.ofRat (Fp.neg a != (Fp.neg b != Fp.neg c)) (Fp.mag a * Fp.mag b) (Fp.mag c * 2 ^ 149)

end Sys2Proof.Machine
end

