-- ==== Sys2Proof/Machine/Sup.lean ====
section
/-!
DEFINITION. The supervisors' slow loops: adaptive gain, heater offload, the Scoreboard, forced parks and pilot amplitudes
(spec/06_standard_loop.md R159-R167, spec/03_converters.md R399).
-/

namespace Sys2Proof.Machine

/-! ## What the supervisors know of an element -/

def supOf (s : State) (n : Nat) : SupElem := sget (fun _ => {}) s.sup.elems n
def updSupN (n : Nat) (f : SupElem → SupElem) : Act := updSup fun x => { x with elems := smod (fun _ => {}) x.elems n f }

/-- Engine e runs SLP-1: RUNNING with a bank that holds the ROM image, and not halted. -/
def engSlp (s : State) (e : Nat) : Bool := engRuns s e && !engHalted s e && bankRom s e (actBank s e)
/-- The element's loop runs SLP-1. -/
def elemSlp (s : State) (n : Nat) : Bool := engSlp s (engineOf n)
/-- Every element that the topology table lists. -/
def listedElems (s : State) : List Nat := match s.fab.topo with
  | some p => p.elems.map (·.1)
  | none => []
/-- A word of the element has one of these values. -/
def elemIs (s : State) (n w : Nat) (v : Word) : Bool := Fp.eq (elemWord s n w) v

/-- The snapshot just taken holds at least 2,048 frames (R159, R164, R167). -/
def windowFull (s : State) (n : Nat) : Bool := Fp.le 0x45000000#32 (elemWord s n wSNN) && Fp.finite (elemWord s n wSNN)
/-- No soft start lies in the window: 4,096 frames or more have passed since the last. -/
def noSoftStart (s : State) (n : Nat) : Bool := Fp.le 0x45800000#32 (elemWord s n wRTGAGE)

/-- The limits LO and HI of the coefficient bank in force. -/
def bankLimits (s : State) (n : Nat) : Word × Word :=
  let b := if Fp.lt (elemWord s n wCBANK) fHalf then wBANKA else wBANKB
  (elemWord s n (b + 3), elemWord s n (b + 4))

/-- The mean drive of the window lies above the centre of the limits: h of R164 is above 0. -/
def driveHigh (s : State) (n : Nat) : Bool :=
  let lo := Fp.val (bankLimits s n).1
  let hi := Fp.val (bankLimits s n).2
  let snn := Fp.val (elemWord s n wSNN)
  decide (0 < (2 ^ 150 * Fp.val (elemWord s n wSNU) - (lo + hi) * snn) * ((hi - lo) * snn))

/-- |h| of R164 as a fraction: |SNU/SNN - (LO + HI)/2| / ((HI - LO)/2). -/
def headroomOf (s : State) (n : Nat) : Nat × Nat :=
  let snn := Fp.val (elemWord s n wSNN)
  let lo := Fp.val (bankLimits s n).1
  let hi := Fp.val (bankLimits s n).2
  ((2 ^ 150 * Fp.val (elemWord s n wSNU) - (lo + hi) * snn).natAbs, ((hi - lo) * snn).natAbs)

/-! ## Adaptive gain (R159) -/

/-- beta squared, for A1 = a / q and A2 = b / q: 2 (A1^2 + sqrt(A1^4 + 16 A2^2)), in fixed point. -/
def betaSq (a b q : Nat) : Nat :=
  2 * (a * a * fxOne + Fp.isqrt ((a ^ 4 + 16 * b ^ 2 * q ^ 2) * fxOne * fxOne)) / (q * q)

/-- The gain estimate of one MZI element: RHO, LI_GAIN and the lock-quality override. Where both averages are 0 the equation has
no solution above 0, and what is written is open (log entry 1). -/
def adaptGain (n : Nat) : Act := .look fun s =>
  let w (k : Nat) := elemWord s n k
  let b2 := betaSq (Fp.mag (w wSN1)) (Fp.mag (w wSN2)) (Fp.mag (w wSNN))
  let beta := Fp.isqrt (b2 * fxOne)
  let piTone := Fp.mag (w wTONEA) * fxPi
  let write (rho li : Word) : Act := .all [setElemWord n wRHO rho, setElemWord n wLIGAIN li]
  if !(Fp.finite (w wSN1) && Fp.finite (w wSN2)) || decide (beta = 0) then
    withFree fun r => withFree fun l => .all [write (Fp.clamp r fHalf f2) l, updSupN n fun x => { x with gainOver := false }]
  else .all [
    -- RHO = G_NOM pi TONE_A / beta; LI_GAIN = 2 / (pi beta)
    write (Fp.clamp (Fp.ofRat (Fp.neg (w wGNOM)) (Fp.mag (w wGNOM) * piTone) (2 ^ 298 * beta)) fHalf f2)
      (Fp.ofRat false (2 * fxOne * fxOne) (fxPi * beta)),
    updSupN n fun x => { x with gainOver := decide (2 * Fp.mag (w wGNOM) * piTone < beta * 2 ^ 298) }]

/-- ADAPTIVE_GAIN_UPDATE: every MZI element with TONE_A above 0 and a full snapshot (R159). -/
def execAdaptiveGainUpdate (s : State) : Host.Outcome State Fault Refusal :=
  (Act.whenS supvRuns (.look fun s => Act.each (listedElems s) fun n =>
    .whenS (fun s => elemSlp s n && !elemVoa s n && Fp.lt f0 (elemWord s n wTONEA) && windowFull s n) (adaptGain n))).next s

/-! ## Heater offload (R164) -/

/-- One step of the running heater trim, 4 codes the way that moves the drive toward centre, within 0 to 4,095. -/
def heaterStep (n : Nat) : Act := .look fun s =>
  let t := runTrim s n
  let t' := if (supOf s n).heatUp = driveHigh s n then min (t + 4) 4095 else t - 4
  Act.when (decide (t' ≠ t)) (.all [
    updLane fun x => { x with trims := sset (fun _ => 0) x.trims n (t' + 1) },
    updSupN n fun x => { x with stepped := (s.eng.frame / 4096 + 1) :: x.stepped.take 1 }])

/-- HEATER_OFFLOAD: MZI elements in TRACK with a full snapshot, no soft start in the window, |h| above 0.30, and a successful
characterisation (R164). -/
def execHeaterOffload (s : State) : Host.Outcome State Fault Refusal :=
  (Act.whenS supvRuns (.look fun s => Act.each (listedElems s) fun n =>
    .whenS (fun s => elemSlp s n && !elemVoa s n && elemIs s n wSTATE stTRACK && windowFull s n && noSoftStart s n &&
      (supOf s n).charact && decide (3 * (headroomOf s n).2 < 10 * (headroomOf s n).1)) (heaterStep n))).next s

/-! ## The Scoreboard (R167) -/

/-- Linear between the value that earns 255 (a / d) and the value that earns 0 (b / d), for the measure x / d; the nearest
integer (log entry 17). -/
def subscore (x a b : Nat) : Nat :=
  if x ≤ a then 255 else if b ≤ x then 0 else (2 * 255 * (b - x) + (b - a)) / (2 * (b - a))

/-- The lock-quality subscore: sqrt(SNE / SNN) relative to TOL. -/
def lockScore (s : State) (n : Nat) : Nat :=
  let r := Fp.isqrt (Fp.mag (elemWord s n wSNE) * fxOne * fxOne / Fp.mag (elemWord s n wSNN))
  subscore (4 * r * 2 ^ 149) (Fp.mag (elemWord s n wTOL) * fxOne) (4 * Fp.mag (elemWord s n wTOL) * fxOne)

/-- The settle-time subscore: SETTLE_T of the last soft start, or 0 when 64 frames brought no settle; none while it is open. -/
def settleScore (s : State) (n : Nat) : Option Nat := match (supOf s n).settleT with
  | some t => some (subscore t 8 16)
  | none => if Fp.lt 0x42800000#32 (elemWord s n wRTGAGE) then some 0 else none

/-- The drift subscore: the change of SNU / SNN between two snapshots, over 1.024 ms. -/
def driftScore (old new : Word × Word) : Nat :=
  let d := (Fp.val new.1 * Fp.val old.2 - Fp.val old.1 * Fp.val new.2).natAbs
  let q := (Fp.val new.2 * Fp.val old.2).natAbs
  -- the rate in V/s is d / q / 0.001024; 255 at 0.5, 0 at 5
  subscore (d * 1000000) (512 * q) (5120 * q)

/-- The age subscore: days since the last successful characterisation, 255 while no CAL path is designated. After a reset the day
is the one stored with the element's ECT record; an element with neither has 255 (log entry 18). -/
def ageScore (s : State) (n : Nat) : Nat :=
  let day := match (supOf s n).calDay with
    | some d => some d
    | none => if (recValue s 7 n).isSome then some (recAux s 7 n % 2 ^ 32) else none
  match s.pipe.calPath, day with
  | some _, some d => subscore (nowNs s / 86400000000000 - d) 30 120
  | _, _ => 255

/-- HOLD_LIMIT is in force: the loop parked by it, or it holds with the limit reached (R161). -/
def holdLimited (s : State) (n : Nat) : Bool :=
  elemIs s n wPLATCH f1 || (elemIs s n wSTATE stHOLD && countingCause (elemWord s n wCAUSE) &&
    Fp.le (elemWord s n wHOLDLIM) (elemWord s n wHOLDCNT))

/-- What forces the score to 0 (R167). -/
def scoreForced (s : State) (n : Nat) : Bool :=
  let x := supOf s n
  (tileLink s (tileOfElem n)).hflt.contains (localOf n) || x.calFail || decide (x.weak ≠ 0) || !x.known ||
  engHalted s (engineOf n) || holdLimited s n || (!elemVoa s n && (recValue s 7 n).isNone)

/-- The element's Scoreboard score now. -/
def elemScore (s : State) (n : Nat) : Nat := if scoreForced s n then 0 else (supOf s n).score

/-- One element's subscores and score. -/
def scoreElem (n : Nat) : Act := .look fun s =>
  let x := supOf s n
  let filled := windowFull s n && Fp.finite (elemWord s n wSNU) && Fp.finite (elemWord s n wSNE)
  let quiet := filled && noSoftStart s n && !x.stepped.contains (s.eng.frame / 4096)
  let new := (elemWord s n wSNU, elemWord s n wSNN)
  let h := headroomOf s n
  let y : SupElem := { x with
    headroom := if filled then subscore (100 * h.1) (50 * h.2) (95 * h.2) else x.headroom,
    lock := if filled then (if x.gainOver then 0 else lockScore s n) else x.lock,
    settle := if filled then (settleScore s n).getD x.settle else x.settle,
    drift := match quiet, x.mean with
      | true, some old => driftScore old new
      | _, _ => x.drift,
    mean := if quiet then some new else none }
  let score := min (min y.headroom y.lock) (min (min y.settle y.drift) (ageScore s n))
  updSupN n fun _ => { y with score := if scoreForced s n then 0 else score }

/-- A cause that forces the score to 0 holds: the computed score returns only with the next window (R167). -/
def noteForced : Act := .whenS supvRuns (.look fun s => Act.each ((listedElems s).filter fun n => scoreForced s n && decide ((supOf s n).score ≠ 0))
  fun n => updSupN n fun x => { x with score := 0 })

/-- The cell of an element carries a connection of the map in force. -/
def elemLit (s : State) (n : Nat) : Bool := elemIs s n wLIGHTEXP f1

/-- SCOREBOARD_UPDATE: every listed element; cell elements whose age subscore is below 128 and whose cell carries no connection
are queued for characterisation (R167). -/
def execScoreboardUpdate (s : State) : Host.Outcome State Fault Refusal :=
  (Act.whenS supvRuns (.look fun s => Act.each ((listedElems s).filter (elemSlp s)) fun n => .all [
    scoreElem n,
    .look fun s => Act.when (!elemVoa s n && decide (ageScore s n < 128) && !elemLit s n &&
        !(s.sup.queue.any fun p => decide (p.1 = n)) && !(s.sup.run.any fun r => decide (r.elem = n)))
      (updSup fun x => { x with queue := x.queue ++ [(n, none)] })])).next s

/-! ## Forced parks (R163, R187, R198) -/

/-- The supervisors hold the element parked for a reason of its own: a connection left dark, a Line Call block, the source of
a characterisation's Dark step, a cross-device output, or a park of its connection. -/
def parkWanted (s : State) (n : Nat) : Bool :=
  let out (q : Nat) : Bool := s.fab.topo.any fun p => p.ports.any fun r => r.output && decide (r.port = q) && decide (r.voa = some n)
  s.pipe.dark.any (fun d => out d.out) || s.pipe.blocked.any out ||
  (s.sup.run.any fun r => decide (r.stage = .dark) && decide (r.source = some n)) || s.hdl.slots.any (fun p => p.2.any fun g => g.outs.any out) ||
  s.hdl.tails.any (fun g => g.outs.any out) || isolated s n

/-- Write FPARK of an element that runs SLP-1. -/
def setFpark (n : Nat) (v : Bool) : Act := .whenS (fun s => bankRom s (engineOf n) (actBank s (engineOf n)))
  (setElemWord n wFPARK (if v then f1 else f0))

/-- FPARK is to be set: the device holds the element's tile, the supervisors want it parked, or its engine has just been started. -/
def fparkWanted (s : State) (n : Nat) : Bool :=
  bit s (A.tileStat (tileOfElem n)) tsHoldOut || parkWanted s n || decide (s.tim.frames < (engOf s (engineOf n)).parkTo)

/-- The element's lane group is in low-power mode or re-settles from it. -/
def lpWaits (s : State) (n : Nat) : Bool :=
  decide (n < numElems) && (bit s (grpStat (tileOfElem n)) 29 || decide (0 < (groupOf s (tileOfElem n)).resettle))

/-- Bring FPARK up to date. An element of a group in low-power mode leaves PARK only after the group has left that mode and settled (R83). -/
def refreshFpark (n : Nat) : Act := .look fun s =>
  if fparkWanted s n then setFpark n true
  else if elemIs s n wFPARK f1 && lpWaits s n then leaveLp (tileOfElem n)
  else setFpark n false

/-- Before a start of an SLP-1 engine the supervisors set FPARK on all of its loops, and clear it after one frame (R163). -/
def parkForStart (e : Nat) : Act := .look fun s => .all [
  updEngN e fun x => { x with parkTo := s.tim.frames + 2 }, Act.upto 112 fun i => setFpark (112 * e + i) true]

/-- The elements of the connections of a map follow the parks of their paths. -/
def refreshPathsOf (m : FabMap) : Act := .look fun s => Act.each s.fab.topo.toList fun t =>
  Act.each (m.conns.flatMap (pathElems t)) refreshFpark
def refreshConnParks : Act := .look fun s => refreshPathsOf s.fab.map

/-- FPARK_WRITE: the supervisors follow FAB_HOLD of tile t, and starts of its engines (R163). -/
def execFparkWrite (t : Fin 12) (s : State) : Host.Outcome State Fault Refusal :=
  (Act.whenS supvRuns (.all [Act.upto 896 fun i => refreshFpark (896 * t + i), refreshConnParks])).next s

/-- HFLT_WORD_WRITE (R60): under SLP-1, the supervisors bring word 82 of an element to 1.0 or 0.0 from its fault flag. -/
def execHfltWordWrite (n : Fin 10752) (s : State) : Host.Outcome State Fault Refusal :=
  (Act.whenS (fun s => supvRuns s && bankRom s (engineOf n) (actBank s (engineOf n))) (.look fun s => setElemWord n 82
    (if (tileLink s (tileOfElem n)).hflt.contains (localOf n) then 0x3F800000#32 else 0#32))).next s

/-- HALT_HOLD_LIMIT: HOLD_LIM frames after engine e halted, its elements with POLICY other than 1 are parked through PARK_MASK
(R163). -/
def execHaltHoldLimit (e : Fin 96) (s : State) : Host.Outcome State Fault Refusal :=
  (Act.whenS (fun s => supvRuns s && engHalted s e) (.all [
    Act.upto 112 fun i => .look fun s =>
      let n := 112 * e.val + i
      let lim := Fp.scaleRne (elemWord s n wHOLDLIM) 1 1
      Act.when (!elemIs s n wPOLICY f1 && decide (lim ≤ Int.ofNat (s.tim.frames - (engOf s e).haltedAt)))
        (setBit ([A.parkMask0 e, A.parkMask1 e, A.parkMask2 e, A.parkMask3 e].getD (i / 32) 0) (i % 32)),
    refreshConnParks])).next s

/-! ## Pilots (R399) -/

/-- TONE_A of an input VOA: PILOT_DEPTH x VREF / G_NOM, the depth in steps of 0.01 %. A G_NOM of 0 gives no value; it is open (log
entry 1). -/
def setPilot (n : Nat) : Act := .whenS (fun s => inputVoa s n && bankRom s (engineOf n) (actBank s (engineOf n))) (.look fun s =>
  let g := elemWord s n wGNOM
  let v := elemWord s n wVREF
  let d := fld s A.pilotDepth 7 0
  if !Fp.finite g || !Fp.finite v || decide (Fp.mag g = 0) then withFree fun w => setElemWord n wTONEA w
  else setElemWord n wTONEA (Fp.ofRat (Fp.neg g != Fp.neg v) (d * Fp.mag v) (10000 * Fp.mag g)))

/-- The pilot contexts held at the 2,048 cap, as SLP-1's last tones left them; PILOT_LIMIT is set when one more is. -/
def countCapped : Act := .look fun s =>
  let n := (s.lane.tones.filter fun p => p.2.pilot && decide (p.2.amp = 2048)).length
  .all [setFld A.pilotLim 10 0 n, Act.when (decide (fld s A.pilotLim 10 0 < n)) (event A.toneStat 1 256)]

/-- The VOA of input port p. -/
def portVoa (s : State) (output : Bool) (p : Nat) : Option Nat :=
  s.fab.topo.bind fun t => (t.ports.find? fun r => r.output == output && decide (r.port = p)).bind (·.voa)

/-- PILOT_AMPLITUDE_RECOMPUTE: the amplitude of input port p's VOA. -/
def execPilotAmplitudeRecompute (p : Fin 1024) (s : State) : Host.Outcome State Fault Refusal :=
  (Act.whenS supvRuns (.look fun s => match portVoa s false p with
    | some n => .all [setPilot n, countCapped]
    | none => .done)).next s

/-- Write PILOT_DEPTH: 10 to 200 steps, otherwise ignored with DEPTH_BAD. -/
def writePilotDepth (v : Nat) : Act :=
  if 10 ≤ v ∧ v ≤ 200 then setFld A.pilotDepth 7 0 v else event A.toneStat 2 256

def execPilotDepthWrite (v : BitVec 32) (s : State) : Host.Outcome State Fault Refusal :=
  (hostWrite A.pilotDepth v (writePilotDepth (v.toNat % 256))).next s

end Sys2Proof.Machine
end

