-- ==== Sys2Proof/Machine/Fabric.lean ====
section
/-!
DEFINITION. The topology table and connection maps: their images, checks, routes and set-point images
(spec/01_fabric_model.md R8-R31, spec/06_standard_loop.md R148, spec/07_reconfiguration.md R177, R181).
-/

namespace Sys2Proof.Machine

/-! ## The topology table (R14-R20) -/

/-- A check of an image: the offset of the field it reports, and whether it holds (R398). -/
abbrev Check := Nat × Bool

/-- The offset of the first check that fails. -/
def firstBad (l : List Check) : Option Nat := (l.find? fun c => !c.2).map (·.1)

/-- CRC-32C of an image with the 4 bytes at offset `o` taken as 0. -/
def crcWithout (img : List Byte) (o : Nat) : Nat :=
  (crc32c (img.take o ++ [0#8, 0#8, 0#8, 0#8] ++ img.drop (o + 4))).toNat

/-- Sizes and section offsets of a topology image. -/
structure TopoHdr where
  stages : Nat
  cps : Nat
  nElems : Nat
  nIn : Nat
  nOut : Nat
  elemOff : Nat
  wireOff : Nat
  portOff : Nat
  total : Nat

def topoHdr (img : List Byte) : TopoHdr :=
  let stages := leAt img 13 1
  let cps := leAt img 16 2
  let ne := leAt img 18 2
  let ni := leAt img 20 2
  let no := leAt img 22 2
  let e := 64 + 8 * stages * cps
  let w := e + 4 * ne
  let p := w + 4 * (stages - 1) * cps
  { stages := stages, cps := cps, nElems := ne, nIn := ni, nOut := no, elemOff := e, wireOff := w, portOff := p,
    total := p + 8 * (ni + no) }

/-- The value is in a range. -/
def within (lo hi x : Nat) : Bool := decide (lo ≤ x ∧ x ≤ hi)

/-- Row Header of Table FM-6a. -/
def topoHeaderChecks (img : List Byte) : List Check :=
  let h := topoHdr img
  [(0, decide (leAt img 0 4 = 0x4B544F50)), (4, decide (leAt img 4 2 = 1)), (6, decide (leAt img 6 2 = 64)),
   (8, decide (leAt img 8 4 ≠ 0)), (12, decide (leAt img 12 1 ≤ 1)), (13, within 1 24 h.stages),
   (14, within 1 2 (leAt img 14 1)), (15, decide (leAt img 15 1 = 0)), (16, within 1 512 h.cps),
   (18, within 1 10752 h.nElems), (20, decide (h.nIn ≤ 1024)), (22, decide (h.nOut ≤ 1024)),
   (24, decide (leAt img 24 4 = 64)), (28, decide (leAt img 28 4 = h.elemOff)), (32, decide (leAt img 32 4 = h.wireOff)),
   (36, decide (leAt img 36 4 = h.portOff)), (40, decide (leAt img 40 4 = h.total) && decide (img.length = h.total))] ++
  [(44, decide (leAt img 44 16 = 0)), (60, decide (leAt img 60 4 = crcWithout img 60))]

/-- The records of a section: offset and value. -/
def records (img : List Byte) (off size n : Nat) : List (Nat × Nat) :=
  (List.range n).map fun i => (off + size * i, leAt img (off + size * i) size)

def cellRecords (img : List Byte) : List (Nat × Nat) := records img 64 8 ((topoHdr img).stages * (topoHdr img).cps)
def elemRecords (img : List Byte) : List (Nat × Nat) := records img (topoHdr img).elemOff 4 (topoHdr img).nElems
def portRecords (img : List Byte) : List (Nat × Nat) := records img (topoHdr img).portOff 8 ((topoHdr img).nIn + (topoHdr img).nOut)

/-- Bits `hi` to `lo` of a value. -/
def cut (v hi lo : Nat) : Nat := v / 2 ^ lo % 2 ^ (hi + 1 - lo)

/-- Row Reserved. -/
def topoReservedChecks (img : List Byte) : List Check :=
  ((cellRecords img).map fun r => (r.1, decide (cut r.2 31 2 = 0))) ++
  ((elemRecords img).map fun r => (r.1, decide (cut r.2 12 0 = 0))) ++
  ((portRecords img).flatMap fun r =>
    let edge := decide (cut r.2 62 62 = 0)
    [(r.1, decide (cut r.2 3 0 = 0) && (!edge || decide (cut r.2 13 4 = 0))), (r.1 + 1, !edge || decide (cut r.2 27 14 = 0))])

/-- Row Elements. -/
def topoElemChecks (img : List Byte) : List Check :=
  let rec go : List (Nat × Nat) → List Nat → List Check
    | [], _ => []
    | (o, v) :: r, seen =>
      let e := cut v 31 18
      let kind := cut v 17 16
      let role := cut v 15 13
      [(o + 1, decide (role ≤ 3)),
       (o + 2, decide (kind ≤ 1) && (role != 0 || kind == 0) && ((role != 1 && role != 2) || kind == 1) && decide (e < numElems) &&
         !seen.contains e)] ++ go r (e :: seen)
  go (elemRecords img) []

/-- The element records by number. -/
def elemTable (img : List Byte) : SMap (Option ElemRec) :=
  (elemRecords img).foldl (fun m r => sset (fun _ => none) m (cut r.2 31 18)
    (some { voa := decide (cut r.2 17 16 = 1), role := cut r.2 15 13 })) []

/-- Row Cells. -/
def topoCellChecks (img : List Byte) : List Check :=
  let t := elemTable img
  let isCell (e : Nat) : Bool := (sget (fun _ => none) t e).any fun x => x.role == 0
  let rec go : List (Nat × Nat) → List Nat → List Check
    | [], _ => []
    | (o, v) :: r, seen =>
      let a := cut v 63 48
      let b := cut v 47 32
      [(o + 4, if b = 0xFFFF then decide (cut v 1 1 = 0) else isCell b && !seen.contains b),
       (o + 6, isCell a && !seen.contains a && a != b)] ++ go r (a :: b :: seen)
  go (cellRecords img) []

/-- Row Wiring. -/
def topoWireChecks (img : List Byte) : List Check :=
  let h := topoHdr img
  let rec go : List (Nat × Nat) → List Nat → List Check
    | [], _ => []
    | (o, v) :: r, seen => (o, decide (v < 2 * h.cps) && !seen.contains v) :: go r (v :: seen)
  (List.range (h.stages - 1)).flatMap fun b => go (records img (h.wireOff + 4 * h.cps * b) 2 (2 * h.cps)) []

/-- Row Ports: records, and of those before them the ports, links and VOAs taken, by direction. A record's direction is that of its place in
the section; a DIR bit that says otherwise is rejected at the record's byte 7, and a repeated (DIR, PORT) pair is reported at the second
record's PORT, byte 6 (DEDUCED, log entry 106). -/
def topoPortChecks (img : List Byte) : List Check :=
  let h := topoHdr img
  let t := elemTable img
  let rec go : List (Nat × Nat) → Nat → List Nat → List Nat → List Nat → List Check
    | [], _, _, _, _ => []
    | (o, v) :: r, i, ports, links, voas =>
      let dir := if i < h.nIn then 0 else 1
      let transit := decide (cut v 62 62 = 1)
      let voa := cut v 41 28
      let link := 2048 * dir + cut v 51 42
      let port := 2048 * dir + cut v 61 52
      [(o + 3, voa == 0x3FFF || ((sget (fun _ => none) t voa).any (fun x => x.role == dir + 1) && !voas.contains voa)),
       (o + 5, decide (cut v 51 42 < 2 * h.cps) && !links.contains link),
       (o + 6, !ports.contains port),
       (o + 7, decide (cut v 63 63 = dir) && (if transit then voa == 0x3FFF else dir == 1 || voa != 0x3FFF))] ++
      go r (i + 1) (port :: ports) (link :: links) (voa :: voas)
  go (portRecords img) 0 [] [] []

/-- Row Dilation 2. -/
def topoDilationChecks (img : List Byte) : List Check :=
  if leAt img 14 1 = 2 then (portRecords img).map fun r => (r.1 + 5, decide (cut r.2 51 42 % 2 = 0)) else []

/-- The link number with bits 0 and k exchanged (R20). -/
def swapBits (l k : Nat) : Nat :=
  if l.testBit 0 == l.testBit k then l else if l.testBit 0 then l - 1 + 2 ^ k else l + 1 - 2 ^ k

/-- Row BENES (R20). STAGES, the first of the two fields that n ties together, must be 2n - 1 for some n from 1 to 10; CELLS_PER_STAGE is
then held against that n (R398). -/
def topoBenesChecks (img : List Byte) : List Check :=
  let h := topoHdr img
  let n := (h.stages + 1) / 2
  if leAt img 12 1 = 1 then
    [(13, decide (h.stages % 2 = 1 ∧ h.stages ≤ 19)), (14, decide (leAt img 14 1 = 1)), (16, decide (h.cps = 2 ^ (n - 1)))] ++
    ((List.range (h.stages - 1)).flatMap fun b =>
      let k := if b + 1 < n then n - 1 - b else b + 2 - n
      (List.range (2 * h.cps)).map fun l =>
        let o := h.wireOff + 4 * h.cps * b + 2 * l
        (o, decide (leAt img o 2 = swapBits l k)))
  else []

/-- The first failing field of a topology image, in the order of Table FM-6a. -/
def topoError (img : List Byte) : Option Nat :=
  ([topoHeaderChecks, topoReservedChecks, topoElemChecks, topoCellChecks, topoWireChecks, topoPortChecks, topoDilationChecks,
    topoBenesChecks] : List (List Byte → List Check)).findSome? fun f => firstBad (f img)

/-- The table that a checked image holds. -/
def topoOf (img : List Byte) : Topo :=
  let h := topoHdr img
  { id := leAt img 8 4, benes := decide (leAt img 12 1 = 1), stages := h.stages, dilation := leAt img 14 1, cellsPerStage := h.cps,
    cells := (cellRecords img).map fun r =>
      { elemA := cut r.2 63 48, elemB := if cut r.2 47 32 = 0xFFFF then none else some (cut r.2 47 32),
        invA := decide (cut r.2 0 0 = 1), invB := decide (cut r.2 1 1 = 1) },
    elems := elemTable img,
    wiring := (List.range (h.stages - 1)).map fun b => (records img (h.wireOff + 4 * h.cps * b) 2 (2 * h.cps)).map (·.2),
    ports := (portRecords img).map fun r =>
      { output := decide (cut r.2 63 63 = 1), transit := decide (cut r.2 62 62 = 1), port := cut r.2 61 52, link := cut r.2 51 42,
        voa := if cut r.2 41 28 = 0x3FFF then none else some (cut r.2 41 28), peerDev := cut r.2 27 14, peerPort := cut r.2 13 4 },
    image := img }

/-! ## Ports and owners -/

def inOwner (s : State) (p : Nat) : Nat := sget (fun _ => 64) s.fab.inOwner p
def outOwner (s : State) (p : Nat) : Nat := sget (fun _ => 64) s.fab.outOwner p
/-- The party that owns a connection: a tenant that owns both ports, else the admin (64) (R27, R252). -/
def connOwner (s : State) (c : Conn) : Nat := if inOwner s c.inp = outOwner s c.out then inOwner s c.inp else 64
/-- A connection with a TRANSIT end. -/
def connTransit (s : State) (c : Conn) : Bool := s.fab.topo.any fun t =>
  (portRec t false c.inp).any (·.transit) || (portRec t true c.out).any (·.transit)
/-- The output VOA of a connection. -/
def outVoa (s : State) (q : Nat) : Option Nat := portVoa s true q

/-! ## Connection maps (R24, R25, R252) -/

/-- A map entry (Table FM-8); bit 34 is DEL (R218). -/
def connOf (v : Nat) : Conn :=
  { inp := cut v 63 54, out := cut v 53 44, tenant := cut v 43 38, cls := cut v 37 36, noVerify := decide (cut v 35 35 = 1),
    outAtten := cut v 31 16, tag := cut v 15 0 }
/-- The entry of a connection. -/
def connWord (c : Conn) : Nat :=
  c.inp * 2 ^ 54 + c.out * 2 ^ 44 + c.tenant * 2 ^ 38 + c.cls * 2 ^ 36 + c.noVerify.toNat * 2 ^ 35 + c.outAtten * 2 ^ 16 + c.tag
def changeOf (v : Nat) : Change := { del := decide (cut v 34 34 = 1), conn := connOf v }

/-- The 64-bit words of a list of bytes, little-endian. -/
def words64 (l : List Byte) : List Nat := (List.range (l.length / 8)).map fun i => leAt l (8 * i) 8

/-- One connection meets R25 on its own: ports in the table, class, attenuation. -/
def connValid (t : Topo) (c : Conn) : Bool :=
  (portRec t false c.inp).isSome && (portRec t true c.out).isSome && decide (c.cls ≠ 3) &&
  (decide (c.outAtten ≤ 6000) || decide (c.outAtten = 0xFFFF))

/-- No input and no output appears twice. -/
def connsDistinct (l : List Conn) : Bool := decide (l.map (·.inp)).Nodup && decide (l.map (·.out)).Nodup

/-- A whole map meets R25, its reserved bits apart. -/
def mapValid (t : Topo) (l : List Conn) : Bool := connsDistinct l && l.all (connValid t)

/-- The image of a map (Table FM-7). -/
def mapImage (id : Nat) (l : List Conn) : List Byte :=
  let es := l.flatMap fun c => natLe 8 (connWord c)
  let h := natLe 4 id ++ natLe 2 l.length ++ natLe 2 0 ++ natLe 4 0
  h ++ natLe 4 (crc32c (h ++ natLe 4 0 ++ es)).toNat ++ es

/-- The reserved fields and the CRC of a map image hold (R25). -/
def mapFormOk (img : List Byte) : Bool :=
  decide (leAt img 6 2 = 0) && decide (leAt img 8 4 = 0) && decide (leAt img 12 4 = crcWithout img 12) &&
  (words64 (img.drop 16)).all fun v => decide (cut v 34 32 = 0)

def mapConns (img : List Byte) : List Conn := (words64 (img.drop 16)).map connOf

/-! ## Set-point images (R11, R148, Table SL-1) -/

/-- The target of a cell element. -/
def cellTarget (t : Topo) (m : FabMap) (n : Nat) : Option Word :=
  (List.range t.cells.length).findSome? fun c => (t.cells[c]?).bind fun x =>
    let cross := sget (fun _ => false) m.cells c
    if x.elemA = n then some (if cross != x.invA then f1 else f0)
    else if x.elemB = some n then some (if cross != x.invB then f1 else f0) else none

/-- The port that a VOA serves, and the connection on that port. -/
def voaPort (t : Topo) (n : Nat) : Option PortRec := t.ports.find? fun r => r.voa == some n
def portConn (m : FabMap) (r : PortRec) : Option Routed :=
  m.conns.find? fun c => if r.output then c.conn.out == r.port else c.conn.inp == r.port

/-- TGT: a cell element's by its cell's state, a VOA's VREF, attenuated by OUT_ATTEN for a connected output; other elements keep
what stands in the current window. -/
def targetWord (s : State) (t : Topo) (m : FabMap) (n : Nat) : Word :=
  match cellTarget t m n with
  | some w => w
  | none => match voaPort t n with
    | some r =>
      let a := if r.output then ((portConn m r).map (·.conn.outAtten)).getD 0xFFFF else 0xFFFF
      if a = 0xFFFF then elemWord s n wVREF else Fp.scaleFx (elemWord s n wVREF) (fxAtten a)
    | none => elemWord s n wTGT

/-- Window word k of element n as an element command set it, or its initial value. -/
def settingWord (t : Topo) (m : FabMap) (n k : Nat) : Word :=
  match sget (fun _ => none) m.words (8 * n + k) with
  | some w => w
  | none =>
    if k = 1 then f1 else if k = 5 then 0x467A0000#32 else if k = 6 then 0x40800000#32
    else if k = 7 then (if (sget (fun _ => none) t.elems n).any (·.voa) then 0x3BA3D70A#32 else 0x3CA3D70A#32) else f0

/-- The element is being characterised (R165). -/
def inOwnCal (s : State) (n : Nat) : Bool := s.sup.run.any fun r => decide (r.elem = n) && decide (r.stage ≠ .leave)

/-- Window word 104 + k of element n under map m (Table SL-1). The VOA of a port without a connection is parked (R12), but for the time
of its own characterisation (R165, R166). -/
def windowWord (s : State) (t : Topo) (m : FabMap) (n k : Nat) : Word :=
  let blockedVoa := (voaPort t n).any fun r => (portConn m r).isNone && !r.transit
  if k = 0 then targetWord s t m n
  else if k = 1 then (if blockedVoa && !(settingWord t m n 1 == f5 && inOwnCal s n) then f1 else settingWord t m n 1)
  else if k = 3 then (if (elemConns t m n).any fun r => decide (r.conn.cls = 1) then f1 else f0)
  else if k = 4 then (sget (fun _ => none) m.words (8 * n + 4)).getD (if (elemConn t m n).isSome then f1 else f0)
  else settingWord t m n k

/-- The image of a map: the eight words of every listed element. -/
def mapWords (s : State) (m : FabMap) : List (Nat × Nat × Word) := match s.fab.topo with
  | some t => t.elems.flatMap fun p => (List.range 8).map fun k => (p.1, k, windowWord s t m p.1 k)
  | none => []

/-- The element is a gating element of the gated outputs (R181). -/
def isGate (s : State) (gated : List Nat) (n : Nat) : Bool := gated.any fun q => outVoa s q == some n

/-- The element is a cell element or an input VOA, whose words a transit image takes from the map it goes to (R181). -/
def movesEarly (s : State) (n : Nat) : Bool := (elemRec s n).any fun r => decide (r.role = 0 ∨ r.role = 1)

/-- The transit image X(A->B): map B for every element, gating elements in PARK (R181). -/
def transitWords (s : State) (b : FabMap) (gated : List Nat) : List (Nat × Nat × Word) :=
  (mapWords s b).map fun (n, k, w) => (n, k, if k = 1 && isGate s gated n then f1 else w)

/-! ## Gated and settle sets (R177, R181, R185) -/

/-- A connection of both maps some cell element of whose path receives another target (R177). A change of OUT_ATTEN alone disturbs
nothing: R190 gives it an empty gated set (DEDUCED, log entry 19). -/
def disturbed (s : State) (t : Topo) (a b : FabMap) (r : Routed) : Bool :=
  b.conns.any fun x => sameConn r.conn x.conn && (decide (r.bits ≠ x.bits) ||
    ((routeCells t x).flatMap fun c => cellElems t c.1).any fun n => decide (targetWord s t a n ≠ targetWord s t b n))

/-- Output ports of the gated set of a change from A to B. -/
def gatedOuts (s : State) (a b : FabMap) : List Nat := match s.fab.topo with
  | none => []
  | some t =>
    let gone := (a.conns.filter fun r => !(b.conns.any fun x => sameConn r.conn x.conn)).map (·.conn.out)
    let new := (b.conns.filter fun r => !(a.conns.any fun x => sameConn r.conn x.conn)).map (·.conn.out)
    let moved := (a.conns.filter (disturbed s t a b)).map (·.conn.out)
    gone ++ (new.filter fun q => !gone.contains q) ++ (moved.filter fun q => !gone.contains q && !new.contains q)

/-- MZI elements whose target in the current window is not that of map B, and that lie on a path of B (R185). -/
def settleSet (s : State) (b : FabMap) : List Nat := match s.fab.topo with
  | none => []
  | some t => (t.elems.map (·.1)).filter fun n =>
      !elemVoa s n && (elemConn t b n).isSome && decide (elemWord s n wTGT ≠ targetWord s t b n)

/-- Elements whose window words a change to map B alters, gating elements included. -/
def changedElems (s : State) (b : FabMap) (gated : List Nat) : List Nat := match s.fab.topo with
  | none => []
  | some t => (t.elems.map (·.1)).filter fun n => isGate s gated n ||
      (List.range 8).any fun k => decide (elemWord s n (104 + k) ≠ windowWord s t b n k)

end Sys2Proof.Machine
end

