-- ==== Sys2Proof/Machine/Pipe.lean ====
section
/-!
DEFINITION. Requests, batches and the route search of the commit pipeline (spec/07_reconfiguration.md R169-R180).
-/

namespace Sys2Proof.Machine

/-! ## Rights (R28) -/

abbrev rtConnect : Nat := 0
abbrev rtProtect : Nat := 1
abbrev rtPreempt : Nat := 2
abbrev rtTimed : Nat := 3
abbrev rtHuddle : Nat := 4
abbrev rtObserve : Nat := 5
/-- Party p holds a right; the admin (64) holds every one (R252). -/
def hasRight (s : State) (p r : Nat) : Bool := decide (64 ≤ p) || bit s (A.tenantOf p 0) r
def quotaOf (s : State) (p : Nat) : Nat := fld s (A.tenantOf p 1) 10 0
/-- PROTECTED connections of a party in a list. -/
def protCount (s : State) (l : List Conn) (p : Nat) : Nat := (l.filter fun c => decide (c.cls = 1) && decide (connOwner s c = p)).length

/-! ## Pipeline state -/

/-- L_B in nanoseconds (R174). -/
def leadNs (s : State) : Nat := if s.fab.topo.any (·.benes) then 60000 else 460000

/-- Instants of 250 ns intervals that pending timed requests name, those of open groups apart. -/
def pendingTimes (s : State) : List Nat :=
  s.pipe.waiting.filterMap (·.time) ++ ((s.pipe.batch.getD []).filterMap (·.time)) ++
  (s.pipe.next.toList.map (·.time)) ++ (s.pipe.cur.toList.filterMap fun c => if c.stage = .solved ∨ c.stage = .armed then some c.time else none)

/-- Instants that Huddle groups hold (R222): a YES vote reserves T. -/
def groupTimes (s : State) : List Nat := s.hdl.slots.filterMap fun p => p.2.bind fun g =>
  if g.voted = some 0 then some g.time else none

/-- A pending instant other than t lies within 100 us of it (Table CM-1). -/
def timeNear (s : State) (t : Nat) : Bool :=
  (pendingTimes s ++ groupTimes s).any fun p => decide (p ≠ t) && decide ((Int.ofNat p - Int.ofNat t).natAbs < 400)

/-- The checks of Table CM-1 on a named instant, with the least lead given; 0 where all hold. The first row cannot fail: TIME
counts intervals of 250 ns. -/
def timeStatus (s : State) (t lead nearStatus : Nat) : Nat :=
  if dueIn s t lead < 0 then nearStatus
  else if 0 < dueIn s t 1000000000 then St.commitTFar
  else if (groupTimes s).contains t then St.commitTConflict
  else if timeNear s t then St.commitTConflict else 0

/-- A request joins those that wait; its number is its acceptance order (R170, R172). -/
def addReq (by_ : ReqBy) (owner : Nat) (ask : Ask) (time : Option Nat) (undo : List (Nat × Nat × Word) := []) (unknown : List Nat := []) : Act := updPipe fun p => { p with
  nextId := p.nextId + 1,
  waiting := p.waiting ++ [{ id := p.nextId, by_ := by_, owner := owner, ask := ask, time := time, undo := undo, unknown := unknown }] }

/-- The pipeline is idle (R22): an accepted CAL_REQUEST counts until its completion, since its commits change set-point windows. -/
def pipeIdle (s : State) : Bool :=
  s.pipe.waiting.isEmpty && s.pipe.batch.isNone && s.pipe.next.isNone && s.pipe.cur.isNone && s.pipe.reports.isEmpty &&
  s.pipe.barriers.isEmpty && s.sup.jobs.isEmpty && s.sup.run.isNone && s.hdl.slots.isEmpty

/-! ## Building map B (R27, R28, R252) -/

/-- The connections of a list of changes: each removal, then each replacement or addition; none where a removal names no
connection that exists and, for a tenant, is its own. -/
def removeConns (s : State) (owner : Nat) : List Change → List Conn → Option (List Conn)
  | [], l => some l
  | c :: r, l =>
    if !c.del then removeConns s owner r l
    else if l.any fun x => sameConn x c.conn && (decide (owner = 64) || decide (connOwner s x = owner)) then
      removeConns s owner r (l.filter fun x => !sameConn x c.conn)
    else none

def addConns : List Change → List Conn → List Conn
  | [], l => l
  | c :: r, l =>
    if c.del then addConns r l
    else if l.any fun x => sameConn x c.conn then addConns r (l.map fun x => if sameConn x c.conn then c.conn else x)
    else addConns r (l ++ [c.conn])

/-- The connections that a list of changes adds or replaces, and the pairs of ports it names. -/
def addedConns (l : List Change) : List Conn := (l.filter fun c => !c.del).map (·.conn)
def namedPairs (l : List Change) : List (Nat × Nat) := l.map fun c => (c.conn.inp, c.conn.out)

/-- The ports and the TENANT of an entry are the party's (R27); an admin entry names ports of one owner, and that owner (R252). A removal is
held against the connection it names alone, when the map is built: CONN_ABSENT (DEDUCED, log entry 107). -/
def entryOwned (s : State) (owner : Nat) (c : Change) : Bool := c.del ||
  if owner = 64 then decide (inOwner s c.conn.inp = outOwner s c.conn.out) &&
    decide (c.conn.tenant = if inOwner s c.conn.inp = 64 then 0 else inOwner s c.conn.inp)
  else decide (inOwner s c.conn.inp = owner) && decide (outOwner s c.conn.out = owner) && decide (c.conn.tenant = owner)

/-- A party's PROTECTED connections stay within its quota where the request makes a connection PROTECTED that was not (R28; Table CS-11:
those above a lowered quota stay, new ones are refused). -/
def quotaOk (s : State) (owner : Nat) (old new : List Conn) : Bool :=
  decide (owner = 64) || decide (protCount s new owner ≤ quotaOf s owner) ||
  new.all fun c => decide (c.cls ≠ 1) || decide (connOwner s c ≠ owner) || old.any fun x => sameConn x c && decide (x.cls = 1)

/-- A check of a request: whether it holds, and the status and the entry it reports. -/
abbrev AskCheck := Bool × Nat × Nat
/-- The status and entry of the first check that fails; 0 where all hold. -/
def firstFailing (l : List AskCheck) : Nat × Nat := ((l.find? fun c => !c.1).map (·.2)).getD (0, 0)

/-- The checks of a list of entries that no other request can change: TOPOLOGY_ABSENT (R22), then R25, R27 and R28 in the order of
Table CM-2. -/
def entryChecks (s : State) (owner : Nat) (l : List Change) : List AskCheck :=
  let at_ (ok : Change → Bool) : Bool × Nat := (l.all ok, (badIndex ok l).getD 0)
  let whole (ok : List Change → Bool) : Bool × Nat := (ok l, firstFail ok l)
  [ (at_ fun c => c.del || s.fab.topo.isSome, St.topologyAbsent),
    (at_ fun c => c.del || s.fab.topo.any fun t => connValid t c.conn, St.mapInvalid),
    (whole fun m => decide (namedPairs m).Nodup && connsDistinct (addedConns m), St.mapInvalid),
    (at_ (entryOwned s owner), St.portNotOwned),
    (at_ fun _ => decide (owner = 64) || hasRight s owner rtConnect, St.rightMissing),
    (at_ fun c => decide (owner = 64) || c.del || decide (c.conn.cls ≠ 1) || hasRight s owner rtProtect, St.rightMissing),
    (whole fun m => decide (owner = 64) || decide (((addedConns m).filter fun c => decide (c.cls = 1)).length ≤ quotaOf s owner),
      St.rightMissing)].map fun (c, st) => (c.1, st, c.2)

/-- Parties that a change set names: the tenant of an entry, or of a removal, whose other fields are ignored, the owner of its ports; 64 for
ports without owner (log entry 37). -/
def changeParty (s : State) (c : Change) : Nat :=
  if inOwner s c.conn.inp = 64 ∧ outOwner s c.conn.out = 64 then 64 else if c.del then inOwner s c.conn.inp else c.conn.tenant
def changeParties (s : State) (l : List Change) : List Nat := (l.map (changeParty s)).eraseDups
/-- R25, R27 and R28 for the tenants named. -/
def partyStatus (s : State) (l : List Change) : Nat :=
  ((changeParties s l).map fun p => (firstFailing (entryChecks s p (l.filter fun c => decide (changeParty s c = p)))).1).find? (· ≠ 0) |>.getD 0

/-- What an ask makes of a map's connections, and the status and entry of the first check that fails. -/
structure AskResult where
  status : Nat
  index : Nat
  conns : List Conn

/-- Checks in order on what an ask makes: the old connections stay where one fails. -/
def asked (old new : List Conn) (l : List AskCheck) : AskResult :=
  let r := firstFailing l
  { status := r.1, index := r.2, conns := if r.1 = 0 then new else old }

/-- The checks of an ask when it is accepted (R172). -/
def askChecks (s : State) (owner : Nat) : Ask → List AskCheck
  | .changes l => entryChecks s owner l
  | .replace l => (decide (owner = 64) || hasRight s owner rtConnect, St.rightMissing, 0) |> fun c =>
      if l.isEmpty then [c] else entryChecks s owner (l.map fun x => { del := false, conn := x })
  | _ => []

/-- The connections that an ask makes of a map, or the status of the first check that fails (R252). -/
def askConns (s : State) (owner : Nat) (ask : Ask) (old : List Conn) : AskResult := match ask with
  | .words _ => asked old old []
  | .cal _ enter _ _ conn => asked old (if enter then old ++ conn.toList else old.filter fun c => !conn.any (sameConn c)) []
  | .changes l =>
    let lacks (c : Change) : Bool := !c.del || old.any fun x => sameConn x c.conn && (decide (owner = 64) || decide (connOwner s x = owner))
    let new := addConns l ((removeConns s owner l old).getD old)
    let taken (c : Change) : Bool := c.del || !(new.any fun x => !sameConn x c.conn && (decide (x.inp = c.conn.inp) || decide (x.out = c.conn.out)))
    asked old new (askChecks s owner ask ++ [
      ((removeConns s owner l old).isSome, St.connAbsent, (badIndex lacks l).getD 0),
      (connsDistinct new, St.mapInvalid, (badIndex taken l).getD 0),
      (quotaOk s owner old new, St.rightMissing, (badIndex (fun c => c.del || decide (c.conn.cls ≠ 1)) l).getD 0)])
  | .replace l =>
    let new := (old.filter fun x => decide (owner ≠ 64) && decide (connOwner s x ≠ owner)) ++ l
    asked old new (askChecks s owner ask ++ [
      (connsDistinct new, St.mapInvalid, 0),
      (quotaOk s owner old new, St.rightMissing, (badIndex (fun c => decide (c.cls ≠ 1)) l).getD 0)])

/-! ## The route search (R177-R180) -/

/-- An element that the solver may use. -/
def elemUsable (s : State) (n : Nat) : Bool :=
  (elemRec s n).any (fun r => decide (r.role ≠ 3)) && !bit s (A.tileStat (tileOfElem n)) tsHoldOut && elemSlp s n && decide (elemScore s n ≠ 0)

/-- Cells that two connections of the map cross in different states, or that carry two connections of a dilated fabric. -/
def cellsAgree (t : Topo) (l : List Routed) : Bool :=
  let cs := l.flatMap (routeCells t)
  if t.dilation = 2 then decide (cs.map (·.1)).Nodup
  else cs.all fun c => cs.all fun d => decide (c.1 ≠ d.1) || c.2 == d.2

/-- The map with its routes: those found, and of the connections that keep theirs the old ones. -/
def routedMap (m : FabMap) (conns : List Conn) (rs : List RouteOut) : Option (List Routed) :=
  conns.mapM fun c => match rs.find? fun r => decide (r.out.val = c.out) with
    | some r => some { conn := c, bits := r.bits.toNat }
    | none => (m.conns.find? fun x => sameConn x.conn c).map fun x => { conn := c, bits := x.bits }

/-- The cell states under a list of routes: other cells keep theirs. -/
def cellsUnder (t : Topo) (m : FabMap) (l : List Routed) : SMap Bool :=
  (l.flatMap (routeCells t)).foldl (fun x c => sset (fun _ => false) x c.1 c.2) m.cells

/-- A route found ends on its output's link, and all elements of its path are usable. -/
def routeGood (s : State) (t : Topo) (r : Routed) : Bool :=
  (portRec t true r.conn.out).any (fun p => decide ((routeOf t r).2 = p.link)) && (pathElems t r).all (elemUsable s)

/-- The connection of the characterisation in progress (R166). -/
def calConn (s : State) (c : Conn) : Bool := s.sup.run.any fun r => r.conn.any (sameConn c)

/-- The group a request stands for. -/
def reqGroup (r : Req) : Option Nat := match r.by_ with
  | .group g => some g
  | _ => none

/-- What the search may not touch in a stage: in stage 1 every connection the request does not name; later the PROTECTED
connections of other parties; always those with a TRANSIT end that the request does not name, or that a local request names
(R177, R180, R221). The path of a characterisation is never held (R166). -/
def mustKeep (s : State) (r : Req) (stage : Nat) (named : List Conn) (x : Routed) : Bool :=
  !calConn s x.conn &&
  ((connTransit s x.conn && (reqGroup r).isNone) || (!named.any (sameConn x.conn) &&
    (decide (stage = 0) || connTransit s x.conn || (decide (x.conn.cls = 1) && decide (connOwner s x.conn ≠ r.owner)))))

/-- Connections that stage 3 may remove for the requester. -/
def mayPreempt (s : State) (owner : Nat) (c : Conn) : Bool :=
  hasRight s owner rtPreempt && decide (c.cls = 2) && decide (connOwner s c ≠ owner)

/-- Connections a request names. -/
def askNamed : Ask → List Conn
  | .changes l => l.map (·.conn)
  | .replace l => l
  | .words _ => []
  | .cal _ _ _ _ conn => conn.toList

/-- The settings that a characterisation changes: MODE_REQ and LIGHT_EXP of its element, LIGHT_EXP 0 along its path, and CBANK
when it ends (R165, R166). -/
def calWords (t : Topo) (m : FabMap) (e : Nat) (enter : Bool) (mode cbank : Word) (conn : Option Conn) : SMap (Option Word) :=
  let set (x : SMap (Option Word)) (k : Nat) (w : Word) := sset (fun _ => none) x k (some w)
  if enter then
    let path := (m.conns.filter fun r => conn.any (sameConn r.conn)).flatMap (pathElems t)
    set (set (path.foldl (fun x n => set x (8 * n + 4) f0) m.words) (8 * e + 1) mode) (8 * e + 4) f1
  else set (set (m.words.filter fun p => decide (p.1 % 8 ≠ 4)) (8 * e + 1) mode) (8 * e + 2) cbank

/-- The output link of the last stage that light on output link l of stage k reaches through the cells as they stand. -/
def traceLink (t : Topo) (m : FabMap) : Nat → Nat → Nat → Nat
  | 0, _, l => l
  | fuel + 1, k, l =>
    if t.stages ≤ k + 1 then l
    else
      let i := (t.wiring.getD k []).getD l 0
      let cross := sget (fun _ => false) m.cells ((k + 1) * t.cellsPerStage + i / 2)
      traceLink t m fuel (k + 1) (if cross then (if i % 2 = 0 then i + 1 else i - 1) else i)

/-- Both outputs of the swept element's cell lead to the CAL sink or to an output that its VOA blocks (R166). -/
def sweepSafe (t : Topo) (m : FabMap) (e sink : Nat) : Bool :=
  match (List.range t.cells.length).find? fun c => (cellElems t c).contains e with
  | none => true
  | some c => [0, 1].all fun i =>
      let l := traceLink t m t.stages (c / t.cellsPerStage) (2 * (c % t.cellsPerStage) + i)
      t.ports.all fun p => !(p.output && decide (p.link = l)) || decide (p.port = sink) ||
        (p.voa.isSome && !m.conns.any fun r => decide (r.conn.out = p.port))

/-- A way to route a request that holds every rule of R177: the map it makes, the connections it removes, and what the search
prefers by, the most important first. -/
structure Routing where
  map : FabMap
  lost : List Conn
  key : List Nat

/-- How far a routing goes from map m to m', in the order of R177 and R178: connections removed, connections of other parties and of the
requester's own that are disturbed, elements below SCORE_AVOID on changed paths, moved elements. -/
def routingKey (s : State) (t : Topo) (m m' : FabMap) (r : Req) (named : List Conn) (gone : Nat) (changed : List Routed) : List Nat :=
  let moved := m.conns.filter fun x => !named.any (sameConn x.conn) && m'.conns.any fun y => sameConn x.conn y.conn && decide (x.bits ≠ y.bits)
  let others := moved.filter fun x => decide (connOwner s x.conn ≠ r.owner)
  let turned := ((m'.conns.flatMap (routeCells t)).map (·.1)).eraseDups.filter fun c =>
    sget (fun _ => false) m.cells c != sget (fun _ => false) m'.cells c
  [gone, others.length, moved.length - others.length,
    ((changed.flatMap (pathElems t)).eraseDups.filter fun n => decide (elemScore s n < s.pipe.scoreAvoid)).length,
    (turned.flatMap (cellElems t)).length]

/-- What a way to route a request comes to, where it breaks no rule: `conns` are the connections that the request asks for, `named` those it
names. A characterisation's connection gives way to whatever needs a cell of its path (R166). A PREEMPTIBLE connection is removed only where
its cells are needed (R31). -/
def routingOf (s : State) (t : Topo) (m : FabMap) (r : Req) (named conns : List Conn) (c : RouteCand) : Option Routing :=
  let gone := m.conns.filter fun x => c.removed.any fun q => decide (q.val = x.conn.out)
  (routedMap m (conns.filter fun x => !gone.any fun y => sameConn y.conn x) c.routes).bind fun l0 =>
    let new (x : Routed) : Bool := !m.conns.any fun y => sameConn y.conn x.conn && decide (y.bits = x.bits)
    let cells := ((l0.filter new).flatMap (routeCells t)).map (·.1)
    let cal := m.conns.filter fun x => calConn s x.conn && !named.any (sameConn x.conn) && (routeCells t x).any fun p => cells.contains p.1
    let l := l0.filter fun x => !cal.any fun y => sameConn y.conn x.conn
    let changed := l.filter new
    let m' : FabMap := { m with conns := l, cells := cellsUnder t m l }
    let sweep := match r.ask with
      | .cal e true _ _ (some c) => sweepSafe t m' e c.out && l.any fun x => sameConn x.conn c && (pathElems t x).contains e
      | _ => true
    if sweep && changed.all (routeGood s t) && cellsAgree t l && (decide (c.stage.val < 2) || hasRight s r.owner rtPreempt) &&
        (m.conns.filter (mustKeep s r c.stage named)).all (fun x => l.any fun y => sameConn x.conn y.conn && decide (x.bits = y.bits)) &&
        gone.all (fun x => decide (c.stage.val = 2) && mayPreempt s r.owner x.conn && !named.any (sameConn x.conn) && !cellsAgree t (x :: l)) then
      some { map := m', lost := (gone ++ cal).map (·.conn), key := routingKey s t m m' r named gone.length changed }
    else none

/-- The routing that R177 takes of those the search met: the first stage that has one, and in it the one its preferences put first. -/
def bestRouting (f : RouteCand → Option Routing) (l : List RouteCand) : Option Routing :=
  (l.foldl (fun (b : Option (List Nat × Routing)) c => match f c with
    | none => b
    | some x =>
      let k := c.stage.val :: x.key
      if b.any fun y => !listLt k y.1 then b else some (k, x)) none).map (·.2)

/-- R21 assures a route: a table of class BENES, no connection held fixed, and every element that a route can need usable. -/
def assured (s : State) (t : Topo) (m : FabMap) (r : Req) (named conns : List Conn) : Bool :=
  t.benes && !m.conns.any (mustKeep s r 1 named) && t.elems.all (fun p => decide (p.2.any (·.role ≠ 0)) || elemUsable s p.1) &&
  conns.all fun c => (m.conns.any fun x => sameConn x.conn c) ||
    ((portVoa s false c.inp).toList ++ (portVoa s true c.out).toList).all (elemUsable s)

/-- A local request makes, removes or replaces a connection with a TRANSIT end (R180). -/
def needsHuddle (s : State) (r : Req) (old conns : List Conn) : Bool := (reqGroup r).isNone &&
  ((conns.filter fun c => !old.any (sameConn c)) ++ old.filter fun c => !conns.any (sameConn c)).any (connTransit s)

/-- Up to 64 connections whose removal lets the request be routed, as the way found without them shows (R179). -/
def failureRecord (s : State) (t : Topo) (m : FabMap) (r : Req) (named conns : List Conn) (a : RouteAnswer) : List Conn :=
  let out := (m.conns.filter fun x => a.blockers.any fun q => decide (q.val = x.conn.out)).take 64
  let kept (c : Conn) : Bool := !out.any fun x => sameConn x.conn c
  if a.without.any fun w => (routingOf s t { m with conns := m.conns.filter fun x => kept x.conn } r named (conns.filter kept) w).isSome
  then out.map (·.conn) else []

/-- What the search met: that everything keeps its routes, which is enough where nothing new is to be routed; and what it answers. Where R21
assures a route, stages 1 and 2 find one, and stage 3 is not reached. -/
def metBy (ans : RouteAnswer) (sure : Bool) : List RouteCand :=
  { stage := 0, routes := [], removed := [] } :: ans.met.filter fun c => !sure || decide (c.stage.val < 2)

/-- One request against map m, with what the search met: its status and the map it makes (log entry 20). -/
def solveOne (s : State) (m : FabMap) (r : Req) (ans : RouteAnswer) : Solved × FabMap := match r.ask with
  | .words l => ({ req := r, answer := ans, status := 0 },
      { m with words := l.foldl (fun x p => sset (fun _ => none) x p.1 (some p.2)) m.words })
  | .cal e enter mode cbank none =>
    ({ req := r, answer := ans, status := 0 }, match s.fab.topo with
      | some t => { m with words := calWords t m e enter mode cbank none }
      | none => m)
  | ask =>
    let old := m.conns.map (·.conn)
    let a := askConns s r.owner ask old
    if a.status ≠ 0 then ({ req := r, answer := ans, status := a.status, index := a.index }, m)
    else match s.fab.topo with
      | none => ({ req := r, answer := ans, status := if a.conns.isEmpty then 0 else St.topologyAbsent }, { m with conns := [] })
      | some t =>
        let named := askNamed ask ++ (match ask with
          | .replace _ => old.filter fun c => decide (r.owner = 64) || decide (connOwner s c = r.owner)
          | _ => [])
        if needsHuddle s r old a.conns then ({ req := r, answer := ans, status := St.needsHuddle }, m)
        else match bestRouting (routingOf s t m r named a.conns) (metBy ans (assured s t m r named a.conns)) with
          | some x => ({ req := r, answer := ans, status := 0, failure := x.lost }, match ask with
              | .cal e enter mode cbank conn => { x.map with words := calWords t x.map e enter mode cbank conn }
              | _ => x.map)
          | none =>
            if assured s t m r named a.conns then ({ req := r, answer := ans, status := St.routeBlocked, owed := true }, m)
            else ({ req := r, answer := ans, status := St.routeBlocked, failure := failureRecord s t m r named a.conns ans }, m)

/-- The requests of a batch in acceptance order, each against the map the ones before it leave. -/
def solveAll (s : State) : FabMap → List (Req × RouteAnswer) → List Solved × FabMap
  | m, [] => ([], m)
  | m, (r, a) :: rest =>
    let (x, m') := solveOne s m r a
    let (l, m'') := solveAll s m' rest
    (x :: l, m'')

/-- The connections that the requests of a batch preempt. -/
def preemptedBy (l : List Solved) : List Conn := l.flatMap fun x => if x.status = 0 then x.failure else []

/-- A commit from map A with the answers found. -/
def makeCommit (s : State) (a : FabMap) (l : List (Req × RouteAnswer)) (t : Nat) (group : Option Nat) : Commit :=
  let (xs, b) := solveAll s a l
  { reqs := xs, group := group, time := t, mapA := a, mapB := b, gated := gatedOuts s a b,
    preempted := preemptedBy xs }

/-! ## Ports, rights and bindings (Table CS-6) -/

/-- An entry of PORT_ASSIGN takes effect. -/
def setPort (v : Nat) : Act := updFab fun f =>
  if cut v 31 31 = 1 then { f with outOwner := sset (fun _ => 64) f.outOwner (cut v 30 21) (cut v 20 14) }
  else { f with inOwner := sset (fun _ => 64) f.inOwner (cut v 30 21) (cut v 20 14) }

/-- An entry of RIGHTS_SET takes effect. -/
def setRights (v : Nat) : Act := .all [wrNat (A.tenantOf (cut v 63 58) 0) (cut v 47 32), wrNat (A.tenantOf (cut v 63 58) 1) (cut v 10 0)]

/-- An entry of SOURCE_BIND takes effect; a new binding starts with no SEQ accepted (R244). -/
def setBinding (v : Nat) : Act :=
  let n := cut v 127 120
  .all [
    wrNat (A.bindingOf n 0) (cut v 119 119 * 2 ^ 31 + cut v 118 112 * 2 ^ 24 + cut v 111 110 * 2 ^ 22 + cut v 109 109 * 2 ^ 21),
    wrPair (A.bindingOf n 1) (A.bindingOf n 2) (if cut v 111 110 = 1 then cut v 13 0 else cut v 63 0),
    clearRegs [A.bindingOf n 3],
    updHost fun h => { h with seqs := sset (fun _ => []) h.seqs n [] }]

/-- A command's changes of ports, rights or bindings take effect, and it completes. -/
def applyEdit (e : Edit) : Act := .all [
  Act.each e.entries (match e.kind with
    | 0 => setPort
    | 1 => setRights
    | 2 => setBinding),
  complete e.tag St.success]

/-- Between two batches: none is being solved, and no commit is staged, settling or awaiting its outcome (R30, Table CS-6; DEDUCED, log
entry 108). -/
def atBoundary (s : State) : Bool := s.pipe.batch.isNone && s.pipe.cur.isNone

/-- The step between two batches: the changes that wait take effect, in acceptance order. -/
def betweenBatches : Act := .whenS atBoundary (.look fun s => .all [
  Act.each s.pipe.edits applyEdit, updPipe fun p => { p with edits := [] }])

/-- A command changes ports, rights or bindings in that step. -/
def edit (tag : Nat) (kind : Fin 3) (entries : List Nat) : Act := .all [
  updPipe fun p => { p with edits := p.edits ++ [{ tag := tag, kind := kind, entries := entries }] }, betweenBatches]

/-! ## Closing a batch (R174) -/

/-- Requests that close now. A timed request's batch closes L_B before its T; untimed requests join it, or close at once where
their own commit instant would lie at least L_B + 40 us before the next timed one, taking L_B as the longest solve and staging
(DEDUCED, log entry 21). A group's changes form a batch of their own (R222). -/
def closing (s : State) : List Req :=
  let w := s.pipe.waiting
  let due (r : Req) : Bool := r.time.any fun t => dueBy s t (leadNs s)
  match w.find? due with
  | some r =>
    if (reqGroup r).isSome then [r]
    else w.filter fun x => (x.time == r.time || x.time.isNone) && (reqGroup x).isNone
  | none =>
    if w.all fun x => x.time.all fun t => decide (0 ≤ dueIn s t (2 * leadNs s + 40000)) then w.filter fun x => x.time.isNone
    else []

/-- BATCH_CLOSE: the solver is free and requests are pending (R174). -/
def execBatchClose (s : State) : Host.Outcome State Fault Refusal :=
  (Act.whenS (fun s => supvRuns s && s.pipe.batch.isNone && s.pipe.next.isNone && !(closing s).isEmpty) (.look fun s =>
    updPipe fun p => { p with batch := some (closing s), waiting := p.waiting.filter fun r => !(closing s).contains r })).next s

/-- The map that the next batch starts from: map B of the commit in progress, or the map in force (R173). -/
def baseMap (s : State) : FabMap := match s.pipe.cur with
  | some c => if c.stage = .reverting ∨ c.stage = .revArmed ∨ c.stage = .revSettling then c.mapA else c.mapB
  | none => s.fab.map

/-- T of a batch: the instant it names, or the first grid boundary at least 16 us from now (R170). -/
def batchTime (s : State) (l : List Req) : Nat := match l.findSome? (·.time) with
  | some t => t
  | none => (nowNs s + 16000 + 249) / 250

/-- A batch with what the search met for each of its requests; a request beyond the answers met nothing. -/
def answered {α : Type} (l : List α) (answers : List RouteAnswer) : List (α × RouteAnswer) :=
  (List.range l.length).filterMap fun i => (l[i]?).map fun r => (r, (answers[i]?).getD {})

/-- SOLVE_DONE: the search ends, with what it met for each request of the batch, in acceptance order. It does not end without a route
that R21 assures. -/
def execSolveDone (answers : List RouteAnswer) (s : State) : Host.Outcome State Fault Refusal :=
  (Act.whenS supvRuns (.look fun s => match s.pipe.batch with
    | none => .done
    | some l =>
      let c := makeCommit s (baseMap s) (answered l answers) (batchTime s l) (l.findSome? reqGroup)
      Act.when (c.reqs.all fun x => !x.owed) (.all [updPipe fun p => { p with batch := none, next := some c }, betweenBatches]))).next s

end Sys2Proof.Machine
end

