-- ==== Sys2Proof/Machine/Commit.lean ====
section
/-!
DEFINITION. The stages of a commit: staging, strobes, settling, outcomes and reverts (spec/07_reconfiguration.md R171-R173,
R181-R192).
-/

namespace Sys2Proof.Machine

/-! ## Engines and windows (Table CM-3) -/

/-- Engines that take part in a commit. -/
def runEngines (s : State) : List Nat := (List.range 96).filter fun e => engRuns s e && !engHalted s e && domRuns s (e / 8)

/-- An engine whose staged window can be written: neither armed nor being seeded. -/
def stagingFree (s : State) (e : Nat) : Bool := !bit s (A.engSpbank e) 2 && !bit s (A.engStat e) 24

/-- SEED, then the words of an image that differ from the current window, in every running engine (R148, R172). -/
def stageImage (ws : List (Nat × Nat × Word)) : Act := .look fun s => .all [
  Act.each (runEngines s) fun e => .all [writeSeed e, seedDone e],
  Act.each (ws.filter fun x => engSlp s (engineOf x.1) && decide (elemWord s x.1 (104 + x.2.1) ≠ x.2.2)) fun (n, k, w) =>
    setElemWord n (112 + k) w]

/-- ARM with an action in every running engine: 1 ADVANCE, 2 REVERT (Table LE-8). -/
def armEngines (act : Nat) : Act := .look fun s => Act.each (runEngines s) fun e => writeArm e true act
/-- ARM for a revert: in the running engines that showed SP_DONE at the transit strobe, or whose windows were rewritten since (Table CM-5). -/
def armRevert (act : Nat) : Act := .look fun s =>
  Act.each ((runEngines s).filter fun e => !s.pipe.cur.any fun c => c.missed.contains e) fun e => writeArm e true act
/-- ARM := 0 in every engine; a halted one, and one in reset, takes no write (R116, R378). -/
def disarmEngines : Act := .look fun s =>
  Act.each ((List.range 96).filter fun e => !engHalted s e && domRuns s (e / 8)) fun e => writeArm e false 0
/-- Strobes fall: not in the safe state, and not after a THERMTRIP (Tables FT-5, FT-7). -/
def mayStrobe (s : State) : Bool := !inSafe s && !s.thm.tripped
/-- The commit strobe falls on the lane frame that begins next. -/
def strobe : Act := updEng fun x => { x with strobe := true }

def updCur (f : Commit → Commit) : Act := updPipe fun p => { p with cur := p.cur.map f }

/-! ## Results and events -/

/-- A connection's owner as an event names it: a tenant, or 0x40. -/
def connEvent (code source out detail : Nat) (c : Conn) : Act := .look fun s =>
  pushEvent { code := code, source := source, object := out, time := nowNs s, connTag := c.tag, tenant := connOwner s c, detail := detail }

/-- The connection on an output in a map. -/
def outConn (m : FabMap) (q : Nat) : Option Routed := m.conns.find? fun r => r.conn.out == q

/-- The response of a CAL_REQUEST: 4 bytes for each element as listed (Table CS-10). -/
def jobBytes (j : CalJob) : List Byte :=
  j.elems.flatMap fun n => natLe 4 (n * 65536 + (((j.results.find? fun p => decide (p.1 = n)).map (·.2)).getD 0))

/-- A command learns how the characterisation of element e ended; one whose elements are all done is completed (Table CS-10). -/
def jobLearns (e : Nat) (tag : Option Nat) (status : Nat) : Act := .all [
  updSup fun x => { x with
    jobs := x.jobs.map fun j => if tag = some j.tag then
      { j with left := j.left.filter (· != e), results := j.results ++ [(e, status)] } else j },
  .look fun s => .all [
    Act.each (s.sup.jobs.filter fun j => j.left.isEmpty) fun j => complete j.tag St.success 0 0 (jobBytes j),
    updSup fun x => { x with jobs := x.jobs.filter fun j => !j.left.isEmpty }]]

/-- The characterisation of element e is over. -/
def calEnds (e : Nat) (tag : Option Nat) (status : Nat) : Act := .all [updSup fun x => { x with run := none }, jobLearns e tag status]

/-- A value next to v that compares as another one. -/
def nudged (v : Word) : Word := if v &&& 0x7F800000#32 = 0#32 then 0x00800000#32 else v ^^^ 1#32

/-- The Dark step begins (Table SL-5). The drive is any that SLP-1 sees as a change: HI of the bank in force, or, where the last
CAL_V was that, the middle of its range. An input VOA whose own light the step darkens is parked by CAL_V: PARK_V, or the value next to it where
the last CAL_V was that (DESIGN CHOICE, log entry 22). -/
def beginDark (r : CalRun) : Act := .look fun s =>
  let (lo, hi) := bankLimits s r.elem
  let last := elemWord s r.elem wCALVLAST
  let park := elemWord s r.elem wPARKV
  let v := if r.source.isNone && inputVoa s r.elem then (if Fp.eq last park then nudged park else park)
    else if Fp.eq last hi then Fp.mul fHalf (Fp.add lo hi) else hi
  .all [
    setElemWord r.elem wCALV v, setElemWord r.elem wCALDWELL 0x41000000#32, setElemWord r.elem wCALCNT 0x43800000#32,
    updSup fun x => { x with run := x.run.map fun y => { y with stage := .dark } },
    Act.each r.source.toList refreshFpark]

/-- Change open group id. -/
def updHGroup (id : Nat) (f : Group_ → Group_) : Act := updHdl fun h => { h with
  slots := h.slots.map fun p => (p.1, p.2.map fun g => if g.id = id then f g else g) }
/-- The open group with a number. -/
def findHGroup (s : State) (id : Nat) : Option Group_ := s.hdl.slots.findSome? fun p => p.2.bind fun g => if g.id = id then some g else none

/-- What a failed request's command wrote beside its commit returns (R248). -/
def undoWords (r : Req) : Act := .all [
  Act.each r.undo fun p => setElemWord p.1 p.2.1 p.2.2,
  Act.each r.unknown fun n => updSupN n fun y => { y with known := false },
  Act.when (!r.undo.isEmpty) countCapped]
/-- A request ends with a status, the entry that failed a check (Table CS-5 row 10) and a failure record (R253). -/
def endReq (x : Solved) (status t : Nat) : Act := .look fun s => match x.req.by_ with
  | .command tag => .seq (Act.when (decide (status ≠ 0)) (undoWords x.req)) <|
    let shown := x.failure.map fun c => if x.req.owner = 64 ∨ connOwner s c = x.req.owner then connWord c
      else connWord { inp := 0, out := 0, tenant := 0, cls := c.cls, noVerify := false, outAtten := 0, tag := 0 }
    complete tag status (if status = 0 then t % 2 ^ 32 else x.index) 0
      (if status = St.routeBlocked then shown.flatMap (natLe 8) else [])
  | .calEnter => Act.each s.sup.run.toList fun r => calEnds r.elem r.tag St.calFailed
  | .calLeave => updSup fun y => { y with run := none }
  | .group id => updHGroup id fun g => { g with fail := some status }

/-- Requests that the search failed are reported once the outcome before them is final (R173). -/
def reportFailed (c : Commit) : Act := Act.each (c.reqs.filter fun x => decide (x.status ≠ 0)) fun x => endReq x x.status c.time
/-- Every request of the batch that was not failed before ends with a status (Table CM-5). -/
def failBatch (c : Commit) (status : Nat) : Act := Act.each (c.reqs.filter fun x => decide (x.status = 0)) fun x => endReq x status c.time
/-- The commit with every request that was not failed before failed with a status. -/
def Commit.failed (c : Commit) (status : Nat) : Commit := { c with reqs := c.reqs.map fun x => if x.status = 0 then { x with status := status } else x }
/-- Every request of the commit has failed. -/
def Commit.allFailed (c : Commit) : Bool := c.reqs.all fun x => decide (x.status ≠ 0)

/-- Frames the output was dark, of an interval that lasts up to the present one (R253). -/
def darkNow (s : State) (r : ConnRes) : Nat := match r.darkFrom with
  | some f => s.tim.frames + 1 - f
  | none => r.dark

/-- A result record (Table CS-16). -/
def resWord (s : State) (r : ConnRes) : Nat :=
  r.tag * 2 ^ 48 + r.inp * 2 ^ 38 + r.out * 2 ^ 28 + r.lc.getD 0 * 2 ^ 24 + r.pending.toNat * 2 ^ 23 + r.exceeded.toNat * 2 ^ 22 +
  r.ungated.toNat * 2 ^ 21 + min (darkNow s r) 0xFFFF

/-- A report whose records all have a result is completed. -/
def closeReports : Act := .look fun s =>
  let ready := s.pipe.reports.filter fun r => r.recs.all (·.lc.isSome)
  .all [
    updPipe fun p => { p with reports := p.reports.filter fun r => !(r.recs.all (·.lc.isSome)) },
    Act.each ready fun r => complete r.tag St.success (r.time % 2 ^ 32) 0 (r.recs.flatMap fun x => natLe 8 (resWord s x))]

/-- A Line Call result of an output: kept for MAP_READ and given to the reports that wait for it (R197). -/
def giveResult (q code : Nat) : Act := .all [
  updPipe fun p => { p with
    reports := p.reports.map fun r => { r with recs := r.recs.map fun x =>
      if x.out = q ∧ x.lc = none then { x with lc := some code } else x },
    results := smod (fun _ => none) p.results q fun o => o.map fun x => { x with lc := some code } },
  closeReports]

/-- Line Call does not measure the connection (R193). -/
def unverifiable (s : State) (c : Conn) : Bool :=
  c.noVerify || (outVoa s c.out).isNone || connTransit s c || !bit s A.toneCtrl 1

/-- The result record of a connection of map B when the outcome is final at light frame `tl`: verified where it is in the gated set or
its attenuation changed (R193, R194). Its output, where a VOA gates it, was dark from frame j + 1 to the light frame and 4 more (R188), or is
dark still. -/
def newResult (s : State) (c : Commit) (tl : Nat) (r : Routed) : ConnRes :=
  let gated := c.gated.contains r.conn.out
  let gate := (outVoa s r.conn.out).isSome
  let atten := (outConn c.mapA r.conn.out).any fun x => decide (x.conn.outAtten ≠ r.conn.outAtten)
  let left := s.pipe.dark.any fun d => decide (d.out = r.conn.out)
  { tag := r.conn.tag, inp := r.conn.inp, out := r.conn.out, ungated := !gate, pending := left,
    dark := if gated && gate then tl + 4 - c.frame else 0,
    darkFrom := if left then some (c.frame + 1) else none,
    lc := if !(gated || atten) then some 0 else if unverifiable s r.conn then some 7 else if left then some 5 else none }

/-- The record of one entry of a request. The output of a removed connection is dark from frame j + 1 on, or until the connection that
the commit makes there has light. -/
def entryResult (s : State) (c : Commit) (tl : Nat) (del : Bool) (x : Conn) : ConnRes :=
  match if del then none else c.mapB.conns.find? fun r => sameConn r.conn x with
  | some r => newResult s c tl r
  | none =>
    let y : ConnRes := match outConn c.mapB x.out with
      | some r => newResult s c tl r
      | none => { tag := 0, inp := 0, out := 0, lc := none,
                  darkFrom := if c.gated.contains x.out && (outVoa s x.out).isSome then some (c.frame + 1) else none }
    { tag := x.tag, inp := x.inp, out := x.out, lc := some 0, ungated := (outVoa s x.out).isNone, dark := y.dark, darkFrom := y.darkFrom }

/-- Open the windows of a commit's outcome (R193, R194). -/
def openWindows (c : Commit) (tl : Nat) : Act := .look fun s =>
  Act.each c.mapB.conns fun r =>
    let x := newResult s c tl r
    let gated := c.gated.contains r.conn.out
    .all [
      Act.when (decide (x.lc ≠ some 0)) (updPipe fun p => { p with results := sset (fun _ => none) p.results r.conn.out (some x) }),
      Act.when x.lc.isNone (updPipe fun p => { p with
        wins := (p.wins.filter fun w => decide (w.out ≠ r.conn.out)) ++
          [{ out := r.conn.out, start := if gated then tl + 16 else c.frame + 16 }] })]

/-- What follows the success of one request. -/
def reportReq (c : Commit) (tl : Nat) (x : Solved) : Act := .look fun s => match x.req.by_ with
  | .command tag =>
    let recs := match x.req.ask with
      | .changes l => l.map fun y => entryResult s c tl y.del y.conn
      | .replace l => l.map (entryResult s c tl false)
      | _ => []
    updPipe fun p => { p with reports := p.reports ++ [{ id := x.req.id, tag := tag, time := c.time, recs := recs }] }
  | .calEnter => Act.each (s.sup.run.toList.filter fun r => decide (r.stage = .enter)) beginDark
  | .calLeave => updSup fun y => { y with run := none }
  | .group _ => .done

/-- A block ends when the connection on its output is removed or changed (R198). -/
def endBlocks (c : Commit) : Act := .look fun s =>
  let gone := s.pipe.blocked.filter fun q => decide ((outConn c.mapA q).map (·.conn) ≠ (outConn c.mapB q).map (·.conn))
  .all [updPipe fun p => { p with blocked := p.blocked.filter fun q => !gone.contains q },
    Act.each (gone.filterMap (outVoa s)) refreshFpark]

/-- The outcome of a commit within the device is final: map B is in force, A is released (R172, R190). -/
def commitFinal (tl : Nat) : Act := .look fun s => match s.pipe.cur with
  | none => .done
  | some c => .all [
    updFab fun f => { f with map := c.mapB },
    updPipe fun p => { p with cur := none, results := p.results.filter fun x => c.mapB.conns.any fun r => decide (r.conn.out = x.1) },
    openWindows c tl, endBlocks c, refreshPathsOf c.mapA, refreshPathsOf c.mapB,
    Act.each (c.reqs.filter fun x => decide (x.status = 0)) (reportReq c tl),
    closeReports, betweenBatches]

/-- The outcome of a commit of a group member is applied: B is current, A retained until the group closes (R225). -/
def commitApplied (tl : Nat) : Act := .look fun s => match s.pipe.cur with
  | none => .done
  | some c => if c.group.isNone then commitFinal tl else .all [
    updFab fun f => { f with map := c.mapB },
    updCur fun c => { c with stage := .applied },
    openWindows c tl, endBlocks c, refreshPathsOf c.mapA, refreshPathsOf c.mapB]

/-! ## Staging (R172, R191) -/

/-- An element that keeps a commit from being staged: its tile is held, or its engine is halted or in reset. -/
def elemStuck (s : State) (n : Nat) : Bool :=
  bit s (A.tileStat (tileOfElem n)) tsHoldOut || engHalted s (engineOf n) || !domRuns s (engineOf n / 8)

/-- A request uses a right that its party does not hold any more: TIMED of a timed command, HUDDLE of a group's initiator, PREEMPT of a removal
(R28, R30). -/
def rightGone (s : State) (x : Solved) : Bool :=
  let starts := (reqGroup x.req).any fun id => (findHGroup s id).any fun g => g.tag.isSome && !hasRight s g.owner rtHuddle
  let timed := (reqGroup x.req).isNone && x.req.time.isSome && !hasRight s x.req.owner rtTimed
  starts || timed || (x.failure.any fun c => !calConn s c && decide (connOwner s c ≠ x.req.owner)) && !hasRight s x.req.owner rtPreempt

/-- The second check of one request against connections `old`: status and entry. A group's changes are held against the tenants they name. -/
def checkAgain (s : State) (old : List Conn) (x : Solved) : Nat × Nat :=
  let a := askConns s x.req.owner x.req.ask old
  let p := match x.req.ask with
    | .changes l => if (reqGroup x.req).isSome then partyStatus s l else 0
    | _ => 0
  if rightGone s x then (St.rightMissing, 0) else if p ≠ 0 then (p, 0) else (a.status, a.index)

/-- The second check of R30: each request against what those before it leave. One whose ownership or rights no longer hold fails. -/
def recheckFrom (s : State) : List Conn → List Solved → List Solved
  | _, [] => []
  | old, x :: r =>
    if x.status ≠ 0 then x :: recheckFrom s old r
    else
      let st := checkAgain s old x
      let a := askConns s x.req.owner x.req.ask old
      if st.1 = St.portNotOwned ∨ st.1 = St.rightMissing then
        { x with status := st.1, index := st.2, failure := [] } :: recheckFrom s old r
      else x :: recheckFrom s (a.conns.filter fun c => !x.failure.any (sameConn c)) r

/-- A commit after the second check: without the requests that failed it, the batch is built anew from what the search meets then. -/
def recheck (s : State) (c : Commit) (again : List RouteAnswer) : Commit :=
  let xs := recheckFrom s (c.mapA.conns.map (·.conn)) c.reqs
  if xs = c.reqs then c
  else
    let d := makeCommit s c.mapA (answered ((xs.filter fun x => decide (x.status = 0)).map (·.req)) again) c.time c.group
    { d with reqs := d.reqs ++ xs.filter fun x => decide (x.status ≠ 0) }

/-- Stage and arm a solved commit. One that is later than T - 1.0 us is not staged (Table CM-2). -/
def stageCommit (c0 : Commit) (again : List RouteAnswer) : Act := .look fun s =>
  let c := recheck s c0 again
  let changed := changedElems s c.mapB c.gated
  let ok := (runEngines s).all (stagingFree s) && !(changed.any (elemStuck s))
  Act.when (c.reqs.all fun x => !x.owed) (.all [
    reportFailed c,
    if c.allFailed then .all [updPipe fun p => { p with next := none }, betweenBatches]
    else if dueIn s c.time 1000 < 0 then .all [updPipe fun p => { p with next := none }, failBatch c St.commitNotStaged, betweenBatches]
    else .all [
      updPipe fun p => { p with next := none, cur := some { c with
        stage := .armed, complete := ok, changed := changed, settle := settleSet s c.mapB } },
      Act.when ok (.all [stageImage (transitWords s c.mapB c.gated), armEngines 1])]])

/-- A commit may be armed: no group that comes before it is still open (R173, R222). -/
def mayArm (s : State) (c : Commit) : Bool := s.hdl.slots.all fun p => p.2.all fun g =>
  c.group == some g.id || !(decide (3 ≤ g.state) || (decide (g.voted = some 0) && decide (g.time < c.time)))

/-- Lane groups in low-power mode, or re-settling from it, with an element whose MODE_REQ becomes other than OFF and PARK: the mode change waits
until the group has left the mode and settled (R83). -/
def lpGroups (s : State) (c : Commit) : List Nat := match s.fab.topo with
  | none => []
  | some t => (((changedElems s c.mapB c.gated).filter fun n =>
      lpWaits s n && windowWord s t c.mapB n 1 != f0 && windowWord s t c.mapB n 1 != f1).map tileOfElem).eraseDups

/-- STAGE_COMMIT: the previous outcome is final, and the solved commit is staged and armed. `again` is what the search meets where the second
check leaves requests out. -/
def execStageCommit (again : List RouteAnswer) (s : State) : Host.Outcome State Fault Refusal :=
  (Act.whenS (fun s => supvRuns s && s.pipe.cur.isNone) (.look fun s => match s.pipe.next with
    | some c =>
      if c.allFailed then stageCommit c again
      else if !mayArm s c then .done
      else if (lpGroups s c).isEmpty then stageCommit c again
      else Act.each (lpGroups s c) leaveLp
    | none => .done)).next s

/-- A request takes its place among those that wait, in acceptance order. -/
def insertReq (r : Req) : List Req → List Req
  | [] => [r]
  | x :: l => if r.id < x.id then r :: x :: l else x :: insertReq r l

/-- The requests of batches solved against a map that does not come into force wait again, in acceptance order: those that had failed
against it as well (R173). -/
def requeue : Act := updPipe fun p =>
  let back := (p.batch.getD []) ++ (p.next.toList.flatMap fun c => c.reqs.map (·.req))
  { p with batch := none, next := none, waiting := back.foldr insertReq p.waiting }

/-- The commit in progress leaves the pipeline before its transit strobe: nothing rotates, its map B never comes into force, and its requests end
with a status. A group's member becomes NOT_APPLIED at its own check (R222, R224). -/
def dropCur (c : Commit) (status : Nat) : Act := .all [
  disarmEngines, updPipe fun p => { p with cur := none }, requeue, failBatch c status, betweenBatches]

/-- Staging of the commit in progress is not complete: not every running engine is armed, or an element whose words change is on a
held tile or in an engine that is halted or in reset (Table CM-5). -/
def stagingLacks (s : State) (c : Commit) : Bool :=
  !c.complete || c.changed.any (elemStuck s) || !((runEngines s).all fun e => bit s (A.engSpbank e) 2)

/-- STAGING_DEADLINE: at T - 1.0 us a commit that is not staged, or not completely, is disarmed everywhere (Table CM-5). The requests of one
that waits for the previous outcome learn it once that is final (R173); a group's member learns it at once. -/
def stagingDeadlineAct : Act :=
  (Act.whenS supvRuns (.all [
    .look fun s => (match s.pipe.cur with
      | some c => Act.when (c.stage = .armed && !s.pipe.stepFail && dueBy s c.time 1000 && stagingLacks s c) (dropCur c St.commitNotStaged)
      | none => .done),
    .look fun s => (match s.pipe.next with
      | some c => Act.when (dueBy s c.time 1000)
          (if s.pipe.cur.isNone || c.group.isSome then .all [
            updPipe fun p => { p with next := none }, reportFailed c, failBatch c St.commitNotStaged, betweenBatches]
          else updPipe fun p => { p with next := some (c.failed St.commitNotStaged) })
      | none => .done)]))

/-! ## Strobes and settling (R181-R190) -/

/-- Settle-set elements start a new wait for SETTLED. -/
def clearSettled (l : List Nat) : Act := updSup fun x => { x with
  elems := l.foldl (fun m n => smod (fun _ => {}) m n fun y => { y with settleT := none }) x.elems }

/-- Windows still running on outputs that a commit gates are superseded (R195); the result of an audit is an event (R199). -/
def supersede (outs : List Nat) : Act := .look fun s =>
  let l := (s.pipe.wins.filter fun w => outs.contains w.out).map (·.out)
  let told := (s.pipe.wins.filter fun w => outs.contains w.out && (w.audit || w.event)).map (·.out)
  .all [
    Act.each told fun q => Act.each (outConn s.fab.map q).toList fun r => connEvent 0xF002 2 q 6 r.conn,
    updPipe fun p => { p with wins := p.wins.filter fun w => !outs.contains w.out }, Act.each l fun q => giveResult q 6]

/-- The ECT record of a characterisation is not written: it leaves the MRAM queue, and a transaction that has begun to write it is given up
(R166; DESIGN CHOICE, log entry 80). -/
def dropCharact (n : Nat) : Act := .all [
  updNvm fun x => { x with
    queue := x.queue.filter fun t => decide (t.after ≠ .charact n),
    run := x.run.filter fun r => decide (r.txn.after ≠ .charact n),
    clear := match x.run with
      | some r => if r.txn.after = .charact n then begunSlots r else x.clear
      | none => x.clear },
  refreshBusy]

/-- A request took cells of the characterisation's path: the characterisation is aborted and counts as not run (R166); it waits again
at the end of the queue. One that has given its result and only leaves is over. -/
def calAbort : Act := .look fun s => Act.each (s.sup.run.toList.filter fun r => decide (r.stage ≠ .leave)) fun r => .all [
  updSup fun x => { x with queue := x.queue ++ [(r.elem, r.tag)], run := some { r with stage := .leave, fit := none } },
  dropCharact r.elem,
  Act.each r.source.toList refreshFpark,
  addReq .calLeave 64 (.cal r.elem false r.mode r.bank r.conn) none]

/-- A tenant's new or moved connection of a commit crosses a cell of the characterisation's path (R166). -/
def calCrossed (s : State) (c : Commit) : Bool := s.fab.topo.any fun t => s.sup.run.any fun r => r.conn.any fun x =>
  let path := (s.fab.map.conns.filter fun y => sameConn y.conn x).flatMap fun y => (routeCells t y).map (·.1)
  c.mapB.conns.any fun y => !c.mapA.conns.contains y && decide (connOwner s y.conn < 64) && (routeCells t y).any fun k => path.contains k.1

/-- The whole frames of a step: Δ / 250 ns rounded to the nearest integer, halves toward zero. -/
def stepFrames (d : Int) : Int := (if 0 ≤ d then 1 else -1) * Int.ofNat ((2 * d.natAbs + (250 * 65536000 - 1)) / (2 * 250 * 65536000))

/-- The lane frame that begins next is that of the commit instant: frame T / 250 ns (R169); a step that is due at its boundary and moves the
frame numbers disarms the commit instead (R171). -/
def atInstant (s : State) (t : Nat) : Bool := decide (netFrame s + 1 = t) && s.tim.stepPend.all fun d => decide (stepFrames d = 0)

/-- TRANSIT_STROBE: at T every armed engine takes the transit image at the next frame. An engine that holds changed elements and
cannot take it makes the commit revert (Table CM-5). -/
def transitStrobeAct : Act :=
  (Act.whenS (fun s => mayStrobe s && !s.pipe.stepFail && s.pipe.cur.any fun c => c.stage = .armed && c.complete && atInstant s c.time &&
      c.group.all fun id => (findHGroup s id).any (·.go)) (.look fun s => match s.pipe.cur with
    | none => .done
    | some c =>
      let missing := c.changed.any fun n => !(runEngines s).contains (engineOf n) || !bit s (A.engSpbank (engineOf n)) 2
      .all [
        strobe,
        updCur fun c => { c with
          frame := frameNo s, lastAt := frameNo s, settled := [], used := [],
          stage := if missing then .reverting else .settling, why := if missing then St.settleFailed else 0,
          missed := (List.range 96).filter fun e => !((runEngines s).contains e && bit s (A.engSpbank e) 2) },
        clearSettled c.settle, supersede c.gated,
        updPipe fun p => { p with dark := p.dark.filter fun d => !c.gated.contains d.out },
        Act.when (c.preempted.any (calConn s) || calCrossed s c) calAbort,
        Act.each c.preempted fun x => connEvent 0xF001 3 x.out 0 x]))

/-- A settle-set element is unlit: held with cause LANE, on a held tile, or, at the deadline, without a usable sample (R185). -/
def elemUnlit (s : State) (c : Commit) (deadline : Bool) (n : Nat) : Bool :=
  !c.settled.contains n && (bit s (A.tileStat (tileOfElem n)) tsHoldOut ||
    (elemIs s n wSTATE stHOLD && elemIs s n wCAUSE hcLANE) || (deadline && !c.used.contains n))

/-- Every element of the settle set is resolved. -/
def resolved (s : State) (c : Commit) (deadline : Bool) : Bool := c.settle.all fun n => c.settled.contains n || elemUnlit s c deadline n

/-- Gated connections of a map whose path holds an unlit element are left dark (R187): their outputs, with the settle-set elements
that they wait for. -/
def darkConns (s : State) (c : Commit) (m : FabMap) (unlit : Nat → Bool) : List DarkConn := match s.fab.topo with
  | none => []
  | some t => (m.conns.filter fun r => c.gated.contains r.conn.out && (outVoa s r.conn.out).isSome &&
        (pathElems t r).any fun n => c.settle.contains n && unlit n).map fun r =>
      { out := r.conn.out, elems := (pathElems t r).filter fun n => c.settle.contains n && !c.settled.contains n, since := c.frame }

/-- Leave connections dark: their gating VOAs are parked before the strobe, and those of the other gated outputs are not. -/
def leaveDark (c : Commit) (l : List DarkConn) : Act := .look fun s => .all [
  updPipe fun p => { p with dark := (p.dark.filter fun d => !c.gated.contains d.out) ++ l },
  Act.each (c.gated.filterMap (outVoa s)) refreshFpark]

/-- The settle set is resolved: B is staged for the light strobe, at least 4 frames later; an empty gated set takes no light strobe
(R186, R187, R190). -/
def settleEnds (deadline : Bool) : Act := .look fun s => match s.pipe.cur with
  | none => .done
  | some c =>
    if c.gated.isEmpty then commitApplied c.frame
    else
      let l := darkConns s c c.mapB (elemUnlit s c deadline)
      let at_ := if deadline then c.frame + 32
        else if c.settle.all c.settled.contains then c.lastAt + 4 else max c.lastAt s.tim.frames + 4
      .all [leaveDark c l, stageImage (mapWords s c.mapB), armEngines 1, updCur fun c => { c with stage := .light at_ }]

/-- SETTLE_RESOLVED: the last settle-set element was resolved before the deadline. -/
def settleResolvedAct : Act :=
  (Act.whenS (fun s => supvRuns s && s.pipe.cur.any fun c => c.stage = .settling && resolved s c false) (settleEnds false))

/-- SETTLE_DEADLINE: at the end of engine frame j+28 an unsettled element fails the commit, which is reverted (R186, R190). -/
def settleDeadlineAct : Act :=
  (Act.whenS (fun s => supvRuns s && s.pipe.cur.any fun c => c.stage = .settling && decide (c.frame + 28 ≤ s.tim.frames)) (.look fun s =>
    if s.pipe.cur.any fun c => resolved s c true then settleEnds true
    else updCur fun c => { c with stage := .reverting, why := St.settleFailed }))

/-- LIGHT_STROBE: map B becomes current and, for a commit within the device, A is released. -/
def lightStrobeAct : Act :=
  (Act.whenS (fun s => mayStrobe s && s.pipe.cur.any fun c => match c.stage with
      | .light a => decide (a ≤ frameNo s)
      | _ => false) (.all [strobe, .look fun s => commitApplied (frameNo s)]))

/-! ## Revert (R192, Table CM-3) -/

/-- REVERT_STAGE: X(B->A) is staged and armed; with an empty gated set a single REVERT strobe is armed instead (R190). What was armed for
the light strobe is disarmed first, so that SEED is not refused; a strobe that is still to rotate the windows comes first (R189, R202). -/
def revertStage : Act := .whenS (fun s => !s.eng.strobe) (.look fun s => match s.pipe.cur with
  | none => .done
  | some c =>
    if c.gated.isEmpty then .all [armRevert 2, updCur fun c => { c with stage := .revArmed }]
    else .all [disarmEngines, stageImage (transitWords s c.mapA c.gated), armRevert 1,
      updCur fun c => { c with stage := .revArmed, settle := settleSet s c.mapA, stagedAt := s.tim.frames }])

def execRevertStage (s : State) : Host.Outcome State Fault Refusal :=
  (Act.whenS (fun s => supvRuns s && s.pipe.cur.any fun c => c.stage = .reverting) revertStage).next s

/-- REVERT_TRANSIT_STROBE: X(B->A) becomes current, at the first boundary at least 1.0 us after it was staged (R192). -/
def execRevertTransitStrobe (s : State) : Host.Outcome State Fault Refusal :=
  (Act.whenS (fun s => mayStrobe s && s.pipe.cur.any fun c => c.stage = .revArmed && !c.gated.isEmpty && decide (c.stagedAt + 5 ≤ frameNo s)) (.look fun s => .all [
    strobe,
    (match s.pipe.cur with
      | some c => clearSettled c.settle
      | none => .done),
    updCur fun c => { c with stage := .revSettling, lastAt := frameNo s, revAt := frameNo s, resolvedAt := none, settled := [], used := [] }])).next s

/-- Frames that a revert whose light strobe falls now leaves an output dark: from the transit strobe on, or, where the output was lit again in
between, from the REVERT strobe on. -/
def revertDark (s : State) (c : Commit) (q : Nat) : Nat := frameNo s + 4 - (if c.relit.contains q then c.againAt else c.frame)

/-- Connections that the commit darkened for longer than 10 us are reported DARK_EXCEEDED (R192); one without an output VOA is not darkened. -/
def reportExceeded (c : Commit) : Act := .look fun s =>
  Act.each (c.mapA.conns.filter fun r => c.gated.contains r.conn.out && (outVoa s r.conn.out).isSome && decide (40 < revertDark s c r.conn.out))
    fun r => .all [
      connEvent 0xF005 3 r.conn.out 0 r.conn,
      updPipe fun p => { p with results := sset (fun _ => none) p.results r.conn.out (some { (newResult s c (frameNo s) r) with
        lc := some 0, exceeded := true, dark := revertDark s c r.conn.out, pending := s.pipe.dark.any fun d => decide (d.out = r.conn.out) }) }]

/-- Map A is in force again: the requests end with the reason. -/
def revertDone : Act := .look fun s => match s.pipe.cur with
  | none => .done
  | some c => .all [
    updFab fun f => { f with map := c.mapA },
    updPipe fun p => { p with cur := none },
    reportExceeded c, requeue, failBatch c c.why, closeReports, refreshPathsOf c.mapA, refreshPathsOf c.mapB, betweenBatches]

/-- At each frame: the revert's settle set is resolved (R185, R192). -/
def noteResolved : Act := .whenS (fun s => s.pipe.cur.any fun c => c.stage = .revSettling && c.resolvedAt.isNone && resolved s c false)
  (.look fun s => updCur fun c => { c with resolvedAt := some s.tim.frames })

/-- The revert light strobe is due: 4 frames after the engine frame in which the last element was resolved, and at the latest, for elements that
are not, 32 frames after the revert transit strobe (R186, R192). -/
def revertLightDue (s : State) (c : Commit) : Bool :=
  (c.resolvedAt.any fun a => decide (a + 4 ≤ frameNo s)) || decide (c.revAt + 32 ≤ frameNo s)

/-- REVERT_LIGHT_STROBE: map A becomes current again. An unsettled or unlit element leaves its connection dark (R187, R192). With an
empty gated set it is the single REVERT strobe. -/
def revertLightStrobeAct : Act :=
  (Act.whenS (fun s => mayStrobe s && s.pipe.cur.any fun c => (c.stage = .revArmed && c.gated.isEmpty) ||
      (c.stage = .revSettling && revertLightDue s c)) (.look fun s => match s.pipe.cur with
    | none => .done
    | some c =>
      let l := darkConns s c c.mapA fun n => !c.settled.contains n
      .all [
        Act.when (!c.gated.isEmpty) (.all [leaveDark c l, armRevert 1]),
        strobe, revertDone]))

/-! ## Connections left dark (R187) -/

/-- PENDING_LIGHT_RELEASE: every settle-set element of the path to output q has settled; the output reopens, and its own Line Call
window opens 16 frames later. -/
def execPendingLightRelease (q : Fin 1024) (s : State) : Host.Outcome State Fault Refusal :=
  (Act.whenS (fun s => supvRuns s && s.pipe.dark.any fun d => decide (d.out = q.val) && d.elems.all fun n => (supOf s n).settleT.isSome)
    (.look fun s => .all [
      updPipe fun p => { p with dark := p.dark.filter fun d => decide (d.out ≠ q.val) },
      Act.each (outVoa s q).toList refreshFpark,
      updPipe fun p => { p with results := smod (fun _ => none) p.results q fun o => o.map fun x =>
        { x with pending := false, dark := darkNow s x, darkFrom := none } },
      (match outConn s.fab.map q with
        | some r => .all [connEvent 0xF004 3 q 0 r.conn,
            Act.when (!unverifiable s r.conn) (updPipe fun p => { p with
              wins := (p.wins.filter fun w => decide (w.out ≠ q.val)) ++ [{ out := q, start := s.tim.frames + 16, event := true }] })]
        | none => .done)])).next s

/-! ## Other ends of a batch -/

/-- ROUTE_TIMEOUT: the search exceeds its bound; only on a table that is not of class BENES (R21, Table CM-5). The batch is discarded;
its requests learn it once the previous outcome is final (R173). -/
def execRouteTimeout (s : State) : Host.Outcome State Fault Refusal :=
  (Act.whenS (fun s => supvRuns s && s.pipe.batch.isSome && !s.fab.topo.any (·.benes)) (.look fun s =>
    let l := s.pipe.batch.getD []
    let c : Commit := {
      reqs := l.map fun r => { req := r, answer := {}, status := St.routeTimeout }, group := l.findSome? reqGroup, time := batchTime s l, mapA := baseMap s, mapB := baseMap s, gated := [] }
    if s.pipe.cur.isNone then .all [updPipe fun p => { p with batch := none }, reportFailed c, betweenBatches]
    else updPipe fun p => { p with batch := none, next := some c })).next s

/-- Requests accepted before number n that still wait for their outcome or their Line Call. -/
def openBefore (s : State) (n : Nat) : Bool :=
  (s.pipe.waiting ++ s.pipe.batch.getD [] ++ (s.pipe.next.toList.flatMap fun c => c.reqs.map (·.req)) ++
    s.pipe.cur.toList.flatMap fun c => (c.reqs.filter fun x => decide (x.status = 0)).map (·.req)).any
    (fun r => decide (r.id < n)) || s.pipe.reports.any fun r => decide (r.id < n)

/-- CONN_BARRIER_COMPLETE: the barriers whose earlier requests all have a final outcome and a completed Line Call (R175). -/
def execConnBarrierComplete (s : State) : Host.Outcome State Fault Refusal :=
  (Act.whenS supvRuns (.look fun s =>
    let ready := s.pipe.barriers.filter fun b => !openBefore s b.id
    .all [updPipe fun p => { p with barriers := p.barriers.filter fun b => !ready.contains b },
      Act.each ready fun b => complete b.tag St.success])).next s

end Sys2Proof.Machine
end

