-- ==== Sys2Proof/Machine/LineCall.lean ====
section
/-!
DEFINITION. Line Call: windows, results, blocks, audits (spec/07_reconfiguration.md R193-R199).
-/

namespace Sys2Proof.Machine

def winOf (s : State) (q : Nat) : Option LcWin := s.pipe.wins.find? fun w => w.out == q
def updWin (q : Nat) (f : LcWin → LcWin) : Act := updPipe fun p => { p with wins := p.wins.map fun w => if w.out = q then f w else w }

/-- LC_WINDOW_OPEN: the window of output q begins at its frame. -/
def execLcWindowOpen (q : Fin 1024) (s : State) : Host.Outcome State Fault Refusal :=
  (Act.whenS (fun s => supvRuns s && (winOf s q).any fun w => !w.open_ && decide (w.start ≤ s.tim.frames + 1))
    (updWin q fun w => { w with open_ := true })).next s

/-- Block an output: FPARK on its output VOA (R198). -/
def blockOut (q : Nat) : Act := .look fun s => .all [
  updPipe fun p => { p with blocked := if p.blocked.contains q then p.blocked else p.blocked ++ [q] },
  Act.each (outVoa s q).toList refreshFpark,
  Act.each (outConn s.fab.map q).toList fun r => connEvent 0xF003 2 q 0 r.conn]

/-- A window ends with a result and, for a misdelivery, the input that was found (R197). -/
def endWindow (q code named : Nat) : Act := .look fun s => .all [
  updPipe fun p => { p with wins := p.wins.filter fun w => decide (w.out ≠ q) },
  Act.when ((winOf s q).any fun w => w.audit || w.event)
    (Act.each (outConn s.fab.map q).toList fun r => connEvent 0xF002 2 q (named * 65536 + code) r.conn),
  giveResult q code,
  Act.when (decide (code = 3) || (decide (code = 4) && s.pipe.lcBlock)) (blockOut q)]

/-! ## The detector (R194), in fixed point (log entry 17) -/

/-- The Hann weight of sample n. -/
def hann (n : Nat) : Int := (Int.ofNat fxOne - fxCos (2 * fxPi * n / 16384)) / 2

/-- The samples of a window with the flagged ones filled: by the previous good one, and before any by the first. -/
def fillFrom (prev : Nat) : List (Option (BitVec 14)) → List Nat
  | [] => []
  | some c :: r => c.toNat :: fillFrom c.toNat r
  | none :: r => prev :: fillFrom prev r
def lcFill (l : List (Option (BitVec 14))) : List Nat := match l.findSome? id with
  | some c => fillFrom c.toNat l
  | none => []

/-- w * x of each sample: m0 in volts, -1/16 + n / 16,384 (R78), less DK0. -/
def lcProducts (dk0 : Word) (l : List (Option (BitVec 14))) : List Int :=
  (lcFill l).zipIdx.map fun (c, n) => hann n * ((Int.ofNat c - 1024) * 2 ^ 186 - Fp.val dk0 * 2 ^ 51) / Int.ofNat fxOne

/-- z at the frequency of FREQ x 4 MHz / 2^32 (R74): its real and imaginary parts. -/
def lcTone (freq : Nat) (l : List Int) : Int × Int :=
  l.zipIdx.foldl (fun z (x, n) =>
    let a := 2 * fxPi * (freq * n % 2 ^ 32) / 2 ^ 32
    (z.1 + x * fxCos a / Int.ofNat fxOne, z.2 - x * fxSin a / Int.ofNat fxOne)) (0, 0)

/-- What the detector finds in a window: sw, and w * x of each sample. -/
structure LcSums where
  sw : Int
  wx : List Int

def LcSums.sx (d : LcSums) : Int := d.wx.foldl (· + ·) 0

/-- The sums over the window of output q. -/
def lcSums (s : State) (q : Nat) (w : LcWin) : LcSums :=
  let dk0 := ((outVoa s q).map fun n => elemWord s n wDK0).getD 0#32
  { sw := (List.range w.samples.length).foldl (fun a n => a + hann n) 0, wx := lcProducts dk0 w.samples }

/-- M reaches LC_LIGHT_MIN. -/
def lcLit (s : State) (d : LcSums) : Bool := decide (Fp.val s.pipe.lcLightMin * d.sw ≤ d.sx * 2 ^ 149)

/-- FREQ of the plan's pilot of input p (R77). -/
def pilotFreq (s : State) (p : Nat) : Nat := ((rd s A.pilotBase).toNat + p * (rd s A.pilotStep).toNat) % 2 ^ 32

/-- |z| squared of the pilot of input p. -/
def lcPower (s : State) (d : LcSums) (p : Nat) : Int :=
  let z := lcTone (pilotFreq s p) d.wx
  z.1 * z.1 + z.2 * z.2

/-- D of a pilot with this |z| squared reaches LC_PRESENT x PILOT_DEPTH, where M is above 0: 2 |z| against the threshold times sx. -/
def lcPresent (s : State) (d : LcSums) (power : Int) : Bool :=
  let r := Fp.val s.pipe.lcPresent * Int.ofNat (fld s A.pilotDepth 7 0) * d.sx
  decide (r * r ≤ 4 * power * (10000 * 2 ^ 149) ^ 2)

/-- The strongest pilot that is present, other than that of the expected input; of two as strong, the lower input (DESIGN CHOICE, log entry
110). -/
def lcStrongest (s : State) (d : LcSums) (expected : Nat) : Option Nat :=
  ((List.range 1024).foldl (fun (b : Option (Nat × Int)) p =>
    let x := lcPower s d p
    if p = expected || !lcPresent s d x || b.any (fun y => decide (x ≤ y.2)) then b else some (p, x)) none).map (·.1)

/-- The sample of m0 of an output's VOA in this lane frame; a flagged one has no value (R194). -/
def lcSampleOf (s : State) (q : Nat) : Option (BitVec 14) := match outVoa s q with
  | some n =>
    let x := sget (fun _ => {}) s.eng.smpFill (2 * n)
    if x.missing || x.sat || x.stale then none else some x.code
  | none => none

/-- A window that covers the lane frame takes its sample. -/
def lcTake (s : State) (w : LcWin) : LcWin :=
  if !w.scanning && decide (w.start ≤ s.tim.frames ∧ s.tim.frames < w.start + 16384) then
    { w with samples := w.samples ++ [lcSampleOf s w.out] }
  else w

/-- At each lane frame the open windows sample (R194). -/
def lcSample : Act := .look fun s => updPipe fun p => { p with wins := p.wins.map (lcTake s) }

/-- LC_WINDOW_CLOSE: after 16,384 frames the window of output q ends with what the detector finds (R194-R197). A park of the output's
tile ends it at once as INCOMPLETE. -/
def execLcWindowClose (q : Fin 1024) (s : State) : Host.Outcome State Fault Refusal :=
  (Act.whenS supvRuns (.look fun s => match winOf s q with
    | none => .done
    | some w =>
      let d := lcSums s q w
      let flagged := (w.samples.filter (·.isNone)).length
      if !w.open_ || w.scanning then .done
      else if w.parked then endWindow q 5 0
      else if w.samples.length < 16384 then .done
      else if 16384 < flagged * 100 then endWindow q 5 0
      else if !lcLit s d then endWindow q 2 0
      else if (outConn s.fab.map q).any fun r => lcPresent s d (lcPower s d r.conn.inp) then endWindow q 1 0
      else if (bit s A.repStat repFrozen || !bit s A.hbmStat 31) && !w.second then
        updWin q fun w => { w with open_ := false, second := true, start := s.tim.frames + 1, samples := [] }
      else updWin q fun w => { w with scanning := true })).next s

/-- LC_ESCALATION_DONE: the scan of the 1,024 plan pilots over the same samples ends: MISDELIVERED with the strongest other pilot that
reaches the threshold, else UNIDENTIFIED (R196, R197). -/
def execLcEscalationDone (q : Fin 1024) (s : State) : Host.Outcome State Fault Refusal :=
  (Act.whenS supvRuns (.look fun s => Act.each ((winOf s q).toList.filter (·.scanning)) fun w =>
    match lcStrongest s (lcSums s q w) (((outConn s.fab.map q).map (·.conn.inp)).getD 1024) with
    | some p => endWindow q 3 p
    | none => endWindow q 4 0)).next s

/-- LC_AUDIT: every LC_AUDIT ms a window opens on every measurable connection that has none (R199). -/
def execLcAudit (s : State) : Host.Outcome State Fault Refusal :=
  (Act.whenS (fun s => supvRuns s && decide (s.pipe.lcAudit ≠ 0) && decide (s.pipe.auditAt ≤ s.clk.mono)) (.look fun s =>
    let l := s.fab.map.conns.filter fun r => !unverifiable s r.conn && (winOf s r.conn.out).isNone
    updPipe fun p => { p with
      auditAt := p.auditAt + p.lcAudit * 768000,
      wins := p.wins ++ l.map fun r => { out := r.conn.out, start := s.tim.frames + 1, audit := true, event := true } })).next s

end Sys2Proof.Machine
end

