-- ==== Sys2Proof/Machine/Cal.lean ====
section
/-!
DEFINITION. Characterisation of elements (spec/06_standard_loop.md R165-R167, spec/07_reconfiguration.md R183, R184).
-/

namespace Sys2Proof.Machine

/-- CAL_FAIL and PARK_WEAK: event records as an engine's, for one element (Table SL-7, Table GI-8). -/
def calEvent (code n : Nat) : Act := .look fun s => pushEvent {
  code := code, source := 1, object := n, time := nowNs s,
  detail := code * 2 ^ 48 + 2 ^ (loopOf n % 16) * 2 ^ 32 + loopOf n / 16 * 2 ^ 29 + frameNo s % 2 ^ 16 }

/-- The connections of the map in force whose paths hold the element, and the first of them. -/
def onPaths (s : State) (n : Nat) : List Conn := s.fab.topo.toList.flatMap fun t => (elemConns t s.fab.map n).map (·.conn)
def onPath (s : State) (n : Nat) : Option Conn := (onPaths s n).head?

/-- A characterisation of the element may be asked for: of those on a tenant's path, only a VOA element (R166). -/
def calAccepted (s : State) (n : Nat) : Bool := elemVoa s n || !((onPaths s n).any fun c => decide (connOwner s c < 64))

/-- STATE is OFF, PARK or CAL. -/
def elemIdle (s : State) (n : Nat) : Bool := elemIs s n wSTATE f0 || elemIs s n wSTATE f1 || elemIs s n wSTATE f5

/-- Bank b (0 A, 1 B) of an element may be written: neither the current nor the staged window names it, nor a retained one that a
commit could bring back (R147, class B). -/
def bankFree (s : State) (n b : Nat) : Bool :=
  let names (w : Nat) : Bool := Fp.lt (elemWord s n w) fHalf == decide (b = 0)
  !names 106 && !names 114 && !(s.pipe.cur.isSome && names 122)

/-- A characterisation that is accepted begins: its commit sets MODE_REQ 5.0 and LIGHT_EXP 1.0, and its last one gives the element its mode
setting back. A cell element on no path is
reached from the CAL source where one is designated (R166). -/
def calStart (e : Nat) (tag : Option Nat) : Act := .look fun s =>
  let conn : Option Conn := match s.pipe.calPath with
    | some (i, q) => if !elemVoa s e && (onPath s e).isNone then
        some { inp := i, out := q, tenant := 0, cls := 2, noVerify := true, outAtten := 0xFFFF, tag := 0 } else none
    | none => none
  let light := match conn, onPath s e with
    | some c, _ => portVoa s false c.inp
    | none, some c => portVoa s false c.inp
    | none, none => none
  let mode := (s.fab.topo.map fun t => settingWord t s.fab.map e 1).getD f1
  .all [
    updSup fun x => { x with
      queue := x.queue.filter fun p => decide (p.1 ≠ e),
      run := some { elem := e, tag := tag, mode := mode, bank := elemWord s e wCBANK, conn := conn,
                    source := if light = some e then none else light } },
    addReq .calEnter 64 (.cal e true f5 (elemWord s e wCBANK) conn) none]

/-- The commit that ends a characterisation: it restores MODE_REQ and names a bank (Table SL-5). -/
def calLeave (bank : Word) : Act := .look fun s => Act.each s.sup.run.toList fun r => .all [
  updSup fun x => { x with run := x.run.map fun y => { y with stage := .leave } },
  Act.each r.source.toList refreshFpark,
  addReq .calLeave 64 (.cal r.elem false r.mode bank r.conn) none]

/-- It failed: every word and the ECT keep their old values (R165). -/
def calFails : Act := .look fun s => Act.each s.sup.run.toList fun r => .all [
  calEvent 0x0208 r.elem,
  updSupN r.elem fun x => { x with calFail := true, score := 0 },
  calLeave r.bank,
  jobLearns r.elem r.tag St.calFailed]

/-- The mean of a CAL sum. -/
def calMean (s : State) (n w : Nat) : Word :=
  Fp.ofRat (Fp.neg (elemWord s n w)) (Fp.mag (elemWord s n w)) (Fp.mag (elemWord s n wCALN))

/-- CAL_V of sweep step k: 1,024 equal steps from LO to HI, both ends included (DEDUCED, log entry 23). -/
def sweepV (s : State) (n k : Nat) : Word :=
  let (lo, hi) := bankLimits s n
  let x := Fp.val lo * (1023 - Int.ofNat k) + Fp.val hi * Int.ofNat k
  Fp.ofRat (decide (x < 0)) x.natAbs (1023 * 2 ^ 149)

/-- The step's frames are all counted. -/
def calDone (s : State) (n : Nat) : Bool := Fp.le (elemWord s n wCALCNT) (elemWord s n wCALN) && Fp.eq (elemWord s n wCALV) (elemWord s n wCALVLAST)

def updRun (f : CalRun → CalRun) : Act := updSup fun x => { x with run := x.run.map f }

/-- A sweep step's result: the largest m0 - DK0, and that at the step nearest PARK_V (Table SL-5, R183). -/
def takeStep (r : CalRun) (k : Nat) : Act := .look fun s =>
  let n := r.elem
  let x := Fp.sub (calMean s n wCALS0) r.dk0
  let gap (j : Nat) : Nat := (Fp.val (sweepV s n j) - Fp.val (elemWord s n wPARKV)).natAbs
  let near := (List.range 1024).all fun j => decide (gap k ≤ gap j) && (decide (k ≤ j) || decide (gap k < gap j))
  updRun fun y => { y with best := if k = 0 then x else Fp.max y.best x, parkM := if near then x else y.parkM }

/-- CHARACTERISATION_STEP: the queue's next element begins; or a step whose frames are counted ends and the next begins. `half` is the
drive for theta = 0.5 that the fit of the sweep gives, for the Phase step of an MZI element. -/
def execCharacterisationStep (half : BitVec 32) (s : State) : Host.Outcome State Fault Refusal :=
  (Act.whenS supvRuns (.look fun s => match s.sup.run with
    | none => (match s.sup.queue with
      | [] => .done
      | (e, tag) :: _ =>
        -- one that R166 no longer accepts is not run
        if elemAssigned s e && elemSlp s e && calAccepted s e && (tag.isSome || s.pipe.calPath.isSome)
        then calStart e tag
        else .all [updSup fun x => { x with queue := x.queue.drop 1 }, Act.when tag.isSome (calEnds e tag St.calFailed)])
    | some r =>
      let n := r.elem
      if !calDone s n then .done
      else match r.stage with
        | .dark => .all [
          updRun fun y => { y with dk0 := calMean s n wCALS0, dk1 := calMean s n 75, stage := .sweep 0 },
          setElemWord n wCALCNT 0x41000000#32, setElemWord n wCALV (sweepV s n 0),
          Act.each r.source.toList refreshFpark]
        | .sweep k => .all [
          takeStep r k,
          if k < 1023 then .all [setElemWord n wCALV (sweepV s n (k + 1)), updRun fun y => { y with stage := .sweep (k + 1) }]
          else if elemVoa s n then updRun fun y => { y with stage := .record }
          else .all [setElemWord n wCALV half, setElemWord n wCALCNT 0x45800000#32, updRun fun y => { y with stage := .phase }]]
        | .phase => updRun fun y => { y with stage := .record }
        | _ => .done)).next s

/-- LOL_THR of a VOA element: a tenth of m0 - DK0 nearest PARK_V, within 0.0005 to 0.004 V (R183). -/
def lolThr (m : Word) : Word := Fp.clamp (Fp.ofRat (Fp.neg m) (Fp.mag m) (10 * 2 ^ 149)) 0x3A03126F#32 0x3B83126F#32

/-- The words of a successful characterisation (Table SL-5): each coefficient is rescaled into the inactive bank, then the class Q
words. -/
def calWrite (r : CalRun) (fit : CalFit) : Act := .look fun s =>
  let n := r.elem
  let w (k : Nat) := elemWord s n k
  let g := Fp.abs fit.gain
  let src := if Fp.lt r.bank fHalf then wBANKA else wBANKB
  let dst := if Fp.lt r.bank fHalf then wBANKB else wBANKA
  let sc := w 76
  let ss := w 77
  let norm := Fp.isqrt (Fp.mag sc * Fp.mag sc + Fp.mag ss * Fp.mag ss)
  .all [
    Act.each (List.range 3) fun k => setElemWord n (dst + k) (Fp.mulDiv (w (src + k)) (w wGNOM) g),
    setElemWord n (dst + 3) (w (src + 3)), setElemWord n (dst + 4) (w (src + 4)),
    setElemWord n wDK0 r.dk0, setElemWord n wDK1 r.dk1,
    setElemWord n wGNOM g, setElemWord n wSGN (if Fp.neg fit.gain then fMinus1 else f1), setElemWord n wRHO f1,
    if elemVoa s n then .all [setElemWord n wVREF r.best, setElemWord n wLOLTHR (lolThr r.parkM), setPilot n]
    else .all [
      setElemWord n wDMC (Fp.ofRat (Fp.neg sc) (Fp.mag sc) norm), setElemWord n wDMS (Fp.ofRat (Fp.neg ss) (Fp.mag ss) norm),
      setElemWord n wLIGAIN (Fp.ofRat false (2 * fxOne * fxOne * 2 ^ 298) (fxPi * fxPi * Fp.mag g * Fp.mag (w wTONEA)))]]

/-- The park code of a VOA element is not dark: m0 - DK0 at it exceeds VREF / 1,000 (R184). -/
def parkWeak (r : CalRun) : Bool := decide (Fp.val r.best < 1000 * Fp.val r.parkM)

/-- The words of a characterisation may be written: the element still idles, and the bank that takes them is free (R147, classes Q and B). -/
def calWritable (s : State) (r : CalRun) : Bool := elemIdle s r.elem && bankFree s r.elem (if Fp.lt r.bank fHalf then 1 else 0)

/-- The characterisation succeeds: its words are written, its command learns it, and the commit that ends it names the rescaled bank
(R165, R184). Where a commit meanwhile took the element out of CAL or named the bank, it fails (DEDUCED, log entry 118). -/
def calSucceeds : Act := .look fun s => Act.each s.sup.run.toList fun r => Act.each r.fit.toList fun fit =>
  let n := r.elem
  let voa := elemVoa s n
  if !calWritable s r then calFails
  else .all [
    calWrite r fit,
    updSupN n fun x => { x with
      known := true, charact := true, calFail := false, calDay := some (nowNs s / 86400000000000), heatUp := fit.heatUp,
      weak := if voa then (if parkWeak r then 1 else if x.weak = 1 then 1 else 0) else x.weak },
    Act.when (voa && parkWeak r) (calEvent 0x0209 n),
    calLeave (if Fp.lt r.bank fHalf then f1 else f0),
    jobLearns n r.tag 0]

/-- CHARACTERISATION_RECORD: the sweep and the Phase step are over and the fit gives its result (R165). The ECT record of an MZI
element goes to the MRAM first; its failure fails the characterisation. A fit whose gain is 0 fails it too, because the rescaled coefficients
have no value there (DESIGN CHOICE, log entry 127). -/
def execCharacterisationRecord (fit : CalFit) (s : State) : Host.Outcome State Fault Refusal :=
  (Act.whenS supvRuns (.look fun s => match s.sup.run with
    | none => .done
    | some r =>
      if r.stage ≠ .record ∨ r.fit.isSome then .done
      else if r.usable * 100 < r.counted * 95 ∨ ¬ calWritable s r ∨ (!elemVoa s r.elem && Fp.lt 0x3CA3D70A#32 fit.rms) ∨ Fp.mag (Fp.abs fit.gain) = 0 then calFails
      else if elemVoa s r.elem then .all [updRun fun y => { y with fit := some fit }, calSucceeds]
      else .all [
        updRun fun y => { y with fit := some fit },
        queueTxn {
          recs := [{ region := 7, index := r.elem,
                     payload := ((List.range 256).flatMap fun i => natLe 4 (fit.table.getD i 0#32).toNat) }],
          after := .charact r.elem }])).next s

end Sys2Proof.Machine
end

