-- ==== Sys2Proof/Machine/Sha.lean ====
section
/-!
DEFINITION. SHA-512 as FIPS 180-4 defines it, the hash that spec/15_security.md names. Words are numbers below 2^64.
-/

namespace Sys2Proof.Machine

/-- Round constants: the first 64 fractional bits of the cube roots of the first 80 primes. -/
def shaK : List Nat :=
  [0x428A2F98D728AE22, 0x7137449123EF65CD, 0xB5C0FBCFEC4D3B2F, 0xE9B5DBA58189DBBC, 0x3956C25BF348B538,
   0x59F111F1B605D019, 0x923F82A4AF194F9B, 0xAB1C5ED5DA6D8118, 0xD807AA98A3030242, 0x12835B0145706FBE,
   0x243185BE4EE4B28C, 0x550C7DC3D5FFB4E2, 0x72BE5D74F27B896F, 0x80DEB1FE3B1696B1, 0x9BDC06A725C71235,
   0xC19BF174CF692694, 0xE49B69C19EF14AD2, 0xEFBE4786384F25E3, 0x0FC19DC68B8CD5B5, 0x240CA1CC77AC9C65] ++
  [0x2DE92C6F592B0275, 0x4A7484AA6EA6E483, 0x5CB0A9DCBD41FBD4, 0x76F988DA831153B5, 0x983E5152EE66DFAB,
   0xA831C66D2DB43210, 0xB00327C898FB213F, 0xBF597FC7BEEF0EE4, 0xC6E00BF33DA88FC2, 0xD5A79147930AA725,
   0x06CA6351E003826F, 0x142929670A0E6E70, 0x27B70A8546D22FFC, 0x2E1B21385C26C926, 0x4D2C6DFC5AC42AED,
   0x53380D139D95B3DF, 0x650A73548BAF63DE, 0x766A0ABB3C77B2A8, 0x81C2C92E47EDAEE6, 0x92722C851482353B] ++
  [0xA2BFE8A14CF10364, 0xA81A664BBC423001, 0xC24B8B70D0F89791, 0xC76C51A30654BE30, 0xD192E819D6EF5218,
   0xD69906245565A910, 0xF40E35855771202A, 0x106AA07032BBD1B8, 0x19A4C116B8D2D0C8, 0x1E376C085141AB53,
   0x2748774CDF8EEB99, 0x34B0BCB5E19B48A8, 0x391C0CB3C5C95A63, 0x4ED8AA4AE3418ACB, 0x5B9CCA4F7763E373,
   0x682E6FF3D6B2B8A3, 0x748F82EE5DEFB2FC, 0x78A5636F43172F60, 0x84C87814A1F0AB72, 0x8CC702081A6439EC] ++
  [0x90BEFFFA23631E28, 0xA4506CEBDE82BDE9, 0xBEF9A3F7B2C67915, 0xC67178F2E372532B, 0xCA273ECEEA26619C,
   0xD186B8C721C0C207, 0xEADA7DD6CDE0EB1E, 0xF57D4F7FEE6ED178, 0x06F067AA72176FBA, 0x0A637DC5A2C898A6,
   0x113F9804BEF90DAE, 0x1B710B35131C471B, 0x28DB77F523047D84, 0x32CAAB7B40C72493, 0x3C9EBE0A15C9BEBC,
   0x431D67C49C100D4C, 0x4CC5D4BECB3E42B6, 0x597F299CFC657E2A, 0x5FCB6FAB3AD6FAEC, 0x6C44198C4A475817]

/-- Initial hash value: the first 64 fractional bits of the square roots of the first 8 primes. -/
def shaH : List Nat :=
  [0x6A09E667F3BCC908, 0xBB67AE8584CAA73B, 0x3C6EF372FE94F82B, 0xA54FF53A5F1D36F1, 0x510E527FADE682D1,
   0x9B05688C2B3E6C1F, 0x1F83D9ABFB41BD6B, 0x5BE0CD19137E2179]

def rotr64 (x n : Nat) : Nat := (x >>> n ||| x <<< (64 - n)) % 2 ^ 64

/-- Words 16 to 79 of the message schedule, from the last 16 words, oldest first. -/
def shaExtend : Nat → List Nat → List Nat
  | 0, _ => []
  | fuel + 1, w =>
    let x := w.getD 1 0
    let y := w.getD 14 0
    let v := (w.headD 0 + (rotr64 x 1 ^^^ rotr64 x 8 ^^^ x >>> 7) + w.getD 9 0 + (rotr64 y 19 ^^^ rotr64 y 61 ^^^ y >>> 6)) % 2 ^ 64
    v :: shaExtend fuel (w.drop 1 ++ [v])

/-- The working variables a to h. -/
structure ShaVars where
  a : Nat
  b : Nat
  c : Nat
  d : Nat
  e : Nat
  f : Nat
  g : Nat
  h : Nat

/-- One round with constant k and schedule word w. -/
def shaRound (v : ShaVars) (k w : Nat) : ShaVars :=
  let t1 := v.h + (rotr64 v.e 14 ^^^ rotr64 v.e 18 ^^^ rotr64 v.e 41) + ((v.e &&& v.f) ^^^ ((2 ^ 64 - 1 - v.e) &&& v.g)) + k + w
  let t2 := (rotr64 v.a 28 ^^^ rotr64 v.a 34 ^^^ rotr64 v.a 39) + ((v.a &&& v.b) ^^^ (v.a &&& v.c) ^^^ (v.b &&& v.c))
  { a := (t1 + t2) % 2 ^ 64, b := v.a, c := v.b, d := v.c, e := (v.d + t1) % 2 ^ 64, f := v.e, g := v.f, h := v.g }

def shaRounds : List (Nat × Nat) → ShaVars → ShaVars
  | [], v => v
  | (k, w) :: r, v => shaRounds r (shaRound v k w)

/-- A number of n bytes, most significant first. -/
def natBe (n x : Nat) : List Byte := (natLe n x).reverse

/-- The hash value after one block of 128 bytes. -/
def shaBlock (h : ShaVars) (block : List Byte) : ShaVars :=
  let w := (List.range 16).map fun i => beNat (slice block (8 * i) 8)
  let v := shaRounds (shaK.zip (w ++ shaExtend 64 w)) h
  let p (x y : Nat) : Nat := (x + y) % 2 ^ 64
  { a := p h.a v.a, b := p h.b v.b, c := p h.c v.c, d := p h.d v.d, e := p h.e v.e, f := p h.f v.f, g := p h.g v.g, h := p h.h v.h }

def shaBlocks : Nat → List Byte → ShaVars → ShaVars
  | 0, _, h => h
  | n + 1, l, h => shaBlocks n (l.drop 128) (shaBlock h (l.take 128))

/-- The 64 bytes of the SHA-512 of a message. -/
def sha512 (m : List Byte) : List Byte :=
  let p := m ++ [0x80#8]
  let q := p ++ List.replicate ((128 + 112 - p.length % 128) % 128) 0#8 ++ natBe 16 (8 * m.length)
  let i (k : Nat) : Nat := shaH.getD k 0
  let h := shaBlocks (q.length / 128) q { a := i 0, b := i 1, c := i 2, d := i 3, e := i 4, f := i 5, g := i 6, h := i 7 }
  [h.a, h.b, h.c, h.d, h.e, h.f, h.g, h.h].flatMap (natBe 8)

end Sys2Proof.Machine
end

