-- ==== Sys2Proof/Machine/Time.lean ====
section
/-!
DEFINITION. PTP, the servo, steps of network time, the frame grid and the PPS pins (spec/10_network_time.md R257-R276).
-/

namespace Sys2Proof.Machine

/-! ## Units -/

/-- Units of 2^-16 ps, in which PTP times are kept, per ns. -/
abbrev ptpNs : Int := 65536000
/-- A number of picoseconds. -/
def ptpPs (x : Int) : Int := 65536 * x
/-- A magnitude. -/
def absInt (x : Int) : Int := Int.ofNat x.natAbs
/-- A quotient rounded to nearest, halves away from zero. -/
def nearest (a : Int) (b : Nat) : Int := if 0 ≤ a then (2 * a + b) / (2 * b) else -((2 * -a + b) / (2 * b))
/-- A value in units of 0.0625 ns, as the offset and delay registers show it. -/
def ptpShow (x : Int) : Nat := unsigned 32 (nearest x 4096000)
/-- Network time in PTP units, `sub` root cycles after the last tick. -/
def ptpNow (s : State) (sub : Nat) : Int := (Int.ofNat (netNow s) * 1000 / (96 * 2 ^ 25)) + ptpPs (Int.ofNat (sub * 1000000)) / 6144

/-! ## Port modes (R262, R278) -/

/-- Port mode: 0 one MAC at 800 Gb/s, 1 two at 400, 2 eight at 100. -/
def portMode (s : State) (p : Nat) : Nat := let m := fld s (A.ethCtrl p) 5 4; if m = 3 then 0 else m
/-- D_TX and D_RX of a port mode, in ps (Table TM-2). -/
def modeDelays : Nat → Nat × Nat
  | 1 => (48900, 71600)
  | 2 => (77400, 112800)
  | _ => (41700, 63200)
/-- PP_TXCORR and PP_RXCORR follow the port mode in force. -/
def refreshDelays (p : Nat) : Act := .look fun s => .all [
  wrNat (A.ppTxcorr p) (modeDelays (portMode s p)).1, wrNat (A.ppRxcorr p) (modeDelays (portMode s p)).2]

/-! ## Ports (R260-R265) -/

def ptpOf (s : State) (p : Nat) : PtpPort := sget (fun _ => {}) s.tim.ports p
def updPtp (p : Nat) (f : PtpPort → PtpPort) : Act := updTim fun x => { x with ports := smod (fun _ => {}) x.ports p f }
/-- Port state codes of PP_STAT. -/
abbrev ppListening : Nat := 1
abbrev ppUncalibrated : Nat := 2
abbrev ppSlave : Nat := 3
abbrev ppFaulty : Nat := 5
def ppState (s : State) (p : Nat) : Nat := fld s (A.ppStat p) 31 28
def ppIsSlave (s : State) (p : Nat) : Bool := decide (ppState s p = ppSlave)
/-- MAC k has a secure channel up (R284). -/
def secureUp (s : State) (k : Nat) : Bool := bit s (A.msStat k) 1
/-- A protected frame takes the next packet number of MAC k's channel, with notice near the last (R284). -/
def takePn (k : Nat) : Act := .look fun s => .all [
  updMac k fun m => { m with txPn := m.txPn + 1 }, bump (A.msTxprot k) 31 0,
  Act.when (decide (2 ^ 64 - 2 ^ 30 ≤ (macOf s k).txPn)) (event (A.msEvt k) 3 369 255 k)]
/-- G.8275.1 is selected. -/
def ptpTelecom (s : State) : Bool := bit s A.ptpCtrl 1
/-- The port uses peer-to-peer delay measurement. -/
def ptpPeer (s : State) (p : Nat) : Bool := bit s (A.ppCtrl p) 1 && !ptpTelecom s
def ptpAsym (s : State) (p : Nat) : Int := ptpPs (rd s (A.ppAsym p)).toInt
/-- A receive and a transmit timestamp (R262, R263). -/
def rxStamp (s : State) (p sub : Nat) : Int :=
  ptpNow s sub - ptpPs (rd s (A.ppRxcorr p)).toNat + ptpPs (rd s (A.ppExtRx p)).toNat
/-- Under PROT_PTP the departure is predicted 64 ns after the frame enters the MACsec engine (R265). -/
def txStamp (s : State) (p sub : Nat) : Int :=
  ptpNow s sub + ptpPs (rd s (A.ppTxcorr p)).toNat + ptpPs (rd s (A.ppExtTx p)).toNat + if bit s A.ptpCtrl 2 then 64 * ptpNs else 0
/-- The port's message intervals in ticks of the device's time base: 2^x s, 16 a second in G.8275.1. -/
def intervalTicks (s : State) (x : Nat) : Nat :=
  let e : Int := if ptpTelecom s then -4 else max (-7) (min 7 (signed 4 x))
  if 0 ≤ e then 768000000 * 2 ^ e.toNat else 768000000 / 2 ^ (-e).toNat
def syncTicks (s : State) (p : Nat) : Nat := intervalTicks s (fld s (A.ppCtrl p) 11 8)
def reqTicks (s : State) (p : Nat) : Nat := intervalTicks s (fld s (A.ppCtrl p) 15 12)

def setPpState (p st : Nat) : Act := setFld (A.ppStat p) 31 28 st

/-- What the dataset comparison of the profile's best master algorithm orders by, the better first: the default one, and the alternate one with
localPriority, which skips the identity for a clockClass up to 127 (IEEE 1588-2019; ITU-T G.8275.1; PRESUMED, log entry 31). -/
def gmKey (s : State) (p : Nat) (g : GmData) : List Nat :=
  if ptpTelecom s then
    [g.cls.toNat, g.accuracy.toNat, g.variance.toNat, g.prio2.toNat, fld s (A.ppCtrl p) 23 16,
      if g.cls.toNat ≤ 127 then 0 else g.gm.toNat, g.steps.toNat, g.gm.toNat]
  else [g.prio1.toNat, g.cls.toNat, g.accuracy.toNat, g.variance.toNat, g.prio2.toNat, g.gm.toNat, g.steps.toNat]

/-! ## The anchor (R258) -/

/-- Re-anchor at the present tick: t stays continuous while the rate changes. -/
def reanchor (rate : Word) : Act := .look fun s => .all [
  updTim fun x => { x with nA := netNow s, anchor := s.tim.tick }, wr A.rateAdj rate]

/-- The rate within 100 ppm (R268): 219,902,325 units of 2^-41. -/
def clampRate (x : Int) : Int := max (-219902325) (min 219902325 x)
/-- The mean of the rates of the last 64 Syncs. -/
def meanRate (s : State) : Int := match s.tim.rates with
  | [] => (rd s A.rateAdj).toInt
  | l => nearest (l.foldl (· + ·) 0) l.length

/-! ## SYNC and the servo's states (R266, R267) -/

def servoState (s : State) : Nat := fld s A.ptpStat 31 28
def setServo (n : Nat) : Act := setFld A.ptpStat 31 28 n
def ptpSource (s : State) : Nat := fld s A.ptpStat 24 24

/-- PTP_STAT.SYNC follows R267, with LOCK and UNLOCK. -/
def refreshSync : Act := .look fun s =>
  let n := servoState s
  let on := (decide (n = 2) && bit s A.ptpStat 26) || (decide (n = 3 ∨ n = 4) && s.tim.heldAt.isSome)
  if on = timeSync s then .done
  else .all [putBit A.ptpStat 27 on, if on then event A.ptpEvt 1 371 else event A.ptpEvt 2 372]

/-- Enter HOLDOVER or PATH_HOLD: ρ freezes at its mean. -/
def hold (n : Nat) : Act := .look fun s => .all [
  updTim fun x => { x with heldAt := if timeSync s then some s.clk.mono else none, lockRun := 0, stepRun := 0 },
  setServo n, reanchor (BitVec.ofInt 32 (clampRate (meanRate s))), refreshSync]

/-- A step of `d` PTP units (R269): network time jumps, and the frame grid follows at the next frame boundary (R273). PPS_OUT rises at the next whole
second of the new time (R275). -/
def stepTime (d : Int) : Act := .look fun s => .all [
  updTim fun x => { x with
    nA := (Int.ofNat (netNow s) + d * (96 * 2 ^ 25) / 1000).toNat, anchor := s.tim.tick, stepRun := 0,
    stepPend := some (x.stepPend.getD 0 + d) },
  .look fun s => updTim fun x => { x with ppsSec := nowNs s / 1000000000 },
  bump A.timeStepcnt 15 0, event A.ptpEvt 0 370]

/-- The source among the ports in SLAVE (R261); a lost one is replaced by the other (R266). -/
def selectSource : Act := .look fun s =>
  let both := ppIsSlave s 0 && ppIsSlave s 1
  let best := match (ptpOf s 0).gm, (ptpOf s 1).gm with
    | some a, some b => if listLt (gmKey s 1 b) (gmKey s 0 a) then 1 else 0
    | _, _ => 0
  let want := match fld s A.ptpCtrl 5 4 with
    | 1 => 0
    | 2 => 1
    | _ => best
  let src := if both then want else if ppIsSlave s 0 then 0 else if ppIsSlave s 1 then 1 else ptpSource s
  .all [
    putBit A.ptpStat 23 both,
    Act.when (decide (src ≠ ptpSource s)) (.all [
      setFld A.ptpStat 24 24 src, reanchor (rd s A.rateAdj),
      updTim fun x => { x with first := true, lockRun := 0, stepRun := 0 }, event A.ptpEvt 4 374])]

/-- The source is lost and no port is in SLAVE: HOLDOVER. -/
def sourceLost : Act := .look fun s =>
  let n := servoState s
  Act.when (!ppIsSlave s 0 && !ppIsSlave s 1 && decide (n = 1 ∨ n = 2 ∨ n = 4)) (.all [
    updPtp (ptpSource s) fun x => { x with held := none }, hold 3, event A.ptpEvt 3 373])

/-- Port p leaves SLAVE for state st. -/
def portLeaves (p st : Nat) : Act := .look fun s => .all [
  setPpState p st, clrBit (A.ppStat p) 27, setFld (A.ppStat p) 7 0 0, clearRegs [A.ppMasterLo p, A.ppMasterHi p],
  updPtp p fun x => { nextSeq := x.nextSeq },
  Act.when (ppIsSlave s p) (.all [selectSource, sourceLost])]

/-- A port follows its enables, and its secure channel where PTP needs one (R265). -/
def refreshPort (p : Nat) : Act := .look fun s =>
  let st := ppState s p
  if !bit s A.ptpCtrl 0 || !bit s (A.ppCtrl p) 0 then Act.when (decide (st ≠ 0)) (portLeaves p 0)
  else if bit s A.ptpCtrl 2 && !secureUp s (8 * p) then Act.when (decide (st ≠ ppFaulty)) (portLeaves p ppFaulty)
  else Act.when (decide (st = 0 ∨ st = ppFaulty)) (setPpState p ppListening)

/-- The servo goes to FREERUN: EN = 0, or the TIME domain was reset. -/
def freerun : Act := .all [
  setServo 0, updTim fun x => { x with heldAt := none, lockRun := 0, stepRun := 0, rates := [] }, refreshSync]

/-- Write PTP_CTRL: EN, PROFILE, PROT_PTP and SRC_SEL act at once. -/
def writePtpCtrl (v : Word) : Act := .look fun s => .all [
  wr A.ptpCtrl (v &&& 0x377#32),
  Act.when (bit s A.ptpCtrl 0 && !v.getLsbD 0) freerun,
  refreshPort 0, refreshPort 1, selectSource]

/-- The transport and group address that the port uses: Ethernet in G.8275.1. TRANSPORT 0b11 is taken as 0b00 (DESIGN CHOICE, log entry 119). -/
def ptpTransport (s : State) (p : Nat) : PtpTransport :=
  if ptpTelecom s then .ethernet else match fld s (A.ppCtrl p) 3 2 with
    | 1 => .udp4
    | 2 => .udp6
    | _ => .ethernet
/-- Over Ethernet PP_CTRL.MCAST chooses the group; over UDP peer delay messages have the one that is not forwarded (R282; IEEE 1588-2019 Annexes
C and D). -/
def ptpDest (s : State) (p kind : Nat) : PtpDest :=
  if (if ptpTransport s p = .ethernet then bit s (A.ppCtrl p) 4 else decide (kind ≠ 1)) then .linkLocal else .forwardable

/-- The subset of Table TM-1 holds the message: no further option; the port's transport; in G.8275.1 one of its two group addresses and no
peer delay. -/
def ptpSupported (s : State) (h : PtpHead) (peer : Bool) : Bool :=
  decide (h.option = .plain) && decide (h.transport = ptpTransport s h.port) && (!ptpTelecom s || (decide (h.dest ≠ .unicast) && !peer))

/-- A message passes R260 and R265, or is dropped and counted. One of another domain is not this device's. -/
def ptpTaken (h : PtpHead) (peer : Bool) (body : Act) : Act := .whenS (fun s => domRuns s 39 && bit s A.ptpCtrl 0 && bit s (A.ppCtrl h.port) 0 &&
    bit s (A.ethStat h.port) 8) (.look fun s =>
  if !ptpSupported s h peer || (bit s A.ptpCtrl 2 && !h.secure) then bump (A.ppErrcnt h.port) 31 16
  else Act.when (decide (h.domain.toNat = fld s A.ptpDomain 7 0) && decide (ppState s h.port ≠ ppFaulty)) body)

/-- The message comes from the port's master. -/
def fromMaster (s : State) (h : PtpHead) : Bool :=
  bit s (A.ppStat h.port) 27 && decide (rdPair s (A.ppMasterLo h.port) (A.ppMasterHi h.port) = h.master.toNat)

/-! ## Announce (R261) -/

/-- PTP_ANNOUNCE_RECEIVE: the dataset replaces the port's when it comes from the selected master or is better (log entry 31). -/
def execPtpAnnounceReceive (h : PtpHead) (g : GmData) (s : State) : Host.Outcome State Fault Refusal :=
  (ptpTaken h false (.look fun s =>
    let p := h.port.val
    let take := fromMaster s h || (match (ptpOf s p).gm with
      | some old => listLt (gmKey s p g) (gmKey s p old)
      | none => true)
    .all [
      bump (A.ppRxcnt p) 31 16,
      Act.when take (.all [
        Act.when (!fromMaster s h && bit s (A.ppStat p) 27) (portLeaves p ppListening),
        updPtp p fun x => { x with gm := some g }, emit (.utcOffset p g.utcOffset),
        setBit (A.ppStat p) 27, setFld (A.ppStat p) 7 0 g.cls.toNat, wrPair (A.ppMasterLo p) (A.ppMasterHi p) h.master.toNat,
        .whenS (fun s => decide (ppState s p = ppListening)) (.all [
          setPpState p ppUncalibrated, .look fun s => updPtp p fun x => { x with syncAt := s.clk.mono, delayAt := s.clk.mono }]),
        selectSource])])).next s

/-! ## Measurements (R266-R271) -/

def meanOf (l : List Int) : Int := if l.isEmpty then 0 else nearest (l.foldl (· + ·) 0) l.length
/-- The mean path delay in use: of the last 256 exchanges, unless it is frozen. -/
def pathDelay (x : PtpPort) : Int := x.held.getD (meanOf ((x.exch.take 256).map (·.2)))
def pcWin (s : State) : Nat := max 4 (min 64 (fld s A.pcCtrl 23 16))
def pcThr (s : State) : Int := ptpNs * Int.ofNat (fld s A.pcCtrl 9 0)
/-- The mean delay of the latest PC_WIN exchanges, and the average that R270 compares it with: the 256 exchanges before them (DEDUCED from
the example of R271, log entry 32). -/
def recentDelay (s : State) (x : PtpPort) : Int := meanOf ((x.exch.take (pcWin s)).map (·.2))
def olderDelay (s : State) (x : PtpPort) : Int := x.held.getD (meanOf (((x.exch.drop (pcWin s)).take 256).map (·.2)))
def delaySteady (s : State) (x : PtpPort) : Bool :=
  decide (pcWin s < x.exch.length) && decide (absInt (recentDelay s x - olderDelay s x) ≤ pcThr s)

/-- PATH_HOLD ends: the source's new delay is accepted. -/
def acceptDelay : Act := .look fun s => .all [
  updPtp (ptpSource s) fun x => { x with exch := x.exch.take (pcWin s), held := none },
  updTim fun x => { x with heldAt := none, stepRun := 0, lockRun := 0 }, setServo 2, refreshSync]

/-- In PATH_HOLD, a second source that stayed steady throughout PC_WIN exchanges confirms or explains the new delay (R271). -/
def confirmPath : Act := .look fun s =>
  let p := ptpSource s
  let x := ptpOf s p
  let y := ptpOf s (1 - p)
  let w := pcWin s
  Act.when (decide (servoState s = 4) && decide (w ≤ s.tim.pathCount) && decide (w ≤ y.steady)) (
    let o1 := meanOf ((x.exch.take w).map (·.1)) - recentDelay s x - ptpAsym s p
    let o2 := meanOf ((y.exch.take w).map (·.1)) - pathDelay y - ptpAsym s (1 - p)
    .all [
      Act.when (decide (pcThr s < 2 * absInt (o1 - o2))) (wr (A.ppAsym p) (BitVec.ofInt 32 ((rd s (A.ppAsym p)).toInt + nearest (o1 - o2) 65536))),
      acceptDelay, clrBit A.ptpStat 25, event A.ptpEvt 6 376])

/-- A delay measurement of port p: an exchange is complete. -/
def newExchange (p : Nat) (delay : Int) : Act := .look fun s => match (ptpOf s p).raw with
  | none => .done
  | some raw =>
    let x := ptpOf s p
    let y : PtpPort := { x with exch := ((raw, delay) :: x.exch).take 320 }
    let steady := ppIsSlave s p && delaySteady s y
    let src := decide (p = ptpSource s)
    .all [
      updPtp p fun _ => { y with steady := if steady then y.steady + 1 else 0 },
      wrNat (A.ppDelay p) (ptpShow (if y.held.isSome then recentDelay s y else pathDelay y)),
      Act.when (src && decide (servoState s = 4)) (updTim fun t => { t with pathCount := t.pathCount + 1 }),
      Act.when (src && decide (servoState s = 2) && decide (pcWin s < y.exch.length) && !delaySteady s y) (.all [
        updPtp p fun z => { z with held := some (olderDelay s y) },
        wrNat (A.ppDelay p) (ptpShow (recentDelay s y)),
        updTim fun t => { t with pathAt := s.clk.mono, pathCount := 0, pathPort := p },
        hold 4, setBit A.ptpStat 25, event A.ptpEvt 5 375]),
      confirmPath]

/-- The servo takes a measured offset of the source (Table TM-3, R268, R269). -/
def servoMeasure (off : Int) (v : Servo) : Act := .look fun s =>
  let n := servoState s
  let beyond := decide (ptpNs * Int.ofNat (rd s A.stepThr).toNat < absInt off)
  let within_ := decide (2 * absInt v.filtered.toInt < 32 * Int.ofNat (fld s A.syncThr 9 0))
  let small := decide (absInt off ≤ ptpNs * Int.ofNat (fld s A.syncThr 9 0))
  let n' := if n = 0 then 1 else if n = 3 then (if small then 2 else 1) else n
  let first := s.tim.first || decide (n = 0) || decide (n' = 1 ∧ n = 3)
  let lockRun := if n' = 1 && within_ then s.tim.lockRun + 1 else 0
  let stepRun := if n' = 2 && beyond then s.tim.stepRun + 1 else 0
  let rate := clampRate v.rate.toInt
  .all [
    wr A.offset v.filtered,
    Act.when (decide (n ≠ n')) (.all [setServo n', updTim fun x => { x with heldAt := none }]),
    Act.when (decide (n' = 1 ∨ n' = 2)) (.all [
      updTim fun x => { x with first := false, lockRun := lockRun, stepRun := stepRun, rates := (rate :: x.rates).take 64 },
      if beyond && (first || decide (16 ≤ stepRun)) then stepTime (-off) else reanchor (BitVec.ofInt 32 rate),
      Act.when (decide (n' = 1) && decide (16 ≤ lockRun)) (.all [setServo 2, updTim fun x => { x with lockRun := 0 }])]),
    refreshSync]

/-- A Sync's t2 - t1 - correction is known: the port's offset, where its delay is, and the servo's turn if it is the source. -/
def newSync (p : Nat) (raw : Int) (v : Servo) : Act := .all [
  .look fun s => updPtp p fun x => { x with raw := some raw, syncAt := s.clk.mono },
  .look fun s =>
    let x := ptpOf s p
    Act.when (!x.exch.isEmpty) (
      let off := raw - pathDelay x - ptpAsym s p
      .all [
        wrNat (A.ppOffset p) (ptpShow off),
        Act.when (decide (ppState s p = ppUncalibrated)) (.all [setPpState p ppSlave, selectSource]),
        .whenS (fun s => decide (p = ptpSource s)) (servoMeasure off v)])]

/-- PTP_SYNC_RECEIVE (R262, R266). -/
def execPtpSyncReceive (h : PtpHead) (b : SyncBody) (v : Servo) (s : State) : Host.Outcome State Fault Refusal :=
  (ptpTaken h false (.whenS (fun s => fromMaster s h) (.look fun s =>
    let p := h.port.val
    let t2 := rxStamp s p h.sub - 1000 * h.corr
    match b with
    | .oneStep t1 => .all [bump (A.ppRxcnt p) 15 0, newSync p (t2 - ptpNs * Int.ofNat t1) v]
    | .twoStep => .all [bump (A.ppRxcnt p) 15 0, updPtp p fun x => { x with pending := some (h.seq, t2) }]
    | .followUp t1 => match (ptpOf s p).pending with
      | some (q, t) => Act.when (decide (q = h.seq)) (.all [
          updPtp p fun x => { x with pending := none }, newSync p (t - ptpNs * Int.ofNat t1 - 1000 * h.corr) v])
      | none => .done))).next s

/-- PTP_DELAY_RESP_RECEIVE: the answer to the latest request gives the mean path delay of this exchange (R266). -/
def execPtpDelayRespReceive (h : PtpHead) (b : DelayBody) (s : State) : Host.Outcome State Fault Refusal :=
  (ptpTaken h (decide (b = .pdelayResp)) (.look fun s =>
    let p := h.port.val
    let x := ptpOf s p
    match x.req with
    | none => .done
    | some (q, t3) => Act.when (decide (q = h.seq) && decide (2 ≤ ppState s p)) (.all [
        updPtp p fun x => { x with req := none, delayAt := s.clk.mono },
        match b with
        | .delayResp t4 => Act.when (!ptpPeer s p && fromMaster s h) (match x.raw with
          | some raw => newExchange p ((raw + ptpNs * Int.ofNat t4 - 1000 * h.corr - t3) / 2)
          | none => .done)
        | .pdelayResp => Act.when (ptpPeer s p) (newExchange p ((rxStamp s p h.sub - t3 - 1000 * h.corr) / 2))]))).next s

/-- PTP_RECEIPT_TIMEOUT: no Sync, or no delay response, for three of its intervals (R266). -/
def execPtpReceiptTimeout (p : Fin 2) (s : State) : Host.Outcome State Fault Refusal :=
  (Act.whenS (fun s => decide (ppState s p = ppUncalibrated ∨ ppState s p = ppSlave) &&
      (decide (3 * syncTicks s p ≤ s.clk.mono - (ptpOf s p).syncAt) || decide (3 * reqTicks s p ≤ s.clk.mono - (ptpOf s p).delayAt))) (.all [
    bump (A.ppErrcnt p) 15 0, portLeaves p ppListening])).next s

/-- PATH_HOLD_TIMEOUT: the new delay is accepted without correction; PATH_CHANGE stays (R271). -/
def execPathHoldTimeout (s : State) : Host.Outcome State Fault Refusal :=
  (Act.whenS (fun s => decide (servoState s = 4) && decide (768000000 * fld s A.pcCtrl 31 24 ≤ s.clk.mono - s.tim.pathAt)) (.all [
    acceptDelay, event A.ptpEvt 7 377])).next s

/-- HOLDOVER_SYNC_EXPIRY: HO_SYNC seconds after the entry the device is no longer synchronised (R267). -/
def execHoldoverSyncExpiry (s : State) : Host.Outcome State Fault Refusal :=
  (Act.whenS (fun s => s.tim.heldAt.any fun t => decide (768000000 * fld s A.hoSync 6 0 ≤ s.clk.mono - t)) (.all [
    updTim fun x => { x with heldAt := none }, refreshSync])).next s

/-- TICK_REANCHOR: TICK - A reaches 2^46 (R258). -/
def execTickReanchor (s : State) : Host.Outcome State Fault Refusal :=
  (Act.whenS (fun s => decide (2 ^ 46 ≤ (s.tim.tick + 2 ^ 48 - s.tim.anchor) % 2 ^ 48)) (.look fun s => reanchor (rd s A.rateAdj))).next s

/-- Write PP_ASYM by the operator (R271): the source's PATH_HOLD ends, and PATH_CHANGE of that port clears. -/
def timeAsym (p : Nat) (v : Word) : Act := .look fun s => .all [
  wr (A.ppAsym p) v,
  Act.when (decide (servoState s = 4) && decide (p = ptpSource s)) acceptDelay,
  Act.when (bit s A.ptpStat 25 && decide (p = s.tim.pathPort)) (clrBit A.ptpStat 25)]

/-! ## Steps at the frame boundary (R171, R269, R273) -/

/-- An armed commit ends with COMMIT_TIME_STEP (R171). -/
def dropArmed : Act := .look fun s => match s.pipe.cur with
  | some c => Act.when (c.stage = .armed) (dropCur c St.commitTimeStep)
  | none => .done

/-- Armed time triggers are disarmed, with TRIG_LOST. -/
def dropTriggers : Act := .look fun s =>
  let l := (List.range 12).filter fun t => (groupOf s t).timeTrig.isSome
  .all [Act.each l fun t => updGroup t fun g => { g with timeTrig := none }, Act.when (!l.isEmpty) (event A.ptpEvt 9 379)]

/-- A pending step acts: frame numbers jump by whole frames; the rest shows in the phase error, and trimming removes it. -/
def applyStep : Act := .look fun s => match s.tim.stepPend with
  | none => .done
  | some d =>
    let n := stepFrames d
    .all [
      updTim fun x => { x with stepPend := none, frameOfs := x.frameOfs + n },
      Act.when (decide (n ≠ 0)) (updNet fun x => { x with subs := x.subs.map fun y => (y.1, y.2.map fun u => { u with
        last := u.last.map fun l => ((Int.ofNat l.1 + n).toNat, l.2),
        slices := u.slices.map fun z => (z.1, { z.2 with step := true }) }) }),
      Act.when (decide (n ≠ 0)) dropArmed,
      dropTriggers]

/-- A commit armed when the TIME domain was lost ends at the next frame boundary (Table CK-3). -/
def applyTimeLoss : Act := .whenS (fun s => s.pipe.stepFail) (.all [updPipe fun p => { p with stepFail := false }, dropArmed])

/-- The phase error of the frame that begins, in thousandths of a root cycle: its start against t = N × 250 ns + LANE_OFS (R272). -/
def framePhase (s : State) (sub : Nat) : Int :=
  (ptpNow s sub - 250 * ptpNs * Int.ofNat (netFrame s)) * 3 / 32000 - 1000 * signed 11 (fld s A.laneOfs 10 0)

/-- The frame before has run its root cycles (R34). -/
def frameOver (s : State) (sub : Nat) : Bool := decide (s.lane.frameDue ≤ 8 * s.clk.mono + sub)

/-- LANE_FRAME_START: a pending step acts first; the frame's phase error then decides SYNC (R267, R272). With the frame's samples the Line
Call windows, the settle set of a revert, the forced scores and the capped pilots follow (R167, R185, R194, R399). -/
def laneFrameStartAct (sub : Nat) (samples : List RawSample) : Act := .look fun a =>
  .all [.whenS schedulerRuns (.all [applyTimeLoss, applyStep]), laneFrame (fun s => framePhase s sub) samples,
    .whenS schedulerRuns (.look fun b => updLane fun x => { x with
      frameDue := 8 * a.clk.mono + sub + (1536 + (b.eng.trim - a.eng.trim)).toNat }),
    .whenS (fun s => schedulerRuns s && supvRuns s) (.all [lcSample, noteResolved, noteForced, countCapped]), refreshSync]

/-! ## Pins (R275, R276) -/

/-- PPS_OUT_PULSE: t reached a whole second; squelched while SYNC = 0. -/
def execPpsOutPulse (s : State) : Host.Outcome State Fault Refusal :=
  (Act.whenS (fun s => domRuns s 39 && decide (s.tim.ppsSec < nowNs s / 1000000000)) (.look fun s => .all [
    updTim fun x => { x with ppsSec := nowNs s / 1000000000 },
    Act.when (timeSync s || !bit s A.ptpCtrl 6) (.all [updTim fun x => { x with ppsHigh := true, ppsAt := s.clk.mono }, emit (.pps true)])])).next s

/-- PPS_OUT_PULSE_END: PPS_WIDTH µs after the rise, a pulse already begun completes. The width is counted in ticks of 1/768 µs, so that a step does
not change it (DESIGN CHOICE, log entry 99). -/
def execPpsOutPulseEnd (s : State) : Host.Outcome State Fault Refusal :=
  (Act.whenS (fun s => s.tim.ppsHigh && decide (s.tim.ppsAt + 768 * fld s A.ppsCtrl 19 0 ≤ s.clk.mono)) (.all [
    updTim fun x => { x with ppsHigh := false }, emit (.pps false)])).next s

/-- PPS_IN_EDGE: the edge's time, less PPS_IN_DLY (R276). -/
def execPpsInEdge (sub : Fin 8) (s : State) : Host.Outcome State Fault Refusal :=
  (Act.whenS (fun s => domRuns s 39 && decide (fld s A.ptpCtrl 9 8 = 1)) (.look fun s => .all [
    wrPair A.ppsInTsLo A.ppsInTsHi (unsigned 64 (ptpNow s sub / ptpNs - (rd s A.ppsInDly).toInt)),
    updTim fun x => { x with ppsInAt := some s.clk.mono, ppsMissed := false }])).next s

/-- PPS_IN_MISS: no edge follows within 1.1 s; reported once until edges resume. -/
def execPpsInMiss (s : State) : Host.Outcome State Fault Refusal :=
  (Act.whenS (fun s => decide (fld s A.ptpCtrl 9 8 = 1) && !s.tim.ppsMissed && s.tim.ppsInAt.any fun t => decide (844800000 ≤ s.clk.mono - t)) (.all [
    updTim fun x => { x with ppsMissed := true }, event A.ptpEvt 8 378])).next s

/-- PTP_CTRL.CNT_CLR clears the PTP counters (R280). -/
def clearPtpCounters : Act := .all [
  clearRegs [A.timeStepcnt, A.ppRxcnt 0, A.ppRxcnt 1, A.ppErrcnt 0, A.ppErrcnt 1],
  Act.upto 16 fun k => clearRegs [A.gateMacOf k 2, A.gateMacOf k 3]]
def execPtpCntClr (s : State) : Host.Outcome State Fault Refusal := (hostWriteFld A.ptpCtrl 7 7 1 clearPtpCounters).next s

end Sys2Proof.Machine
end

