-- ==== Sys2Proof/Machine/Net.lean ====
section
/-!
DEFINITION. Egress queues, gates, token buckets and fair queuing of the Ethernet MACs (spec/10_network_time.md R277-R279,
spec/11_telemetry_traffic.md R281, R282, R295-R298).
-/

namespace Sys2Proof.Machine

/-! ## MACs (R278, R281) -/

def macsOf (s : State) (p : Nat) : Nat := [1, 2, 8].getD (portMode s p) 1
/-- Rate of a MAC in Gb/s. -/
def macRate (s : State) (k : Nat) : Nat := [800, 400, 100].getD (portMode s (k / 8)) 800
/-- MAC k is up. -/
def macUp (s : State) (k : Nat) : Bool := bit s (A.ethStat (k / 8)) (8 + k % 8)
/-- Own addresses. -/
def macAddr (s : State) (k : Nat) : Nat := rdPair s (A.macAddrLo k) (A.macAddrHi k) % 2 ^ 48
def nextHopMac (s : State) (k : Nat) : Nat := rdPair s (A.nhMacLo k) (A.nhMacHi k) % 2 ^ 48
def ipv6Of (s : State) (k : Nat) : Nat := (List.range 4).foldl (fun x i => x + (rd s (A.ipv6 k i)).toNat * 2 ^ (32 * i)) 0
/-- MACsec protects what MAC k sends on its controlled port (Table TT-11). -/
def macProtects (s : State) (k : Nat) : Bool := bit s (A.msCtrl k) 0 && bit s (A.msCtrl k) 1
/-- Time of the device's own time base, in units of 1/12 ps. -/
def fineNow (s : State) : Nat := s.clk.mono * 15625
/-- Units of 1/12 ps that n bits take on MAC k. -/
def bitTime (s : State) (k n : Nat) : Nat := 12000 * n / macRate s k

/-- MAC frames of the uncontrolled port that this device sends are ARP, Neighbor Discovery and MKA, and PTP while PROT_PTP = 0 (Table TT-1). -/
def NetBody.control : NetBody → Bool
  | .udp .. => false
  | .ptp m => !m.secured
  | _ => true
/-- The frame goes through MACsec: what MAC k protects, and PTP under PROT_PTP (R265). -/
def shielded (s : State) (k : Nat) (f : NetFrame) : Bool := match f.body with
  | .ptp m => m.secured
  | b => macProtects s k && !b.control
/-- Bytes on the wire: SecTAG and ICV where the frame is protected, preamble and gap (R279). -/
def wireBytes (s : State) (k : Nat) (f : NetFrame) : Nat := f.bytes + (if shielded s k f then 32 else 0) + 20
/-- Transmission time in ns, rounded up. -/
def txNs (s : State) (k : Nat) (f : NetFrame) : Nat := (wireBytes s k f * 8 + macRate s k - 1) / macRate s k

/-! ## Gates (R278, R279) -/

/-- Entries of list l of MAC k over one cycle: cut at the cycle's end, or the last held to it. -/
def gateEntries (s : State) (k l : Nat) : List (Nat × Nat) :=
  let cycle := fld s (A.gclOf k l 1) 29 0
  let n := min 256 (fld s (A.gclOf k l 0) 8 0)
  let step (acc : List (Nat × Nat) × Nat) (j : Nat) : List (Nat × Nat) × Nat :=
    let d := min (fld s (A.gclOf k l (9 + 2 * j)) 29 0) (cycle - acc.2)
    let d := if j + 1 = n then cycle - acc.2 else d
    if d = 0 then acc else (acc.1 ++ [(fld s (A.gclOf k l (8 + 2 * j)) 7 0, d)], acc.2 + d)
  ((List.range n).foldl step ([], 0)).1

/-- MAC k's gates follow its operational list: GATE_EN and a valid list. -/
def gated (s : State) (k : Nat) : Bool := bit s (A.gateMacOf k 0) 0 && bit s (A.gateMacOf k 1) 0

/-- Entry of a list of one cycle at an offset into it, and where that entry ends. -/
def entryAt : List (Nat × Nat) → Nat → Nat → Nat → Nat × Nat
  | [], i, _, e => (i, e)
  | (_, d) :: r, i, pos, e => if pos < e + d ∨ r.isEmpty then (i, e + d) else entryAt r (i + 1) pos (e + d)

/-- The entry in force at time t and its end, both cut at a pending change. In the last cycle before a change that falls within the cycle time
extension, the last entry runs on to the change. -/
def gateAt (s : State) (k t : Nat) : Nat × Nat :=
  let l := gateEntries s k 1
  let base := rdPair s (A.gclOf k 1 3) (A.gclOf k 1 4)
  let cycle := max 1 (fld s (A.gclOf k 1 1) 29 0)
  let cs := t - (t - base) % cycle
  let ext := fld s (A.gclOf k 1 2) 29 0
  let change := (macOf s k).changeAt
  let extended := decide (base < cs) && change.any fun c => decide (t < c ∧ c ≤ cs + ext)
  let (j, e) := if extended then (l.length - 1, change.getD 0) else
    let (j, e) := entryAt l 0 (t - cs) 0
    (j, cs + e)
  (j, match change with
    | some c => if t < c then min e c else e
    | none => e)

/-- Length of the window of class c that is open at t, up to the pending change; none where it never closes. Without an operational list every
gate is open until the change. -/
def windowRest (s : State) (k c t : Nat) : Option Nat :=
  if !bit s (A.gateMacOf k 0) 0 then none
  else if !gated s k then (macOf s k).changeAt.map fun x => x - t
  else
    let l := gateEntries s k 1
    let (j, e) := (macOf s k).gate.getD (gateAt s k t)
    let open_ (x : Nat × Nat) : Bool := x.1.testBit c
    let next := l.drop (j + 1) ++ l.take (j + 1)
    let run := next.takeWhile open_
    let stop := match (macOf s k).changeAt with
      | some x => some (x - t)
      | none => none
    if !((l[j]?).any open_) then some 0
    else
      let len := (e - t) + run.foldl (fun x y => x + y.2) 0
      if run.length = next.length then stop else some (match stop with
        | some x => min len x
        | none => len)

/-- Longest window of a class over a list; none where the class is open throughout. -/
def longestOf (l : List (Nat × Nat)) (c : Nat) : Option Nat :=
  let open_ (x : Nat × Nat) : Bool := x.1.testBit c
  if l.all open_ then none
  else some (((List.range l.length).map fun j => ((l.drop j ++ l.take j).takeWhile open_).foldl (fun x y => x + y.2) 0).foldl max 0)

/-- Longest window of class c over the operational list and a pending one; none where there is no limit. Without an operational list the pending
one alone counts (DESIGN CHOICE, log entry 33). -/
def longestWindow (s : State) (k c : Nat) : Option Nat :=
  let lists := (if gated s k then [1] else []) ++ if bit s (A.gateMacOf k 0) 1 then [2] else []
  if !bit s (A.gateMacOf k 0) 0 ∨ lists = [] then none
  else lists.foldl (fun a l => match a, longestOf (gateEntries s k l) c with
    | some a, some b => some (max a b)
    | _, _ => none) (some 0)

/-- A frame fits no window of class c. -/
def oversize (s : State) (k c : Nat) (f : NetFrame) : Bool := (longestWindow s k c).any fun w => decide (w < txNs s k f)

/-! ## Queues (R295) -/

abbrev qPtp : Nat := 0
abbrev qTunnel : Nat := 1
abbrev qResponse : Nat := 2
abbrev qControl : Nat := 3
/-- Key of internal queue i of MAC k. -/
abbrev internalQ (k i : Nat) : Nat := 2048 + 4 * k + i
/-- MAC, class and weight of the queue with a key. -/
def queueMac (s : State) (q : Nat) : Nat := if q < 2048 then 8 * (q / 1024) + fld s (A.queueOf q 0) 27 25 else (q - 2048) / 4
def queueClass (s : State) (q : Nat) : Nat :=
  if q < 2048 then fld s (A.queueOf q 0) 24 22 else [7, 6, 5, 5].getD ((q - 2048) % 4) 5
def queueWeight (s : State) (q : Nat) : Nat := if q < 2048 then max 1 (fld s (A.queueOf q 0) 15 0) else 65535
/-- Queues that hold frames. -/
def busyQueues (s : State) (k : Nat) : List Nat :=
  (s.net.queues.filter fun x => !x.2.frames.isEmpty && decide (queueMac s x.1 = k)).map (·.1)

/-! ## Buffers (R286, R294) -/

/-- Frames of port p's egress queues, with the key of each. -/
def portFrames (s : State) (p : Nat) : List NetFrame :=
  (s.net.queues.filter fun x => decide (queueMac s x.1 / 8 = p)).flatMap fun x => x.2.frames
def sumBytes (l : List NetFrame) : Nat := l.foldl (fun x f => x + f.bytes) 0
/-- A lossless priority of MAC k (R285). -/
def lossless (s : State) (k p : Nat) : Bool := bit s (A.macCtrl k) (16 + p)
/-- Received bytes that wait in MAC k on a priority. -/
def rxHeld (s : State) (k p : Nat) : Nat := ((macOf s k).rx.filter fun x => decide (x.1 = p)).foldl (fun a x => a + x.2) 0
/-- Bytes in the shared part of port p's buffer: lossy ingress and egress. -/
def sharedUse (s : State) (p : Nat) : Nat :=
  sumBytes ((portFrames s p).filter fun f => !f.spilled) +
    ((List.range 8).foldl (fun a m => a + ((List.range 8).filter fun i => !lossless s (8 * p + m) i).foldl (fun b i => b + rxHeld s (8 * p + m) i) 0) 0)
abbrev sharedSize : Nat := 6085760
/-- Bytes of port p in its overflow area of the HBM. -/
def overflowUse (s : State) (p : Nat) : Nat := sumBytes ((portFrames s p).filter fun f => f.spilled)
abbrev overflowSize : Nat := 0x80000000
/-- ETH_BUF and ETH_HBMOVF follow the buffers. -/
def showBuffers (p : Nat) : Act := .look fun s =>
  let k := (sharedUse s p + 1023) / 1024
  .all [setFld (A.ethBuf p) 15 0 k, setFld (A.ethBuf p) 31 16 (max k (fld s (A.ethBuf p) 31 16)),
    wrNat (A.ethHbmovf p) ((overflowUse s p + 4095) / 4096)]

/-! ## Queueing (R277, R279, R294, R297) -/

def vTime (s : State) (k c : Nat) : Nat := sget (fun _ => 0) (macOf s k).vt c
/-- The head of queue q takes its tags; `wasEmpty` says that it arrived in an empty queue. -/
def tagHead (q : Nat) (wasEmpty : Bool) : Act := .look fun s => match (egQueue s q).frames.head? with
  | none => .done
  | some f => updEg q fun x =>
      let st := if wasEmpty then vTime s (queueMac s q) (queueClass s q) else x.finish
      { x with start := st, finish := st + f.bytes * 65536 / queueWeight s q }

/-- Append a frame to queue q. -/
def pushFrame (q : Nat) (f : NetFrame) : Act := .look fun s => .all [
  updEg q fun x => { x with frames := x.frames ++ [{ f with at_ := s.clk.mono }] },
  Act.when (egQueue s q).frames.isEmpty (tagHead q true),
  showBuffers (queueMac s q / 8)]

/-- A frame of queue q is dropped whole: its records are lost. -/
def dropFrame (f : NetFrame) : Act := loseTele [f]

/-- A packet for telemetry queue q: above 256 KiB it goes through the overflow area, in order; where that is full, or without HBM, it is
dropped (R294, R308). -/
def enqueueTele (q : Nat) (f : NetFrame) : Act := .look fun s =>
  let p := q / 1024
  let l := (egQueue s q).frames
  let spill := l.any (·.spilled) || decide (262144 < sumBytes (l.filter fun x => !x.spilled)) || decide (sharedSize < sharedUse s p + f.bytes)
  if spill && (!bit s A.hbmStat 31 || decide (overflowSize < overflowUse s p + f.bytes)) then .all [
    dropFrame f, bump A.tlmGapcnt 31 0, bump (A.queueOf q 6) 31 0, event A.tshEvt 3 383,
    Act.when (bit s A.hbmStat 31) (.all [event A.tshEvt 2 382, event (A.ethEvt p) 2 (358 + 5 * p)])]
  else pushFrame q { f with spilled := spill }

/-- Queue a frame at MAC k's queue q (R277, R279): too far ahead or oversize for its class, it is dropped and counted. -/
def enqueue (q : Nat) (f : NetFrame) : Act := .look fun s =>
  let k := queueMac s q
  if f.launch.any fun t => decide (schedNow s + 172800000000000 < t) then .all [bump (A.gateMacOf k 3) 15 0, dropFrame f]
  else if oversize s k (queueClass s q) f then .all [bump (A.gateMacOf k 2) 31 0, dropFrame f]
  else if q < 2048 then enqueueTele q f else pushFrame q f

/-! ## Frames of the device's own traffic (R282) -/

/-- Bytes of a UDP datagram's frame: Ethernet and IP headers, UDP header, FCS, and the VLAN tag (R293). -/
def udpBytes (v6 : Bool) (tag payload : Nat) : Nat := max 64 (14 + (if v6 then 40 else 20) + 8 + payload + 4) + if tag % 4096 = 0 then 0 else 4
/-- A UDP datagram of the device on MAC k. -/
def udpFrame (s : State) (k tag : Nat) (v6 : Bool) (ip sport dport : Nat) (l : List Byte) : NetFrame :=
  { dst := nextHopMac s k, tag := tag, body := .udp v6 ip sport dport l, bytes := udpBytes v6 tag l.length }
/-- A frame of an internal queue with the TAG for device traffic. -/
def sendOwn (k i : Nat) (v6 : Bool) (ip sport dport : Nat) (l : List Byte) : Act := .look fun s =>
  enqueue (internalQ k i) (udpFrame s k (fld s (A.devTag k) 15 0) v6 ip sport dport l)
/-- A control frame: ARP reply, Neighbor Advertisement, MKA. -/
def sendControl (k dst : Nat) (b : NetBody) (bytes : Nat) : Act := .look fun s =>
  let tag := fld s (A.devTag k) 15 0
  enqueue (internalQ k qControl) { dst := dst, tag := tag, body := b, bytes := bytes + if tag % 4096 = 0 then 0 else 4 }

/-! ## Token buckets (R298) -/

/-- Tokens of telemetry queue q now, in 1/6,144 byte. -/
def tokensNow (s : State) (q : Nat) : Int :=
  let x := egQueue s q
  let burst : Int := 6144 * Int.ofNat (fld s (A.queueOf q 4) 20 0)
  let rate := fld s (A.queueOf q 3) 19 0
  if rate = 0 then burst else min burst (x.tok + Int.ofNat (rate * (s.clk.mono - x.tokAt)))
/-- Take tokens up to now, after `f`. -/
def setTokens (q : Nat) (t : Int) : Act := .look fun s => updEg q fun x => { x with tok := t, tokAt := s.clk.mono }

/-- Q_APPLY: rate and burst together; a debt stays, positive tokens are clipped. -/
def queueApply (q : Nat) : Act := .look fun s =>
  let t := tokensNow s q
  let burst : Int := 6144 * Int.ofNat (fld s (A.queueOf q 2) 20 0)
  .all [setTokens q (min t burst), wr (A.queueOf q 3) (rd s (A.queueOf q 1)), wr (A.queueOf q 4) (rd s (A.queueOf q 2))]

/-! ## Transmission (R285, R296, R297) -/

/-- A priority of MAC k is paused by the peer: PFC_RX enables it and a received pause runs (R285). -/
def paused (s : State) (k p : Nat) : Bool := bit s (A.macCtrl k) (8 + p) && bit s (A.pfcStat k) (8 + p)
/-- The PCP of a frame, 0 where untagged. -/
def framePcp (f : NetFrame) : Nat := if f.tag % 4096 = 0 then 0 else f.tag / 8192

/-- The head of queue q may start on MAC k (R296). A protected frame needs a live secure channel with packet numbers left. -/
def headReady (s : State) (k q : Nat) : Bool := match (egQueue s q).frames.head? with
  | none => false
  | some f =>
    f.launch.all (schedReached s) && !paused s k (framePcp f) &&
    ((windowRest s k (queueClass s q) (schedNow s)).all fun w => decide (txNs s k f ≤ w)) &&
    (decide (2048 ≤ q) || decide (0 ≤ tokensNow s q)) &&
    (!shielded s k f || decide ((macOf s k).txPn < 2 ^ 64))

/-- The queue served next: the highest class, then the smallest S, then the lowest index. -/
def pickQueue (s : State) (k : Nat) : Option Nat :=
  let l := (busyQueues s k).filter (headReady s k)
  let c := (l.map (queueClass s)).foldl max 0
  (l.filter fun q => decide (queueClass s q = c)).foldl (fun b q => match b with
    | none => some q
    | some r => if (egQueue s q).start < (egQueue s r).start then some q else some r) none

/-- V of class c of MAC k takes the largest F served where the class has no queued frame (R297). -/
def idleClass (k c : Nat) : Act := .whenS (fun s => (busyQueues s k).all fun r => decide (queueClass s r ≠ c))
  (updMac k fun m => { m with vt := sset (fun _ => 0) m.vt c (sget (fun _ => 0) m.maxF c) })
/-- Frames leave queue q, which keeps `l`: a new head takes its tags, an emptied class is idle, and the buffers show it. -/
def keepFrames (q : Nat) (l : List NetFrame) : Act := .look fun s => .all [
  updEg q fun x => { x with frames := l },
  Act.when (decide (l.head? ≠ (egQueue s q).frames.head?)) (tagHead q false),
  idleClass (queueMac s q) (queueClass s q), showBuffers (queueMac s q / 8)]
/-- Remove the head of queue q; the next frame takes its tags. -/
def popHead (q : Nat) : Act := .look fun s =>
  let k := queueMac s q
  .all [
    updEg q fun x => { x with frames := x.frames.drop 1 }, tagHead q false, idleClass k (queueClass s q), showBuffers (k / 8)]

/-- Head frames whose launch time lies more than 1 s in the past are dropped and counted (R277). -/
def dropStale (k q : Nat) : Act := .look fun s =>
  let stale (f : NetFrame) : Bool := f.launch.any fun t => decide (ticksTo s (Int.ofNat t + heldStep s + 1000000000) < 0)
  Act.each ((egQueue s q).frames.takeWhile stale) fun f => .all [bump (A.gateMacOf k 3) 31 16, dropFrame f, popHead q]

/-- A telemetry packet leaves: it carries the record frames lost since the last one (R294). -/
def markGap (s : State) (f : NetFrame) : NetFrame := match f.tele, f.body with
  | some (id, i, _), .udp v6 ip sp dp l =>
    let lost := ((sget (fun _ => none) s.net.subs id).map fun u => (sget (fun _ => {}) u.slices i).lost).getD 0
    let flags := leAt l 3 1
    { f with body := .udp v6 ip sp dp (l.take 3 ++ natLe 1 (flags + if 0 < lost ∧ flags % 2 = 0 then 1 else 0) ++ slice l 4 20 ++
        natLe 4 (min lost 0xFFFFFFFF) ++ l.drop 28) }
  | _, _ => f
def clearGap (f : NetFrame) : Act := match f.tele with
  | some (id, i, _) => updSlice_ id i fun x => { x with lost := 0 }
  | none => .done

/-! ## PTP messages that the device sends (R264, R282) -/

/-- The internet checksum of bytes: the complement of the sum of their 16-bit words. -/
def inetSum (l : List Byte) : Nat :=
  let word (i : Nat) : Nat := (l.getD (2 * i) 0#8).toNat * 256 + (l.getD (2 * i + 1) 0#8).toNat
  let x := ((List.range ((l.length + 1) / 2)).map word).foldl (· + ·) 0
  65535 - if x = 0 then 0 else (x - 1) % 65535 + 1
/-- A datagram's header and payload under an IP header of hop limit 1 (PRESUMED, log entry 119). -/
def inetPacket (v6 : Bool) (src dst port : Nat) (l : List Byte) : List Byte :=
  let n := 8 + l.length
  let addr := if v6 then natBe 16 src ++ natBe 16 dst else natBe 4 src ++ natBe 4 dst
  let sum := inetSum (addr ++ natBe 4 n ++ natBe 4 17 ++ natBe 2 port ++ natBe 2 port ++ natBe 2 n ++ natBe 2 0 ++ l)
  let udp := natBe 2 port ++ natBe 2 port ++ natBe 2 n ++ natBe 2 (if sum = 0 then 65535 else sum) ++ l
  if v6 then natBe 4 0x60000000 ++ natBe 2 n ++ natBe 1 17 ++ natBe 1 1 ++ addr ++ udp
  else
    let head := natBe 2 0x4500 ++ natBe 2 (20 + n) ++ natBe 4 0 ++ natBe 2 0x0111
    head ++ natBe 2 (inetSum (head ++ natBe 2 0 ++ addr)) ++ addr ++ udp
/-- The message (IEEE 1588-2019 clause 13; PRESUMED, log entry 119): the header with the turnaround time in the correctionField of a Pdelay_Resp, then the
originTimestamp, in whole ns, of a request. -/
def ptpMessage (s : State) (m : PtpSent) : List Byte :=
  let ns := (m.stamp / ptpNs).toNat
  let id (mac : Nat) : List Byte := natBe 3 (mac / 2 ^ 24) ++ natBe 2 0xFFFE ++ natBe 3 mac ++ natBe 2 1
  natBe 1 m.kind ++ natBe 1 0x12 ++ natBe 2 (if m.kind = 1 then 44 else 54) ++ natBe 1 m.domain ++ natBe 3 0 ++
    natBe 8 (if m.kind = 3 then unsigned 64 (m.stamp / 1000) else 0) ++ natBe 4 0 ++ id (macAddr s (8 * m.port)) ++ natBe 2 m.seq.toNat ++
    natBe 1 (if m.kind = 1 then 1 else 5) ++ natBe 1 0x7F ++
    (if m.kind = 3 then natBe 10 0 ++ natBe 8 m.peer.toNat ++ natBe 2 1
     else natBe 6 (ns / 1000000000) ++ natBe 4 (ns % 1000000000) ++ if m.kind = 1 then [] else natBe 10 0)
/-- The MAC address and the IP address of the message's group. -/
def ptpGroup : PtpTransport → PtpDest → Nat × Nat
  | .ethernet, .linkLocal => (0x0180C200000E, 0)
  | .ethernet, _ => (0x011B19000000, 0)
  | .udp4, .linkLocal => (0x01005E00006B, 0xE000006B)
  | .udp4, _ => (0x01005E000181, 0xE0000181)
  | .udp6, .linkLocal => (0x33330000006B, 0xFF02 * 2 ^ 112 + 0x6B)
  | .udp6, _ => (0x333300000181, 0xFF0E * 2 ^ 112 + 0x181)
/-- The Ethernet frame of the message, with the checksum of its datagram and its FCS as they leave (R264). SecTAG and ICV are apart. -/
def ptpFrame (s : State) (m : PtpSent) (tag : Nat) : List Byte :=
  let k := 8 * m.port
  let (mac, ip) := ptpGroup m.transport m.dest
  let msg := ptpMessage s m
  let (type, body) := match m.transport with
    | .ethernet => (0x88F7, msg)
    | .udp4 => (0x0800, inetPacket false (rd s (A.ipv4 k)).toNat ip 319 msg)
    | .udp6 => (0x86DD, inetPacket true (ipv6Of s k) ip 319 (msg ++ natBe 2 0))
  let l := natBe 6 mac ++ natBe 6 (macAddr s k) ++ (if tag % 4096 = 0 then [] else natBe 2 0x8100 ++ natBe 2 tag) ++ natBe 2 type ++ body
  let l := l ++ List.replicate (60 - l.length) 0#8
  l ++ natLe 4 (crc32 l).toNat
/-- A message that the port sends joins the PTP queue of its MAC (R295): its stamp is written as it leaves. -/
def sendPtp (m : PtpSent) : Act := .look fun s =>
  let tag := fld s (A.devTag (8 * m.port)) 15 0
  enqueue (internalQ (8 * m.port) qPtp) {
    dst := (ptpGroup m.transport m.dest).1, tag := tag, body := .ptp m, bytes := (ptpFrame s m tag).length }
/-- The message of a kind that port p sends. -/
def ptpOut (s : State) (p kind : Nat) (seq : BitVec 16) (stamp : Int) (sub : Nat) (peer : BitVec 64) : PtpSent := {
  port := p, kind := kind, transport := ptpTransport s p, dest := ptpDest s p kind, domain := fld s A.ptpDomain 7 0, seq := seq, stamp := stamp,
  sub := sub, peer := peer, secured := bit s A.ptpCtrl 2 }
/-- While the message departs, its transmit timestamp or turnaround time is written, the checksum and the FCS are recomputed, and a request's
timestamp is kept for its answer (R264). -/
def ptpDeparts (k : Nat) (f : NetFrame) (m : PtpSent) : Act := .look fun s =>
  let t := txStamp s (k / 8) m.sub
  let sent : PtpSent := { m with stamp := if m.kind = 3 then t - m.stamp else t }
  .all [
    emit (.ptp sent (ptpFrame s sent f.tag)),
    Act.when (decide (m.kind ≠ 3)) (updPtp m.port fun x => { x with req := some (m.seq, t) })]

/-- PTP_PDELAY_REQ_RECEIVE: the answer carries its turnaround time as it leaves; `turn` is the root cycle of its tick then (R264). -/
def execPtpPdelayReqReceive (h : PtpHead) (turn : Nat) (s : State) : Host.Outcome State Fault Refusal :=
  (ptpTaken h true (.look fun s => Act.when (ptpPeer s h.port)
    (sendPtp (ptpOut s h.port 3 h.seq (rxStamp s h.port h.sub) (turn % 8) h.master)))).next s

/-- PTP_DELAY_REQ_SEND: at its interval a port with a master sends its request, one-step (R264). -/
def execPtpDelayReqSend (p : Fin 2) (sub : Fin 8) (s : State) : Host.Outcome State Fault Refusal :=
  (Act.whenS (fun s => domRuns s 39 && decide (ppState s p = ppUncalibrated ∨ ppState s p = ppSlave) && ((ptpOf s p).reqAt.all fun t =>
      decide (reqTicks s p ≤ s.clk.mono - t))) (.look fun s => .all [
    updPtp p fun x => { x with nextSeq := x.nextSeq + 1#16, reqAt := some s.clk.mono },
    sendPtp (ptpOut s p (if ptpPeer s p then 2 else 1) (ptpOf s p).nextSeq 0 sub 0#64)])).next s

/-- MAC k starts the head of queue q: tags, tokens, packet number, time on the wire. -/
def startFrame (k q : Nat) (f : NetFrame) : Act := .look fun s =>
  let prot := shielded s k f
  let x := egQueue s q
  let c := queueClass s q
  if (bit s (A.msCtrl k) 0 || prot) && !f.body.control && !secureUp s k then .all [bump (A.msNosc k) 31 0, dropFrame f, popHead q]
  else .all [
    updMac k fun m => { m with
      free := fineNow s + bitTime s k (8 * wireBytes s k f),
      vt := sset (fun _ => 0) m.vt c x.start, maxF := sset (fun _ => 0) m.maxF c (max x.finish (sget (fun _ => 0) m.maxF c)) },
    Act.when (decide (q < 2048)) (setTokens q (if fld s (A.queueOf q 3) 19 0 = 0 then tokensNow s q
      else tokensNow s q - 6144 * Int.ofNat (wireBytes s k f))),
    (match f.body with
      | .ptp m => ptpDeparts k f m
      | _ => emit (.ethernet k (markGap s f) prot)),
    clearGap f,
    bump (A.macTxfrm k) 31 0,
    Act.when prot (takePn k),
    popHead q]

/-- MAC_FRAME_START: a free MAC selects and starts its next frame. -/
def execMacFrameStart (k : Fin 16) (s : State) : Host.Outcome State Fault Refusal :=
  (Act.whenS (fun s => macUp s k && domRuns s (44 + 2 * (k / 8)) && decide ((macOf s k).free ≤ fineNow s)) (.all [
    .look fun s => Act.each (busyQueues s k) (dropStale k),
    .look fun s => (match pickQueue s k with
      | some q => Act.each (egQueue s q).frames.head?.toList (startFrame k q)
      | none => .done)])).next s

/-! ## Gate commands (R278, R279) -/

/-- The entry in force follows the time. -/
def refreshGate (k : Nat) : Act := .look fun s => updMac k fun m => { m with gate := if gated s k then some (gateAt s k (schedNow s)) else none }

/-- GATE_TRANSITION: MAC k's operational list advances. -/
def execGateTransition (k : Fin 16) (s : State) : Host.Outcome State Fault Refusal :=
  (Act.whenS (fun s => gated s k && domRuns s 39) (refreshGate k)).next s

/-- Write GATE_EN. -/
def writeGateEn (k : Nat) (v : Bool) : Act := .all [putBit (A.gateMacOf k 0) 0 v, refreshGate k]

/-- The admin list of MAC k can be put in force: a cycle, an extension no longer, entries and intervals in their ranges. -/
def adminGood (s : State) (k : Nat) : Bool :=
  let cycle := fld s (A.gclOf k 0 1) 29 0
  let n := fld s (A.gclOf k 0 0) 8 0
  decide (8 ≤ cycle ∧ cycle ≤ 1000000000) && decide (fld s (A.gclOf k 0 2) 29 0 ≤ cycle) && decide (1 ≤ n ∧ n ≤ 256) &&
  (List.range n).all fun j => let d := fld s (A.gclOf k 0 (9 + 2 * j)) 29 0; decide (8 ≤ d ∧ d ≤ 1000000000)

/-- When list l of MAC k becomes operational: at its base time where that lies in the future, else at the first base + k cycles in the future. -/
def changeTime (s : State) (k l : Nat) : Nat :=
  let base := rdPair s (A.gclOf k l 3) (A.gclOf k l 4)
  let cycle := max 1 (fld s (A.gclOf k l 1) 29 0)
  if schedReached s base then base + ((schedNow s - base) / cycle + 1) * cycle else base

/-- CONFIG_CHANGE: the admin list becomes pending for its base time, or the first base + k cycles in the future (R278). A list out of its
ranges sets CONFIG_ERR (DESIGN CHOICE, log entry 33). -/
def configChange (k : Nat) : Act := .look fun s =>
  if bit s (A.gateMacOf k 0) 1 then setBit (A.gateMacOf k 1) 1
  else if !adminGood s k then setBit (A.gateMacOf k 1) 1
  else .all [
    Act.each (List.range 520) fun w => wr (A.gclOf k 2 w) (rd s (A.gclOf k 0 w)),
    setBit (A.gateMacOf k 0) 1, updMac k fun m => { m with changeAt := some (changeTime s k 0) }, refreshGate k]

/-- A step of network time: at the frame boundary, with the step taken, every MAC's gate schedule is computed from the new time (R269). -/
def stepGates : Act := Act.upto 16 fun k => .all [
  .look fun s => Act.when (macOf s k).changeAt.isSome (updMac k fun m => { m with changeAt := some (changeTime s k 2) }), refreshGate k]

def execGclConfigChange (k : Fin 16) (s : State) : Host.Outcome State Fault Refusal :=
  (hostWrite A.gclCtrl (BitVec.ofNat 32 (2 + (bit s (A.gateMacOf k 0) 0).toNat)) (configChange k)).next s

/-- Queued frames of MAC k that no window of their class takes are dropped and counted (R279). -/
def dropOversize (k : Nat) : Act := .look fun s => Act.each (busyQueues s k) fun q =>
  let bad := (egQueue s q).frames.filter (oversize s k (queueClass s q))
  Act.when (!bad.isEmpty) (.all [
    bump (A.gateMacOf k 2) 31 0 bad.length, loseTele bad,
    keepFrames q ((egQueue s q).frames.filter fun f => !oversize s k (queueClass s q) f)])

/-- GCL_CONFIG_CHANGE_TIME: the pending list becomes operational (R278, R279). -/
def execGclConfigChangeTime (k : Fin 16) (s : State) : Host.Outcome State Fault Refusal :=
  (Act.whenS (fun s => (macOf s k).changeAt.any (schedReached s)) (.look fun s => .all [
    Act.each (List.range 520) fun w => wr (A.gclOf k 1 w) (rd s (A.gclOf k 2 w)),
    clrBit (A.gateMacOf k 0) 1, setBit (A.gateMacOf k 1) 0,
    updMac k fun m => { m with changeAt := none }, refreshGate k, dropOversize k])).next s

end Sys2Proof.Machine
end

