-- ==== Sys2Proof/Machine/Korotte.lean ====
section
/-!
DEFINITION. Korotte Link: lanes and bonds, HELLO, credits, retry, forwarding and UDP tunnels (spec/08_huddle.md R206-R215).
-/

namespace Sys2Proof.Machine

/-! ## Addresses and routes (R206, R213) -/

def ownAddr (s : State) : Nat := fld s A.klkAddr 13 0
def ownDomain (s : State) : Nat := fld s A.klkAddr 31 16

/-- Where a frame leaves: a link by its lead lane, or a tunnel. -/
inductive Egress where
  | link (n : Nat)
  | tunnel (n : Nat)
deriving DecidableEq, Repr

/-- The MAC that carries port p's tunnels and the like: its lowest one with a secure channel up. -/
def secureMac (s : State) (p : Nat) : Option Nat := ((List.range 8).map (8 * p + ·)).find? fun k => macUp s k && secureUp s k
def tunnelPort (s : State) (n : Nat) : Nat := fld s (A.tunnelOf n 4) 1 1
def tunnelUp (s : State) (n : Nat) : Bool :=
  bit s (A.tunnelOf n 4) 0 && bit s A.klkUdpCtrl (tunnelPort s n) && (secureMac s (tunnelPort s n)).isSome
/-- An egress code of a next-hop entry, where it is valid and the egress is up (Table HD-3). -/
def egressOf (s : State) (code : Nat) : Option Egress :=
  if code < 8 then (if klkUp s code then some (.link code) else none)
  else if 256 ≤ code ∧ tunnelUp s (code - 256) then some (.tunnel (code - 256)) else none
/-- The first usable egress for a destination (R213). -/
def klkRoute (s : State) (dst : Nat) : Option Egress :=
  let e := rd s (A.nextHopOf dst)
  let a := if e.getLsbD 31 then egressOf s (bits e 8 0) else none
  let b := if e.getLsbD 30 then egressOf s (bits e 17 9) else none
  (a.or b).or (((List.range 8).find? fun n => klkUp s n && decide (fld s (A.klkPeer n) 13 0 = dst)).map .link)

/-! ## Frames (R209, R210) -/

/-- Traffic class of a TYPE; none where it is LINK or reserved. -/
def typeClass : Nat → Option Nat
  | 1 => some 0
  | 2 => some 1
  | 3 => some 1
  | 4 => some 3
  | 5 => some 2
  | _ => none
/-- Bytes 0 to 15 + LEN of a frame with its link fields 0. -/
def klkFrame (cls type dst src ttl : Nat) (l : List Byte) : List Byte :=
  natBe 1 (16 + 4 * cls) ++ natBe 1 type ++ natBe 2 dst ++ natBe 2 src ++ natBe 1 ttl ++ [0#8] ++ natBe 2 l.length ++
  List.replicate 6 0#8 ++ l
/-- A frame with its link fields and CRC. -/
def klkSeal (f : List Byte) (lseq lack cred : Nat) : List Byte :=
  let b := f.take 10 ++ natBe 2 lseq ++ natBe 2 lack ++ natBe 2 cred ++ f.drop 16
  b ++ natBe 4 (crc32c b).toNat
def frameClass (f : List Byte) : Nat := leAt f 0 1 / 4 % 4
def frameType (f : List Byte) : Nat := leAt f 1 1
def beAt (f : List Byte) (o n : Nat) : Nat := beNat (slice f o n)
/-- Credits of a frame: 64 bytes each, its CRC included. -/
def frameCredits (f : List Byte) : Nat := (f.length + 4 + 63) / 64
/-- CRC, version and length of received bytes: an error where R209 discards them, with whether the CRC fails. A frame is at most 9,216 bytes. -/
def klkCheck (b : List Byte) : Except Bool (List Byte) :=
  if b.length < 4 ∨ (crc32c (b.take (b.length - 4))).toNat ≠ beAt b (b.length - 4) 4 then .error true
  else if b.length < 20 ∨ 9216 < b.length ∨ leAt b 0 1 / 16 ≠ 1 ∨ beAt b 8 2 + 20 ≠ b.length then .error false
  else .ok (b.take (b.length - 4))

/-! ## Striping (R208) -/

/-- Unit k of a frame: 64 bytes. -/
def klkUnit (b : List Byte) (k : Nat) : List Byte := (b.drop (64 * k)).take 64
/-- What lane i of a link of w lanes carries of a frame: the 64-byte units in lane order, the lead lane first. -/
def laneShare (w i : Nat) (b : List Byte) : List Byte :=
  if w ≤ 1 then b else ((List.range (b.length / 64 + 1)).filter fun k => decide (k % w = i)).flatMap (klkUnit b)
/-- A frame put together from what the lanes of its link carry. -/
def laneJoin : List (List Byte) → List Byte
  | [] => []
  | [b] => b
  | l => (List.range (l.length * ((l.map List.length).foldl max 0 / 64 + 1))).flatMap fun k =>
      klkUnit (l.getD (k % l.length) []) (k / l.length)

/-! ## Queues and credits (R211) -/

def classQueue (x : KLink) (c : Nat) : List (List Byte) := sget (fun _ => []) x.queues c
def creditsOf (x : KLink) (c : Nat) : Nat := sget (fun _ => 0) x.credits c
/-- Replay buffer bytes in use. -/
def replayUse (x : KLink) : Nat := x.unacked.foldl (fun a f => a + f.2.length + 4) 0
/-- Class c of link n has a frame that waits for credits. -/
def stalled (x : KLink) (c : Nat) : Bool := (classQueue x c).head?.any fun f => decide (creditsOf x c < frameCredits f)
/-- KLK_STALL counts the microseconds without credit; those of a running stall count when it ends, and a read adds them. -/
def refreshStall (n : Nat) : Act := Act.each [0, 1, 2, 3] fun c => .look fun s =>
  let x := kLink s n
  let t := sget (fun _ => 0) x.stallAt c
  let now := klkUp s n && stalled x c
  .all [
    Act.when (now && decide (t = 0)) (updKLink n fun x => { x with stallAt := sset (fun _ => 0) x.stallAt c (s.clk.mono + 1) }),
    Act.when (!now && decide (t ≠ 0)) (.all [
      bump (A.klkStall n) (8 * c + 7) (8 * c) (usSince s (t - 1)),
      updKLink n fun x => { x with stallAt := sset (fun _ => 0) x.stallAt c 0 }])]
/-- A frame waits on link n. -/
def klkQueue (n : Nat) (f : List Byte) : Act := .all [
  updKLink n fun x => { x with queues := smod (fun _ => []) x.queues (frameClass f) (· ++ [f]) },
  refreshStall n]

/-- A frame leaves through tunnel n, without link fields (R215). -/
def tunnelSend (n : Nat) (f : List Byte) : Act := .look fun s =>
  let ip := (List.range 4).foldl (fun x i => x + (rd s (A.tunnelOf n i)).toNat * 2 ^ (32 * i)) 0
  let v4 := decide (ip / 2 ^ 32 = 0xFFFF)
  let port := fld s A.klkUdpCtrl 31 16
  Act.each (secureMac s (tunnelPort s n)).toList fun k => sendOwn k qTunnel (!v4) (if v4 then ip % 2 ^ 32 else ip) port port (klkSeal f 0 0 0)

/-- A frame takes its egress, or is counted as without route. -/
def klkForward (f : List Byte) : Act := .look fun s => match klkRoute s (beAt f 2 2 % 16384) with
  | some (.link n) => klkQueue n f
  | some (.tunnel n) => tunnelSend n f
  | none => .all [bump A.klkDropcnt 31 16, event A.klkEvt 1 387]

/-- A frame that the device originates (R209, R210). -/
def klkSend (type dst : Nat) (l : List Byte) : Act := .look fun s =>
  klkForward (klkFrame ((typeClass type).getD 0) type dst (ownAddr s) 32 l)

/-- A received frame is delivered here, where its own command takes it up, or forwarded (R213). -/
def klkDispatch (f : List Byte) : Act := .look fun s =>
  let dst := beAt f 2 2 % 16384
  let ttl := leAt f 6 1
  if dst = ownAddr s then .done
  else if !bit s A.klkCtrl 0 then .done
  else if ttl ≤ 1 then .all [bump A.klkDropcnt 15 0, event A.klkEvt 0 386]
  else .all [
    Act.when (klkRoute s dst).isSome (bump A.klkFwdcnt 31 0),
    klkForward (f.take 6 ++ natBe 1 (ttl - 1) ++ f.drop 7)]

/-! ## Lanes and bonds (R208) -/

/-- Width of the link that lane n leads by its BOND field. -/
def bondWidth (s : State) (n : Nat) : Nat :=
  let b := fld s (A.klkLctrl n) 2 1
  if b = 1 ∧ n % 2 = 0 then 2 else if b = 2 ∧ n % 4 = 0 then 4 else 1
def laneEn (s : State) (n : Nat) : Bool := bit s (A.klkLctrl n) 0
/-- The w lanes from lane n are in no link. -/
def lanesFree (s : State) (n w : Nat) : Bool := (List.range w).all fun i => (klkLead s (n + i)).isNone
/-- A lane below lane n leads a bond that takes it in. -/
def coveredLane (s : State) (n : Nat) : Bool := (List.range n).any fun l => decide (n < l + bondWidth s l)

/-- Links follow the enables: a link has the EN of its lead lane, and an enabled lane that no other leads begins one where its lanes are free. -/
def refreshBonds : Act := .all [
  Act.upto 8 fun n => .look fun s => Act.when (decide (0 < (kLink s n).lanes) && !laneEn s n) (.all [
    klkDown raise n, clrBit A.klkStat n,
    Act.upto (kLink s n).lanes fun i => .all [clrBit (A.klkLstat (n + i)) 0, clrBit (A.klkLstat (n + i)) 3],
    updKLink n fun _ => {}]),
  Act.upto 8 fun n => .look fun s =>
    let w := bondWidth s n
    Act.when (laneEn s n && !coveredLane s n && lanesFree s n w) (.all [
      updKLink n fun _ => { lanes := w }, setBit A.klkStat n,
      Act.when (decide (1 < w)) (Act.upto w fun i => setBit (A.klkLstat (n + i)) 0)])]

/-- KLK_LANE_EN_WRITE: EN and BOND of lane n. -/
def execKlkLaneEnWrite (n : Fin 8) (en : Bool) (bond : Fin 4) (s : State) : Host.Outcome State Fault Refusal :=
  (hostWriteFld (A.klkLctrl n) 2 0 (2 * bond + en.toNat) (.all [
    setFld (A.klkLctrl n) 2 0 (2 * bond + en.toNat), refreshBonds])).next s

/-! ## HELLO (R207) -/

/-- The credits of class c in a partition, as KLK_CRED. -/
def credOf (v : Word) (c : Nat) : Nat := 16 * bits v (8 * c + 7) (8 * c)
/-- KLK_CRED as it takes effect at link-up: a sum above the pool is replaced by the reset value. -/
def credInForce (s : State) (n : Nat) : Word :=
  let v := rd s (A.klkCred n)
  if 64 * (kLink s n).lanes < bits v 31 24 + bits v 23 16 + bits v 15 8 + bits v 7 0 then 0x082C0804#32 else v

/-- HELLO_SEND: on each enabled link, every 100 µs; a HELLO is a LINK frame and counts as one sent (Table HD-2). -/
def execHelloSend (n : Fin 8) (s : State) : Host.Outcome State Fault Refusal :=
  (Act.whenS (fun s => domRuns s 56 && !fifoHeld s 56 && decide (0 < (kLink s n).lanes)) (.look fun s => .all [
    bump (A.klkTxfrm n) 31 0, emit (.hello n (rd s A.klkAddr) (credInForce s n) s.tim.tick)])).next s

/-- The link of lead lane n comes up. -/
def klkComesUp (n : Nat) : Act := .look fun s => .all [
  updKLink n fun x => {
    lanes := x.lanes, queues := x.queues, good := x.good, lastHello := x.lastHello, peerCred := x.peerCred,
    ownCred := credInForce s n,
    credits := [0, 1, 2, 3].foldl (fun m c => sset (fun _ => 0) m c (credOf x.peerCred c)) [], progress := s.clk.mono },
  setBit A.klkStat (8 + n), setBit (A.klkLstat n) 1, setBit (A.klkLevt n) 0, event A.klkEvt 2 388, refreshStall n]

/-- HELLO_RECEIVE: the peer's domain and address, its partition, and the round trip that the timestamps give. FEC has lock. -/
def execHelloReceive (n : Fin 8) (domain : BitVec 16) (addr : Fin 16384) (cred : BitVec 32) (rtt : BitVec 16) (s : State) :
    Host.Outcome State Fault Refusal :=
  (Act.whenS (fun s => domRuns s (48 + n) && decide (0 < (kLink s n).lanes) &&
      (List.range (kLink s n).lanes).all fun i => !fifoHeld s (48 + n + i)) (.look fun s =>
    let mismatch := decide (domain.toNat ≠ ownDomain s)
    let dup := decide (addr.val = ownAddr s)
    .all [
      bump (A.klkRxfrm n) 31 0, wrNat (A.klkPeer n) (domain.toNat * 65536 + addr), setFld (A.klkRtt n) 15 0 rtt.toNat,
      Act.upto (kLink s n).lanes fun i => setBit (A.klkLstat (n + i)) 3,
      if mismatch || dup then .all [
        Act.when mismatch (event A.klkEvt 4 390), Act.when dup (event A.klkEvt 5 391),
        klkDown raise n, updKLink n fun x => { x with barred := true, good := 0 }]
      else .all [
        updKLink n fun x => { x with
          barred := false, good := min 4 (x.good + 1), lastHello := s.clk.mono, peerCred := cred },
        setBit (A.klkLstat n) 2,
        .whenS (fun s => !klkUp s n && decide (4 ≤ (kLink s n).good)) (klkComesUp n)]])).next s

/-- HELLO_TIMEOUT: no good HELLO for 300 µs. -/
def execHelloTimeout (n : Fin 8) (s : State) : Host.Outcome State Fault Refusal :=
  (Act.whenS (fun s => decide (0 < (kLink s n).good) && decide (230400 ≤ s.clk.mono - (kLink s n).lastHello)) (klkDown raise n)).next s

/-- FEC_LOCK_LOSS: lane n's lock was lost for 10 µs; its link goes down as a whole. -/
def execFecLockLoss (n : Fin 8) (s : State) : Host.Outcome State Fault Refusal := (klkLaneLost raise n).next s

/-! ## Sending (R210-R212) -/

/-- The classes in the order they are served. -/
def serveOrder : List Nat := [0, 1, 3, 2]
/-- The class whose head may be sent for the first time: credits enough, and room in the replay buffer. -/
def sendClass (x : KLink) : Option Nat := serveOrder.find? fun c => (classQueue x c).head?.any fun f =>
  decide (frameCredits f ≤ creditsOf x c) && decide (replayUse x + f.length + 4 ≤ 65536 * x.lanes)
/-- The acknowledgement field due: the last frame accepted, or a NAK for the expected one (DESIGN CHOICE, log entry 34). -/
def lackOf (x : KLink) : Nat :=
  if x.nakDue then 0xC000 + x.rxSeq else if x.ackDue then 0x8000 + (x.rxSeq + 4095) % 4096 else 0
/-- Class and number of credits returned next. -/
def credDue (x : KLink) : Nat × Nat :=
  match [0, 1, 2, 3].find? fun c => decide (0 < sget (fun _ => 0) x.owed c) with
  | some c => (c, min 2047 (sget (fun _ => 0) x.owed c))
  | none => (0, 0)

/-- A frame goes onto link n with what is due to the peer. -/
def klkEmit (n seq : Nat) (f : List Byte) : Act := .look fun s =>
  let x := kLink s n
  let (c, k) := credDue x
  .all [
    Act.each ((List.range x.lanes).filter fun i => laneShare x.lanes i (klkSeal f seq (lackOf x) (c * 16384 + k)) != []) fun i =>
      emit (.korotte (n + i) (laneShare x.lanes i (klkSeal f seq (lackOf x) (c * 16384 + k)))),
    bump (A.klkTxfrm n) 31 0,
    updKLink n fun x => { x with ackDue := false, nakDue := false, owed := smod (fun _ => 0) x.owed c (· - k) }]

/-- A LINK frame without payload: from the device to the link's peer (R209; that DST names the peer is DEDUCED, log entry 34). -/
def linkFrame (s : State) (n : Nat) : List Byte := klkFrame 0 0 (fld s (A.klkPeer n) 13 0) (ownAddr s) 32 []

/-- KOROTTE_FRAME_SEND: a LINK frame where something is due, else a frame to resend, else the next by class (R210). -/
def execKorotteFrameSend (n : Fin 8) (s : State) : Host.Outcome State Fault Refusal :=
  (Act.whenS (fun s => klkUp s n && domRuns s 56) (.look fun s =>
    let x := kLink s n
    if x.ackDue || x.nakDue || decide (0 < (credDue x).2) then klkEmit n 0 (linkFrame s n)
    else match x.unacked[x.sent]? with
    | some (q, f) => .all [
        updKLink n fun x => { x with sent := x.sent + 1 }, bump (A.klkRetry n) 15 0, klkEmit n q f]
    | none => match sendClass x with
      | some c => Act.each (classQueue x c).head?.toList fun f => .all [
          updKLink n fun x => { x with
            queues := smod (fun _ => []) x.queues c (·.drop 1), credits := smod (fun _ => 0) x.credits c (· - frameCredits f),
            unacked := x.unacked ++ [(x.txSeq, f)], sent := x.sent + 1, txSeq := (x.txSeq + 1) % 4096,
            progress := if x.unacked.isEmpty then s.clk.mono else x.progress },
          klkEmit n x.txSeq f, refreshStall n]
      | none => .done)).next s

/-- Resend from the oldest frame not acknowledged; sixteen without progress take the link down (R212). -/
def klkResend (n : Nat) : Act := .look fun s =>
  if 16 ≤ (kLink s n).tries then .all [event A.klkEvt 6 392, klkDown raise n]
  else updKLink n fun x => { x with sent := 0, tries := x.tries + 1, progress := s.clk.mono }

/-- KOROTTE_RETRY_TIMEOUT: no acknowledgement advanced for 10 µs. -/
def execKorotteRetryTimeout (n : Fin 8) (s : State) : Host.Outcome State Fault Refusal :=
  (Act.whenS (fun s => klkUp s n && !(kLink s n).unacked.isEmpty && decide (7680 ≤ s.clk.mono - (kLink s n).progress)) (klkResend n)).next s

/-! ## Receiving (R209-R212) -/

/-- LACK of a received frame: frames up to the acknowledged one leave the replay buffer; a NAK resends from the frame it names. -/
def takeLack (n lack : Nat) : Act := .look fun s =>
  let x := kLink s n
  let nak := lack / 16384 = 3
  let upTo := if nak then (lack % 4096 + 4095) % 4096 else lack % 4096
  let k := match x.unacked.findIdx? fun f => f.1 == upTo with
    | some i => i + 1
    | none => 0
  Act.when (decide (32768 ≤ lack)) (.all [
    Act.when (decide (0 < k)) (updKLink n fun x => { x with
      unacked := x.unacked.drop k, sent := x.sent - k, tries := 0, progress := s.clk.mono }),
    Act.when nak (.all [bump (A.klkRetry n) 31 16, setBit (A.klkLevt n) 2, klkResend n])])

/-- A frame was lost or damaged: one NAK for the expected sequence. -/
def klkNak (n : Nat) : Act := updKLink n fun x => if x.nak then x else { x with nak := true, nakDue := true }

/-- KOROTTE_FRAME_RECEIVE: bytes arrive on the lanes of an enabled link n, with the FEC codewords corrected and not corrected since the last frame.
Every frame is checked; a good one is taken where the link is up. One on an uncorrectable word of the packet buffer is dropped and counted as
discarded, and asked for again (R311, log entry 131). -/
def execKorotteFrameReceive (n : Fin 8) (b : List (List (BitVec 8))) (cor : Nat) (unc : RxFault) (s : State) : Host.Outcome State Fault Refusal :=
  (Act.whenS (fun s => decide (0 < (kLink s n).lanes) && domRuns s (48 + n)) (.all [
    bump (A.klkFeccor n) 31 0 cor, bump (A.klkFecunc n) 15 0 unc.codewords,
    if unc.bufBad then .all [
      bump (A.klkCrcerr n) 15 0, raise { src := 347, addr := A.klkCrcerr n }, .whenS (fun s => klkUp s n) (klkNak n)]
    else match klkCheck (laneJoin b) with
    | .error crc => .all [bump (A.klkCrcerr n) 15 0, Act.when crc (.all [bump (A.klkCrcerr n) 31 16, .whenS (fun s => klkUp s n) (klkNak n)])]
    | .ok f => .whenS (fun s => klkUp s n) (.all [
      takeLack n (beAt f 12 2),
      updKLink n fun x => { x with credits := smod (fun _ => 0) x.credits (beAt f 14 2 / 16384) (· + beAt f 14 2 % 2048) },
      refreshStall n,
      .whenS (fun s => klkUp s n) (.look fun s =>
        let x := kLink s n
        let q := beAt f 10 2 % 4096
        if frameType f = 0 then bump (A.klkRxfrm n) 31 0
        else if q = x.rxSeq then .all [
          bump (A.klkRxfrm n) 31 0,
          updKLink n fun x => { x with
            rxSeq := (x.rxSeq + 1) % 4096, nak := false, ackDue := true,
            owed := smod (fun _ => 0) x.owed (frameClass f) (· + frameCredits f) },
          if typeClass (frameType f) = some (frameClass f) then klkDispatch f else bump (A.klkCrcerr n) 15 0]
        else if 2048 ≤ (q + 4096 - x.rxSeq) % 4096 then updKLink n fun x => { x with ackDue := true }
        else klkNak n)])])).next s

/-! ## Tunnels (R215) -/

/-- A frame of a kind leaves MAC k's ingress buffer; a lossless priority that falls to PFC_XON lets its peer go on (R285). -/
def takeRx (k prio : Nat) : Act := .look fun s =>
  let l := (macOf s k).rx
  match l.findIdx? fun x => x.1 == prio with
  | none => .done
  | some i => .all [
      updMac k fun m => { m with rx := m.rx.eraseIdx i }, showBuffers (k / 8),
      .whenS (fun s => bit s (A.pfcStat k) prio && decide (rxHeld s k prio ≤ fld s (A.pfcOf k prio 2) 20 0)) (.all [
        clrBit (A.pfcStat k) prio, bump (A.pfcCnt k) 15 0,
        emit (.ethernet k { dst := 0x0180C2000001, body := .pfc prio 0, bytes := 64 } false)])]

/-- KOROTTE_UDP_RECEIVE: the payload of a datagram that arrived on MAC k for a UDP port; an IP fragment is discarded, and another port's
datagram is no tunnel traffic. -/
def execKorotteUdpReceive (k : Fin 16) (prio : Fin 8) (port : BitVec 16) (fragment : Bool) (b : List (BitVec 8)) (s : State) :
    Host.Outcome State Fault Refusal :=
  (Act.whenS (fun s => domRuns s 56) (.all [
    takeRx k prio,
    .look fun s => Act.when (!fragment && decide (port.toNat = fld s A.klkUdpCtrl 31 16)) (match klkCheck b with
      | .error _ => bump A.klkUdpcnt 31 16
      | .ok f =>
        if bit s A.klkUdpCtrl (k / 8) && secureUp s k && decide (typeClass (frameType f) = some (frameClass f)) then
          .all [bump A.klkUdpcnt 15 0, klkDispatch f]
        else bump A.klkUdpcnt 31 16)])).next s

/-! ## Registers -/

/-- NEXT_HOP_WRITE: KLK_NH_DATA replaces the selected entry (R213). -/
def execNextHopWrite (v : BitVec 32) (s : State) : Host.Outcome State Fault Refusal :=
  (hostWrite A.klkNhData v (.look fun s => wr (A.nextHopOf (fld s A.klkNhSel 13 0)) (v &&& 0xC003FFFF#32))).next s

/-- KLK_STALL of link n as it reads: with the microseconds of the stalls that run. -/
def stallShown (s : State) (n : Nat) : Nat := [0, 1, 2, 3].foldl (fun v c =>
  let t := sget (fun _ => 0) (kLink s n).stallAt c
  v + min 255 (fld s (A.klkStall n) (8 * c + 7) (8 * c) + (if t = 0 then 0 else usSince s (t - 1))) * 2 ^ (8 * c)) 0
/-- KLK_CTRL.CNT_CLR (R236): a stall that runs counts from here. -/
def clearKlkCounters : Act := .all [
  clearRegs [A.klkFwdcnt, A.klkDropcnt, A.klkUdpcnt],
  Act.upto 8 fun n => clearRegs [A.klkTxfrm n, A.klkRxfrm n, A.klkRetry n, A.klkCrcerr n, A.klkFeccor n, A.klkFecunc n, A.klkStall n,
    A.klkLdrop n],
  .look fun s => updKlk fun k => { k with links := k.links.map fun p => (p.1, { p.2 with
    stallAt := p.2.stallAt.map fun t => (t.1, s.clk.mono + 1) }) }]
def execKlkCntClr (s : State) : Host.Outcome State Fault Refusal := (hostWriteFld A.klkCtrl 1 1 1 clearKlkCounters).next s

end Sys2Proof.Machine
end

