-- ==== Sys2Proof/Machine/Police.lean ====
section
/-!
DEFINITION. The ingress policers (spec/11_telemetry_traffic.md R300, R301).
-/

namespace Sys2Proof.Machine

/-- Colours of RFC 2697 and RFC 2698. -/
inductive Colour where
  | green | yellow | red
deriving DecidableEq, Repr

/-- Parts of a byte that buckets count in: a rate in kb/s adds one part per kb/s and tick. -/
abbrev polByte : Nat := 6144000

/-- Parameters in force of policer n: 0 CTRL, 1 CIR, 2 CBS, 3 PIR, 4 EPBS. -/
def polParam (s : State) (n i : Nat) : Word := rd s (A.policerOf n (8 + i))
/-- 0 off, 1 srTCM, 2 trTCM. -/
def polMode (v : Word) : Nat := let m := bits v 2 1; if m = 3 then 0 else m
def polBucket (s : State) (n : Nat) : PolBucket := sget (fun _ => {}) s.net.pols n
def setPol (n : Nat) (x : PolBucket) : Act := updNet fun t => { t with pols := sset (fun _ => {}) t.pols n x }

/-- The buckets now. In srTCM tokens that find C full go to E; in trTCM E holds the P bucket, filled at PIR. -/
def polNow (s : State) (n : Nat) : PolBucket :=
  let x := polBucket s n
  let d := s.clk.mono - x.at_
  let cir := bits (polParam s n 1) 26 0 * d
  let cbs := polByte * bits (polParam s n 2) 20 0
  let ebs := polByte * bits (polParam s n 4) 20 0
  if polMode (polParam s n 0) = 2 then
    { c := min cbs (x.c + cir), e := min ebs (x.e + bits (polParam s n 3) 26 0 * d), at_ := s.clk.mono }
  else { c := min cbs (x.c + cir), e := min ebs (x.e + (cir - (cbs - x.c))), at_ := s.clk.mono }

/-- POL_APPLY: parameters load together; buckets start full and are clipped (R300). -/
def polApply (n : Nat) : Act := .look fun s =>
  let w (i : Nat) := rd s (A.policerOf n i)
  if (decide (polMode (w 0) = 2) && decide (bits (w 3) 26 0 < bits (w 1) 26 0)) || decide (1048576 < bits (w 2) 20 0) ||
    decide (1048576 < bits (w 4) 20 0) then event A.polEvt 1 385 255 n
  else
    let cbs := polByte * bits (w 2) 20 0
    let ebs := polByte * bits (w 4) 20 0
    let x := polNow s n
    .all [
      Act.upto 5 fun i => wr (A.policerOf n (8 + i)) (w i),
      setPol n (if polMode (polParam s n 0) = 0 then { c := cbs, e := ebs, at_ := s.clk.mono }
        else { x with c := min cbs x.c, e := min ebs x.e })]

/-- The colour an arrival enters with (R301). -/
def polEnters (s : State) (n : Nat) (f : DgramFrame) : Colour :=
  let v := polParam s n 0
  match f.pcp with
  | some (p, dei) =>
    if !v.getLsbD 3 then .green
    else if v.getLsbD (16 + p) then .red
    else if dei || v.getLsbD (24 + p) then .yellow else .green
  | none => .green

/-- The colour it leaves with, and the buckets after it. -/
def polColour (s : State) (n : Nat) (f : DgramFrame) : Colour × PolBucket :=
  let x := polNow s n
  let b := polByte * f.bytes
  let pre := polEnters s n f
  if polMode (polParam s n 0) = 2 then
    if pre = .red ∨ x.e < b then (.red, x)
    else if pre = .yellow ∨ x.c < b then (.yellow, { x with e := x.e - b })
    else (.green, { x with c := x.c - b, e := x.e - b })
  else if pre = .green ∧ b ≤ x.c then (.green, { x with c := x.c - b })
  else if pre ≠ .red ∧ b ≤ x.e then (.yellow, { x with e := x.e - b })
  else (.red, x)

/-- A command of binding n meets its policer: it goes on as `body`, or is dropped in silence. -/
def police (n : Nat) (f : DgramFrame) (body : Act) : Act := .look fun s =>
  let v := polParam s n 0
  if polMode v = 0 then .all [bump (A.policerOf n 5) 31 0, body]
  else
    let (c, x) := polColour s n f
    .all [
      setPol n x,
      match c with
      | .green => .all [bump (A.policerOf n 5) 31 0, body]
      | .yellow => .all [bump (A.policerOf n 6) 31 0, if v.getLsbD 4 then bump (A.policerOf n 13) 31 0 else body]
      | .red => .all [bump (A.policerOf n 7) 31 0, bump (A.policerOf n 13) 31 0, event A.polEvt 0 384 255 n]]

def execPolApply (s : State) : Host.Outcome State Fault Refusal :=
  (hostWrite A.polApply 1#32 (.look fun s => polApply (fld s A.polSel 7 0))).next s

/-- POL_CTRL.CNT_CLR clears the selected policer's counters. -/
def clearPolCounters (n : Nat) : Act := clearRegs [A.policerOf n 5, A.policerOf n 6, A.policerOf n 7, A.policerOf n 13]
def execPolCntClr (s : State) : Host.Outcome State Fault Refusal :=
  (hostWriteFld A.polCtrl 0 0 1 (.look fun s => clearPolCounters (fld s A.polSel 7 0))).next s

end Sys2Proof.Machine
end

