-- ==== Sys2Proof/Machine/Queues.lean ====
section
/-!
DEFINITION. Queue pairs, doorbells, fetching, tags, command checks, completions, datagrams and events (spec/09_command_set.md
R237-R250).
-/

namespace Sys2Proof.Machine

/-! ## Queue pairs (R237, R238) -/

def pairOf (s : State) (q : Nat) : Option QPair := sget (fun _ => none) s.host.pairs q
def updPair (q : Nat) (f : QPair → QPair) : Act := updHost fun h => { h with pairs := smod (fun _ => none) h.pairs q (·.map f) }

/-- A queue's bit in Q_EXIST. -/
def setExist (q : Nat) (b : Bool) : Act :=
  if q < 32 then putBit A.qExist0 q b else if q < 64 then putBit A.qExist1 (q - 32) b else putBit A.qExist2 0 b

/-- The head of a completion queue as the host has written it. -/
def cqHeadOf (s : State) (q : Nat) : Nat := fld s (A.cqHead q) 11 0
def sqTailOf (s : State) (q : Nat) : Nat := fld s (A.sqTail q) 11 0
/-- A completion queue is full: its next slot is one the host has not freed. -/
def cqFull (s : State) (q : Nat) (p : QPair) : Bool := decide ((p.cqTail + 1) % p.cqSize = cqHeadOf s q)

/-- Make a queue pair: its heads, tails and doorbells start at 0. -/
def makePair (q : Nat) (p : QPair) : Act := .all [
  updHost fun h => { h with pairs := sset (fun _ => none) h.pairs q (some p) },
  clearRegs [A.sqTail q, A.cqHead q], setExist q true]
def dropPair (q : Nat) : Act := .all [
  updHost fun h => { h with
    pairs := sset (fun _ => none) h.pairs q none, evq := sset (fun _ => []) h.evq q [], evDrop := sset (fun _ => 0) h.evDrop q 0 },
  clearRegs [A.sqTail q, A.cqHead q], setExist q false]

/-- Write CMD_CTRL.EN: the admin pair exists with the sizes and bases of its registers; 0 ends it (log entry 24). -/
def writeAdminEn (v : Bool) : Act := .look fun s =>
  if v = bit s A.cmdCtrl 0 then .done
  else .all [putBit A.cmdCtrl 0 v,
    if v then makePair 0 {
      sqSize := fld s A.aqSize 11 0 + 1, cqSize := fld s A.aqSize 27 16 + 1, sqBase := rdPair s A.asqBaseLo A.asqBaseHi,
      cqBase := rdPair s A.acqBaseLo A.acqBaseHi, vec := 0 }
    else dropPair 0]

def execAdminQueueEnable (v : Bool) (s : State) : Host.Outcome State Fault Refusal :=
  (hostWriteFld A.cmdCtrl 0 0 v.toNat (writeAdminEn v)).next s

/-- A doorbell write: at or above the queue size, or on a queue that does not exist, it is ignored with DOORBELL_BAD. -/
def writeDoorbell (q : Nat) (sq : Bool) (v : Nat) : Act := .look fun s => match pairOf s q with
  | some p => if v < (if sq then p.sqSize else p.cqSize) then wrNat (if sq then A.sqTail q else A.cqHead q) v else event A.cmdEvt 1 350 104
  | none => event A.cmdEvt 1 350 104

def execSqDoorbell (q : Fin 65) (v : BitVec 32) (s : State) : Host.Outcome State Fault Refusal :=
  (hostWrite (A.sqTail q) v (writeDoorbell q true (v.toNat % 4096))).next s
def execCqDoorbell (q : Fin 65) (v : BitVec 32) (s : State) : Host.Outcome State Fault Refusal :=
  (hostWrite (A.cqHead q) v (writeDoorbell q false (v.toNat % 4096))).next s

/-! ## Tags and commands (R239, R240) -/

def cmdOf (s : State) (tag : Nat) : Option Cmd := s.host.cmds.find? fun c => c.tag == tag
def heldBy (s : State) (q : Nat) : Nat := (s.host.cmds.filter fun c => c.queue == q).length
/-- The lowest free tag for a queue: 0-127 for the admin's, 128-4,095 for the tenants', within the tenant's cap. -/
def freeTag (s : State) (q : Nat) : Option Nat :=
  if q = 0 then (List.range 128).find? fun t => (cmdOf s t).isNone
  else if fld s (A.tenantOf (q - 1) 2) 11 0 ≤ heldBy s q then none
  else (List.range' 128 3968).find? fun t => (cmdOf s t).isNone
/-- CMD_STAT's count of tags in use. -/
def showTags : Act := .look fun s => setFld A.cmdStat 12 0 s.host.cmds.length

/-- Opcodes of Tables CS-8 to CS-15. -/
def opcodes : List Nat :=
  List.range' 0x0101 10 ++ List.range' 0x0201 11 ++ List.range' 0x0301 12 ++ List.range' 0x0401 4 ++ List.range' 0x0501 3 ++
  List.range' 0x0601 6 ++ List.range' 0x0701 5 ++ List.range' 0x0801 3 ++ List.range' 0x0901 6

/-- A command takes a tag; one with an unknown opcode ends at once (Table CS-5 row 1). -/
def acceptCmd (tag q : Nat) (e : Entry) (dgram : Option (Nat × Nat × Source)) (payload : List Byte) : Act := .look fun s =>
  let known := opcodes.contains e.opcode.toNat
  .all [
    updHost fun h => { h with
      accepted := h.accepted + 1,
      cmds := h.cmds ++ [{ tag := tag, queue := q, num := s.host.accepted, entry := e, dgram := dgram, payload := payload, started := !known }] },
    showTags, Act.when (!known) (complete tag St.opcodeInvalid)]

/-- The device fetches from a queue (R238, R239). -/
def mayFetch (s : State) (q : Nat) : Bool := match pairOf s q with
  | some p => p.deleting.isNone && decide (sqTailOf s q ≠ p.sqHead) && !cqFull s q p && (freeTag s q).isSome
  | none => false

/-- The queue served next: the admin's, else the tenants' round-robin. -/
def nextQueue (s : State) : Option Nat :=
  if mayFetch s 0 then some 0
  else ((List.range 64).map fun i => 1 + (s.host.served + i) % 64).find? (mayFetch s)

/-- COMMAND_FETCH: the next entry, as it stands in host memory. -/
def execCommandFetch (e : Entry) (s : State) : Host.Outcome State Fault Refusal :=
  (Act.whenS (fun s => bit s A.cmdStat 31 && pcieUp s && supvRuns s) (.look fun s => match nextQueue s with
    | none => .done
    | some q => match freeTag s q with
      | none => .done
      | some t => .all [
        Act.each (pairOf s q).toList fun p => emit (.hostRead (p.sqBase + 64 * p.sqHead) 64),
        updPair q fun p => { p with sqHead := (p.sqHead + 1) % p.sqSize },
        updHost fun h => { h with served := if q = 0 then h.served else q },
        acceptCmd t q e none []])).next s

def Cmd.fence (c : Cmd) : Bool := c.entry.flags.getLsbD 0

/-- The objects that a command writes, which it does in acceptance order: 1 elements, 2 engines, 3 ports, 4 tenants, 5 map slots, 6
subscriptions, 7 source bindings, 8 MRAM records, and 9 what the security core does in turn; REG_WRITE may write any of them (R240, log entry 25). -/
def objClasses (op : Nat) : List Nat :=
  if op = 0x0703 then [1, 2, 3, 4, 5, 6, 7, 8]
  else if op = 0x0201 ∨ op = 0x0203 ∨ op = 0x0204 ∨ op = 0x0206 ∨ op = 0x0801 then [1, 3]
  else if op = 0x0304 ∨ op = 0x0305 ∨ op = 0x0306 ∨ op = 0x0307 then [1]
  else if op = 0x0302 ∨ op = 0x0303 then [1, 2]
  else if op = 0x0301 ∨ op = 0x030C then [2]
  else if op = 0x0309 ∨ op = 0x030A then [1, 8]
  else if op = 0x0208 ∨ op = 0x020B ∨ op = 0x0401 then [3]
  else if op = 0x0402 then [4] else if op = 0x0403 then [7]
  else if op = 0x0205 then [5, 8]
  else if op = 0x0601 ∨ op = 0x0602 then [6]
  else if op = 0x0108 ∨ op = 0x010A then [8]
  else if op = 0x0902 ∨ op = 0x0903 ∨ op = 0x0904 then [8, 9]
  else if op = 0x0901 ∨ op = 0x0905 ∨ op = 0x0906 then [9] else []
/-- Two commands write a common object class. -/
def sameObject (c d : Cmd) : Bool := (objClasses c.entry.opcode.toNat).any (objClasses d.entry.opcode.toNat).contains

/-- A command may start: its fence and those before it hold, and no earlier command that writes the same kind of object waits. -/
def mayStart (s : State) (c : Cmd) : Bool :=
  s.host.cmds.all fun d =>
    !decide (d.num < c.num) || ((decide (d.queue ≠ c.queue) || (!c.fence && !(d.fence && !d.started))) && (d.started || !sameObject c d))

/-! ## Checks (Table CS-5) -/

/-- What the tables say of an opcode: who may send it, its flags, list and lengths. -/
structure CmdSpec where
  op : Nat
  /-- Tenants may send it. -/
  tenant : Bool := false
  pcie : Bool := true
  dgram : Bool := true
  timed : Bool := false
  force : Bool := false
  /-- Range of COUNT for an opcode with a list. -/
  count : Option (Nat × Nat) := none
  /-- Status of a COUNT above the range (DEDUCED, log entry 136: R364 and R369 name one of their own). -/
  tooMany : Nat := St.countInvalid
  /-- LENGTH by the entry. -/
  len : Entry → Nat := fun _ => 0
  maxLen : Nat := 0
  /-- An empty list still runs (R247). -/
  empty : Bool := false
  /-- Bits of PARAM0-PARAM3 that may be set. -/
  masks : List Nat := []
  /-- Byte offset of a PARAM value out of range. -/
  bad : Entry → Option Nat := fun _ => none
  /-- Bytes of a fixed-size response. -/
  resp : Entry → Nat := fun _ => 0

/-- The PARAM words of an entry. -/
def entryParams (e : Entry) : List (BitVec 32) := [e.p0, e.p1, e.p2, e.p3]

/-- Row 3, in the order the row lists it: reserved fields and those that a datagram leaves 0, FLAGS, TIME, then PARAM0 to PARAM3, each by its
lowest byte (R398). -/
def fieldError (c : Cmd) (k : CmdSpec) : Option Nat :=
  let e := c.entry
  let f := e.flags.toNat
  let pcie := c.dgram.isNone
  if f / 16 ≠ 0 then some 4
  else if e.rsv6 ≠ 0#16 then some 6
  else if !pcie && e.dataAddr != 0#64 then some 16
  else if !pcie && e.respAddr != 0#64 then some 24
  else if e.rsv36 ≠ 0#32 then some 36
  else if (pcie && f.testBit 3) ∨ (f.testBit 2 && !k.force) ∨ (f.testBit 1 && !k.timed) then some 4
  else if e.time ≠ 0#64 && !f.testBit 1 then some 40
  else (List.range 4).findSome? fun i =>
    if ((entryParams e).getD i 0#32) &&& ~~~(BitVec.ofNat 32 (k.masks.getD i 0)) ≠ 0#32 then some (48 + 4 * i)
    else (k.bad e).filter fun o => decide (o = 48 + 4 * i)

/-- Rows 2 to 8: the first that fails, with RESULT0. -/
def checkCmd (c : Cmd) (k : CmdSpec) : Option (Nat × Nat) :=
  let e := c.entry
  let n := e.count.toNat
  if (decide (c.queue ≠ 0) && !k.tenant) || (c.dgram.isNone && !k.pcie) || (c.dgram.isSome && !k.dgram) then some (St.adminOnly, 0)
  else match fieldError c k with
    | some o => some (St.fieldInvalid, o)
    | none =>
      if e.length = 0xFFFFFFFF#32 then some (St.lengthInvalid, 0)
      else if decide (n ≠ 0xFFFFFFFF) && k.count.any (fun x => decide (x.2 < n)) then some (k.tooMany, 0)
      else if decide (n = 0xFFFFFFFF) || (match k.count with
          | some (lo, _) => decide (n < lo) && decide (n ≠ 0)
          | none => decide (n ≠ 0)) then some (St.countInvalid, 0)
      else if min k.maxLen 1048576 < e.length.toNat then some (St.lengthExceeds, 0)
      else if e.length.toNat ≠ k.len e then some (St.lengthMismatch, 0)
      else if e.respLen.toNat < k.resp e then some (St.respTooSmall, k.resp e) else none

/-- A command runs: it holds the tag, names the opcode and may start; the checks; the fetch of its payload; then what it does. A list
of no entries succeeds at once, where the opcode gives it no meaning (R246, R247). -/
def runCmd (k : CmdSpec) (tag : Nat) (dma : Dma) (body : Cmd → List Byte → Act) : Act := .whenS supvRuns (.look fun s =>
  match cmdOf s tag with
  | none => .done
  | some c =>
    if decide (c.entry.opcode.toNat ≠ k.op) || c.started || !mayStart s c then .done
    else .all [
      updHost fun h => { h with cmds := h.cmds.map fun d => if d.tag = tag then { d with started := true } else d },
      match checkCmd c k with
      | some (st, r0) => complete tag st r0
      | none =>
        let n := c.entry.length.toNat
        if c.entry.count = 0#32 && k.count.isSome && !k.empty then complete tag St.success
        else if c.dgram.isSome || decide (n = 0) then (match c.bad with
          | some o => complete tag St.dmaError o
          | none => if c.payload.length < n then complete tag St.dmaError c.payload.length else body c (slice c.payload 0 n))
        else .all [emit (.hostRead c.entry.dataAddr.toNat n), match dma with
          | .bytes l => body c (slice l 0 n)
          | .error o => .all [event A.cmdEvt 0 349 104, complete tag St.dmaError o]]])

/-- The party that a command acts for: a tenant, or the admin (64). -/
def Cmd.party (c : Cmd) : Nat := if c.queue = 0 then 64 else c.queue - 1

/-! ## Completions (R242, R243, R249) -/

/-- The 16 bytes of a completion entry (Table CS-3). -/
def completionBytes (c : Cmd) (d : Completion) (sqHead : Nat) (phase : Bool) : List Byte :=
  natLe 2 c.entry.cid.toNat ++ natLe 2 sqHead ++ natLe 2 d.status ++ natLe 2 (phase.toNat * 32768 + c.queue) ++ natLe 4 d.r0 ++
  natLe 4 (if d.data.isEmpty then d.r1 else d.data.length)

/-- The tag is freed and the command counted. -/
def retire (c : Cmd) (d : Completion) : Act := .all [
  updHost fun h => { h with cmds := h.cmds.filter fun x => decide (x.tag ≠ c.tag), done := h.done.filter fun x => decide (x ≠ d) },
  showTags, bump A.cmdCnt 31 0,
  Act.when (decide (0 < c.queue)) (.all [
    bump (A.tenantOf (c.queue - 1) 4) 15 0, Act.when (decide (d.status ≠ 0)) (bump (A.tenantOf (c.queue - 1) 5) 15 0)])]

/-- The response datagram (R243). -/
def responseBytes (c : Cmd) (d : Completion) (seq : Nat) : List Byte :=
  natLe 2 0x4B43 ++ natLe 2 1 ++ natLe 4 seq ++ completionBytes c d 0 false ++ d.data.take (min c.entry.respLen.toNat 8936)

/-- A response goes back to the UDP source or the Korotte SRC address (R210, R243). -/
def sendResponse (src : Source) (l : List Byte) : Act := match src with
  | .sci k _ v6 ip port => .look fun s => sendOwn k qResponse v6 ip.toNat (fld s A.cmdUdp 31 16) port.toNat l
  | .korotte a => klkSend (if l.length ≤ 1024 then 3 else 4) a l

/-- Whether a completion can be posted or discarded now. -/
def postable (s : State) (d : Completion) : Bool := match cmdOf s d.tag with
  | none => true
  | some c => c.dgram.isSome || !pcieUp s || (match pairOf s c.queue with
    | some p => c.dropped || !cqFull s c.queue p
    | none => true)

/-- Post one completion: response data first, then the entry, then the vector. A completion that has nowhere to go is discarded. -/
def postOne (d : Completion) : Act := .look fun s => match cmdOf s d.tag with
  | none => updHost fun h => { h with done := h.done.filter fun x => decide (x ≠ d) }
  | some c => match c.dgram with
    | some (b, seq, src) =>
      let r := responseBytes c d seq
      .all [
        updHost fun h => { h with seqs := smod (fun _ => []) h.seqs b fun l => l.map fun x =>
          if x.seq = seq then { x with response := some r } else x },
        sendResponse src r, retire c d]
    | none => match pairOf s c.queue with
      | some p =>
        if !pcieUp s || c.dropped then retire c d
        else .all [
          Act.when (!d.data.isEmpty) (emit (.response d.tag c.entry.respAddr.toNat (d.data.take c.entry.respLen.toNat))),
          emit (.completion c.queue (p.cqBase + 16 * p.cqTail) (completionBytes c d p.sqHead p.phase)),
          updPair c.queue fun p => { p with
            cqTail := (p.cqTail + 1) % p.cqSize, phase := if p.cqTail + 1 = p.cqSize then !p.phase else p.phase },
          retire c d, raiseMsix p.vec,
          .whenS (fun s => (pairOf s c.queue).any (cqFull s c.queue)) (event A.cmdEvt 3 352 104)]
      | none => retire c d

def execCompletionPost (s : State) : Host.Outcome State Fault Refusal :=
  (Act.whenS (fun s => !domInReset s 58) (.look fun s => match s.host.done.find? (postable s) with
    | some d => postOne d
    | none => .done)).next s

/-! ## Command datagrams (R243-R245) -/

/-- Binding n names this source. -/
def bindingIs (s : State) (n : Nat) (src : Source) : Bool :=
  bit s (A.bindingOf n 0) 31 && (match src with
    | .sci k id _ _ _ => decide (fld s (A.bindingOf n 0) 23 22 = 0) && (bit s (A.bindingOf n 0) 21 == decide (8 ≤ k.val)) &&
        decide (rdPair s (A.bindingOf n 1) (A.bindingOf n 2) = id.toNat)
    | .korotte a => decide (fld s (A.bindingOf n 0) 23 22 = 1) && decide (fld s (A.bindingOf n 1) 13 0 = a.val))
def findBinding (s : State) (src : Source) : Option Nat := (List.range 256).find? fun n => bindingIs s n src
/-- The queue of a binding. -/
def bindingQueue (s : State) (n : Nat) : Nat := let b := fld s (A.bindingOf n 0) 30 24; if 64 ≤ b then 0 else b + 1

/-- The submission entry of 64 bytes (Table CS-1). -/
def entryOf (l : List Byte) : Entry :=
  { opcode := BitVec.ofNat 16 (leAt l 0 2), cid := BitVec.ofNat 16 (leAt l 2 2), flags := BitVec.ofNat 16 (leAt l 4 2),
    rsv6 := BitVec.ofNat 16 (leAt l 6 2), length := BitVec.ofNat 32 (leAt l 8 4), count := BitVec.ofNat 32 (leAt l 12 4),
    dataAddr := BitVec.ofNat 64 (leAt l 16 8), respAddr := BitVec.ofNat 64 (leAt l 24 8), respLen := BitVec.ofNat 32 (leAt l 32 4),
    rsv36 := BitVec.ofNat 32 (leAt l 36 4), time := BitVec.ofNat 64 (leAt l 40 8), p0 := BitVec.ofNat 32 (leAt l 48 4),
    p1 := BitVec.ofNat 32 (leAt l 52 4), p2 := BitVec.ofNat 32 (leAt l 56 4), p3 := BitVec.ofNat 32 (leAt l 60 4) }

/-- HBM address of a binding's staging buffer. -/
abbrev stagingOf (n : Nat) : Nat := 0x504000000 + n * 0x100000

/-- A datagram answered without running. -/
def answerNow (src : Source) (q : Nat) (e : Entry) (seq status : Nat) : Act :=
  sendResponse src (responseBytes { tag := 0, queue := q, num := 0, entry := e } { tag := 0, status := status } seq)

/-- A datagram that is dropped without response: counted, with DGRAM_DROP. -/
def dropDatagram (b : Option Nat) : Act := .all [
  bump A.dgramCnt 31 16,
  Act.each b.toList fun n => bump (A.bindingOf n 4) 31 16,
  event A.cmdEvt 2 351]

/-- SEQ − h for h, the highest SEQ accepted (R244). -/
def seqAhead (seq h : Nat) : Int := signed 32 (seq % 2 ^ 32 + 2 ^ 32 - h)

/-- A SEQ is accepted: those that have left the window of 64 below h are forgotten. -/
def noteSeq (l : List SeqSeen) (seq h : Nat) : List SeqSeen := l.filter (fun x => decide (-64 < seqAhead x.seq h)) ++ [{ seq := seq }]

/-- A datagram accepted as new: it takes a tag, or is answered BUSY, which accepts nothing (log entry 121); a copy of the staging buffer is
taken at acceptance, and without HBM such a command fails with NOT_READY (R308), with an uncorrectable line with DMA_ERROR (Table MM-6). -/
def acceptDatagram (src : Source) (b q seq : Nat) (e : Entry) (inline : List Byte) : Act := .look fun s => match freeTag s q with
  | none => answerNow src q e seq St.busy
  | some t =>
    let first := (sget (fun _ => []) s.host.seqs b).isEmpty
    let h0 := (rd s (A.bindingOf b 3)).toNat
    let h := if first || decide (0 < seqAhead seq h0) then seq else h0
    let buf := e.flags.getLsbD 3
    let payload := if buf then (hbmAt s (stagingOf b) (min e.length.toNat 1048576)) else inline
    .all [
      bump A.dgramCnt 15 0, bump (A.bindingOf b 4) 15 0, wrNat (A.bindingOf b 3) h,
      updHost fun x => { x with seqs := smod (fun _ => []) x.seqs b fun l => noteSeq l seq h },
      acceptCmd t q e (some (b, seq, src)) payload,
      Act.when buf (updHost fun h => { h with cmds := h.cmds.map fun d => if d.tag = t then
        { d with bad := (List.range e.length.toNat).find? fun o => s.hbmBad.contains ((stagingOf b + o) / 64) } else d }),
      Act.when (buf && !bit s A.hbmStat 31 && opcodes.contains e.opcode.toNat) (.all [
        updHost fun h => { h with cmds := h.cmds.map fun d => if d.tag = t then { d with started := true } else d },
        complete t St.notReady])]

/-- The SEQ check of a binding (R244). -/
def seqCheck (src : Source) (b : Nat) (l : List Byte) : Act := .look fun s =>
  let seq := leAt l 4 4
  let e := entryOf ((l.drop 8).take 64)
  let q := bindingQueue s b
  let seen := sget (fun _ => []) s.host.seqs b
  let d := seqAhead seq (rd s (A.bindingOf b 3)).toNat
  if seen.isEmpty || decide (0 < d) then acceptDatagram src b q seq e (l.drop 72)
  else if d ≤ -64 then answerNow src q e seq St.seqStale
  else match seen.find? fun x => x.seq == seq with
    | none => acceptDatagram src b q seq e (l.drop 72)
    | some x => Act.each x.response.toList (sendResponse src)

/-- A datagram came by a secure channel that is up on a port that CMD_UDP enables, or by Korotte (R243). -/
def sourceSecure (s : State) : Source → Bool
  | .sci k .. => secureUp s k && bit s A.cmdUdp (k / 8)
  | .korotte _ => true

/-- The frame as the policer sees it: a command that arrives on a Korotte link has no PCP (R301). -/
def arrival (src : Source) (f : DgramFrame) : DgramFrame := match src with
  | .sci .. => f
  | .korotte _ => { f with pcp := none }

/-- DATAGRAM_RECEIVE: header, entry and payload from a source. It leaves the ingress buffer; then binding, policer and SEQ (R244, R300). -/
def execDatagramReceive (src : Source) (f : DgramFrame) (l : List (BitVec 8)) (s : State) : Host.Outcome State Fault Refusal :=
  (Act.whenS supvRuns (.all [
    (match src with
      | .sci k .. => takeRx k ((f.pcp.map (·.1.val)).getD 0)
      | .korotte _ => .done),
    .whenS (fun s => bit s A.cmdStat 31 && sourceSecure s src) (.look fun s => match findBinding s src with
      | none => dropDatagram none
      | some b => police b (arrival src f) (
        if l.length < 72 ∨ leAt l 0 2 ≠ 0x4B43 ∨ leAt l 2 2 ≠ 0 then dropDatagram (some b) else seqCheck src b l))])).next s

/-! ## Events and EVENT_WAIT (R250) -/

/-- The records an EVENT_WAIT takes: up to n, oldest first; the first carries the count of those dropped. -/
def takeEvents (tag q n : Nat) : Act := .look fun s =>
  let l := sget (fun _ => []) s.host.evq q
  let drop := sget (fun _ => 0) s.host.evDrop q
  .all [
    updHost fun h => { h with
      evq := sset (fun _ => []) h.evq q (l.drop n), evDrop := sset (fun _ => 0) h.evDrop q 0,
      waits := h.waits.filter fun w => decide (w.tag ≠ tag) },
    complete tag St.success 0 0 (match l.take n with
      | [] => []
      | e :: r => e.bytes drop ++ r.flatMap fun x => x.bytes 0)]

/-- EVENT_WAIT_COMPLETE: the oldest wait of a queue that holds a record (R250). -/
def execEventWaitComplete (s : State) : Host.Outcome State Fault Refusal :=
  (Act.whenS supvRuns (.look fun s => match s.host.waits.find? fun w => !(sget (fun _ => []) s.host.evq w.queue).isEmpty with
    | some w => takeEvents w.tag w.queue w.count
    | none => .done)).next s

/-! ## Deletion and link loss (R249) -/

/-- QUEUE_DELETE_DONE: the last tag of a deleted queue is freed, its QUEUE_DELETE completes and the pair is gone. -/
def execQueueDeleteDone (q : Fin 65) (s : State) : Host.Outcome State Fault Refusal :=
  (Act.look fun s => match (pairOf s q).bind (·.deleting) with
    | some tag => Act.when (decide (heldBy s q = 0)) (.all [dropPair q, complete tag St.success])
    | none => .done).next s

/-- PCIE_LINK_UP: the link trains with a width and a speed (Table CS-19). -/
def execPcieLinkUp (width : Fin 16) (speed : Fin 6) (s : State) : Host.Outcome State Fault Refusal :=
  (Act.whenS (fun s => bit s A.optStat 31 && !domInReset s 57 && !domInReset s 58 && !fifoHeld s 57 && !fifoHeld s 58) (.all [
    setFld A.pciLstat 8 8 1, setFld A.pciLstat 7 4 width, setFld A.pciLstat 3 0 speed])).next s

/-- The link is lost: fetching stops, and waiting completions can no longer be posted. -/
def pcieDown : Act := .whenS pcieUp (.all [setFld A.pciLstat 8 0 0, event A.pciEvt 2 355 104])

def execPcieLinkLoss (s : State) : Host.Outcome State Fault Refusal := pcieDown.next s

/-- PCIE_AER_ERROR: a correctable or an uncorrectable link error (Table CS-19). -/
def execPcieAerError (uncorrectable : Bool) (s : State) : Host.Outcome State Fault Refusal :=
  (Act.whenS (fun s => !domInReset s 58) (if uncorrectable then .all [bump A.pciErrcnt 31 16, event A.pciEvt 1 354 104]
    else .all [bump A.pciErrcnt 15 0, event A.pciEvt 0 353 104])).next s

/-- CMD_CTRL.CNT_CLR (R256). -/
def clearCmdCounters : Act := .all [
  clearRegs [A.cmdCnt, A.dgramCnt, A.pciErrcnt],
  Act.upto 64 fun t => clearRegs [A.tenantOf t 4, A.tenantOf t 5],
  Act.upto 256 fun n => clearRegs [A.bindingOf n 4]]
def execCmdCntClr (s : State) : Host.Outcome State Fault Refusal := (hostWriteFld A.cmdCtrl 1 1 1 clearCmdCounters).next s

end Sys2Proof.Machine
end

