-- ==== Sys2Proof/Machine/CmdAdmin.lean ====
section
/-!
DEFINITION. The ADMIN commands (spec/09_command_set.md Table CS-8).
-/

namespace Sys2Proof.Machine

/-- LENGTH = COUNT, and LENGTH = n x COUNT. -/
def lenCount (e : Entry) : Nat := e.count.toNat
def lenTimes (n : Nat) (e : Entry) : Nat := n * e.count.toNat
/-- A PARAM outside a range: the offset it is reported at. -/
def paramIn (i lo hi : Nat) (e : Entry) : Option Nat :=
  let v := ((entryParams e).getD i 0#32).toNat
  if lo ≤ v ∧ v ≤ hi then none else some (48 + 4 * i)

/-- The 32-bit words of registers, in order. -/
def regBytes (s : State) (l : List Nat) : List Byte := l.flatMap fun a => natLe 4 (rd s a).toNat

/-- IDENTIFY: what the response holds, in the order the table lists it, each as 32-bit words, then zeros to 256 bytes (DESIGN CHOICE, log
entry 26). -/
def identifyData (s : State) (c : Cmd) : List Byte :=
  let l := regBytes s ([A.idPart, A.idStep, A.idVariant] ++ (List.range 4).map A.idSerial) ++
    natLe 4 (rd s A.idStep).toNat ++ natLe 4 (rd s A.idVariant).toNat ++ natLe 4 (rd s A.klkAddr).toNat ++
    natLe 4 c.queue ++ natLe 4 (if c.queue = 0 then 0x40 else c.party) ++
    natLe 4 (if c.queue = 0 then 0x3F else fld s (A.tenantOf c.party 0) 15 0)
  l ++ List.replicate (256 - l.length) 0#8

def execIdentify (tag : Fin 4096) (s : State) : Host.Outcome State Fault Refusal :=
  (runCmd { op := 0x0101, tenant := true, resp := fun _ => 256 } tag (.bytes []) fun c _ => .look fun s =>
    complete tag St.success 0 0 (identifyData s c)).next s

/-- QUEUE_CREATE: the pair must not exist, its sizes be 2 to 4,096 entries, its bases be 4 KiB aligned, its vector be 0 to 64. -/
def execQueueCreate (tag : Fin 4096) (s : State) : Host.Outcome State Fault Refusal :=
  (runCmd { op := 0x0102, dgram := false, masks := [0x7F, 0x0FFF0FFF, 0x7F], bad := paramIn 0 1 64 } tag (.bytes []) fun c _ => .look fun s =>
    let e := c.entry
    let q := e.p0.toNat
    let p : QPair := {
      sqSize := bits e.p1 11 0 + 1, cqSize := bits e.p1 27 16 + 1, sqBase := e.dataAddr.toNat, cqBase := e.respAddr.toNat, vec := e.p2.toNat }
    if (pairOf s q).isSome || decide (p.sqSize < 2) || decide (p.cqSize < 2) || decide (p.sqBase % 4096 ≠ 0) ||
      decide (p.cqBase % 4096 ≠ 0) || decide (64 < p.vec) then complete tag St.queueInvalid
    else .all [makePair q p, complete tag St.success]).next s

/-- QUEUE_DELETE: fetching stops at once, commands that have not started end with ABORTED, of those that have the completion is discarded; it completes when the last tag of the queue
is freed (R249). -/
def execQueueDelete (tag : Fin 4096) (s : State) : Host.Outcome State Fault Refusal :=
  (runCmd { op := 0x0103, dgram := false, masks := [0xFFFFFFFF], bad := paramIn 0 1 64 } tag (.bytes []) fun c _ => .look fun s =>
    let q := c.entry.p0.toNat
    match pairOf s q with
    | none => complete tag St.queueInvalid
    | some p =>
      if p.deleting.isSome then complete tag St.queueInvalid
      else .all [
        updPair q fun p => { p with deleting := some tag.val },
        updHost fun h => { h with cmds := h.cmds.map fun y => if y.queue = q && y.started && y.dgram.isNone then { y with dropped := true } else y },
        Act.each (s.host.cmds.filter fun x => x.queue == q && !x.started && x.dgram.isNone) fun x => .all [
          updHost fun h => { h with cmds := h.cmds.map fun y => if y.tag = x.tag then { y with started := true } else y },
          complete x.tag St.aborted]]).next s

/-- BUF_WRITE: a datagram's own payload goes to its binding's staging buffer (R245). -/
def execBufWrite (tag : Fin 4096) (s : State) : Host.Outcome State Fault Refusal :=
  (runCmd { op := 0x0104, tenant := true, pcie := false, count := some (1, 8888), len := lenCount, maxLen := 8888, masks := [0xFFFFFFFF] }
    tag (.bytes []) fun c l => .look fun s =>
      let o := c.entry.p0.toNat
      if !bit s A.hbmStat 31 then complete tag St.notReady
      else if 1048576 < o + l.length then complete tag St.bufferRange
      else match c.dgram with
        | some (b, _) => .all [writeHbm (stagingOf b + o) l, complete tag St.success]
        | none => complete tag St.adminOnly).next s

/-- EVENT_WAIT: up to 16 may wait on a queue (R250). -/
def execEventWait (tag : Fin 4096) (s : State) : Host.Outcome State Fault Refusal :=
  (runCmd { op := 0x0105, tenant := true, count := some (0, 64), resp := lenTimes 32 } tag (.bytes []) fun c _ => .look fun s =>
    if 16 ≤ (s.host.waits.filter fun w => w.queue == c.queue).length then complete tag St.busy
    else updHost fun h => { h with waits := h.waits ++ [{ tag := tag, queue := c.queue, count := c.entry.count.toNat }] }).next s

/-- EVENT_LOG_READ: records from an index on, counted from reset; those the ring no longer holds are out of range (R250), and
those on an uncorrectable line are skipped (Table MM-6). -/
def execEventLogRead (tag : Fin 4096) (s : State) : Host.Outcome State Fault Refusal :=
  (runCmd { op := 0x0106, masks := [0xFFFFFFFF] } tag (.bytes []) fun c _ => .look fun s =>
    let i := c.entry.p0.toNat
    if !bit s A.hbmStat 31 then complete tag St.notReady
    else if s.host.logNext ≤ i ∨ i + eventLogLen < s.host.logNext then complete tag St.logRange
    else
      let at_ (k : Nat) : Nat := eventLogBase + 32 * ((i + k) % eventLogLen)
      complete tag St.success 0 0 (((List.range (s.host.logNext - i)).filter fun k => !s.hbmBad.contains (at_ k / 64)).flatMap fun k =>
        hbmAt s (at_ k) 32)).next s

/-- FAULT_LOG_READ: the MRAM fault log from a byte offset on. -/
def execFaultLogRead (tag : Fin 4096) (s : State) : Host.Outcome State Fault Refusal :=
  (runCmd { op := 0x0107, masks := [0xFFFFFFFF], bad := fun e => if e.p0.toNat % 64 = 0 then none else some 48 } tag (.bytes [])
    fun c _ => .look fun s =>
      let o := c.entry.p0.toNat
      if !bit s A.nvmStat 31 then complete tag St.notReady
      else if 0x100000 < o then complete tag St.logRange
      else if mramSpanBad s (0x100000 + o) (min (0x100000 - o) c.entry.respLen.toNat) then .all [
        Act.each (s.mramBad.find? fun w => decide ((0x100000 + o) / 8 ≤ w ∧ w < (0x100000 + o + min (0x100000 - o) c.entry.respLen.toNat + 7) / 8)).toList
          fun w => mramUe w 1 102,
        complete tag St.nvmUncorr]
      else complete tag St.success 0 0 (mramAt s (0x100000 + o) (0x100000 - o))).next s

/-- Bits [1:0] of SECURITY: the enforcement options. -/
def enforceBits (img : List Byte) : Nat := leAt img 20 1 % 4

/-- OPTION_WRITE: a whole image, checked and stored with the next GENERATION (R319). It cannot clear an enforcement option. -/
def execOptionWrite (tag : Fin 4096) (dma : Dma) (s : State) : Host.Outcome State Fault Refusal :=
  (Act.whenS (fun s => !imageTxnPending s) (runCmd { op := 0x0108, count := some (4096, 4096), len := lenCount, maxLen := 4096 } tag dma fun _ img => .look fun s =>
    let old := (optChoose s).1
    match optError img with
    | some o => complete tag St.payloadInvalid o
    | none =>
      if enforceBits old &&& (3 - enforceBits img) ≠ 0 then complete tag St.sigRequired
      else if mramStatus s ≠ 0 then complete tag (mramStatus s)
      else
        let new := optSeal img (leAt old 8 4 + 1)
        queueTxn { options := some new, after := .options new none, tag := some tag.val })).next s

/-- CHIP_RESET: the completion is posted, then the chip resets with cause software (Table CK-4). -/
def execChipReset (tag : Fin 4096) (s : State) : Host.Outcome State Fault Refusal :=
  (runCmd { op := 0x0109, masks := [0xFFFFFFFF], bad := paramIn 0 0x0C0FFEE0 0x0C0FFEE0 } tag (.bytes []) fun _ _ => .all [
    complete tag St.success,
    .look fun s => Act.each ((s.host.done.filter fun d => d.tag == tag.val && postable s d)) postOne,
    resetRequest 3]).next s

/-- PARK_TABLE_WRITE: a whole image, checked as R321 states; one commit at a time. -/
def execParkTableWrite (tag : Fin 4096) (dma : Dma) (s : State) : Host.Outcome State Fault Refusal :=
  (runCmd { op := 0x010A, count := some (46240, 46240), len := lenCount, maxLen := 46240 } tag dma fun _ img => .look fun s =>
    if !bit s A.nvmStat 31 then complete tag St.notReady
    else if bit s A.nvmStat 29 then complete tag St.opBusy
    else match parkError img (parkActive s img) with
      | some o => .all [parkRefused o, complete tag St.payloadInvalid o]
      | none => storePark img (some tag.val)).next s

end Sys2Proof.Machine
end

