-- ==== Sys2Proof/Machine/Initial.lean ====
section
/-!
DEFINITION. The initial words of SLP-1 and those that follow the topology table (spec/06_standard_loop.md R146-R149, Tables SL-1 and
SL-2; spec/03_converters.md R77).
-/

namespace Sys2Proof.Machine

/-- The input port that an input VOA serves. -/
def inputPort (s : State) (n : Nat) : Option Nat :=
  if inputVoa s n then s.fab.topo.bind fun t => ((voaPort t n).filter fun r => !r.output).map (·.port) else none

/-- The tone frequency of an element in units of 4 MHz / 2^32 (R77). -/
def planFreq (s : State) (n : Nat) : Nat := match inputPort s n with
  | some p => ((rd s A.pilotBase).toNat + p * (rd s A.pilotStep).toNat) % 2 ^ 32
  | none => ((rd s A.ditherLo).toNat + loopOf n * 6442451) % 2 ^ 32

/-- The angle 2 pi FREQ / 2^32 in fixed point. -/
def toneAngle (s : State) (n : Nat) : Nat := 2 * fxPi * planFreq s n / 2 ^ 32

/-- LI_GAIN until it is characterised: 2 / (pi^2 G_NOM TONE_A). Without a tone it is not used and stays 0 (DESIGN CHOICE, log entry 27). -/
def initialLiGain (n : Nat) : Act := .look fun s =>
  let g := elemWord s n wGNOM
  let a := elemWord s n wTONEA
  setElemWord n wLIGAIN (if Fp.mag a = 0 ∨ Fp.mag g = 0 then f0
    else Fp.ofRat (Fp.neg g) (2 * fxOne * fxOne * 2 ^ 298) (fxPi * fxPi * Fp.mag g * Fp.mag a))

/-- The words that follow the element's kind and port. An output VOA carries no tone (R13; DESIGN CHOICE, log entry 27); an
uncharacterised VOA's LOL_THR is that of R183. -/
def kindWords (n : Nat) : Act := .look fun s =>
  let voa := elemVoa s n
  let x := toneAngle s n
  .all [
    setElemWord n wKIND (if voa then f1 else f0), setElemWord n wSGN (if voa then fMinus1 else f1),
    setElemWord n wLOLTHR (if voa then 0x3A03126F#32 else 0x3B83126F#32),
    setElemWord n wTONEIDX (match inputPort s n with
      | some p => Fp.ofNat p
      | none => Fp.ofNat (loopOf n)),
    setElemWord n wTONEA (if voa then f0 else 0x3CA3D70A#32),
    setElemWord n wCW (Fp.ofFxInt (fxCos x)), setElemWord n wSW (Fp.ofFxInt (fxSin x)),
    setPilot n, initialLiGain n]

/-- The initial words of Table SL-2 that are neither 0.0 nor PARK_V, nor follow the kind. -/
def initialWords : List (Nat × Word) := [
  (wSTATE, f1), (wRHOLAST, f1), (24, 0x3E800000#32), (25, 0x3E000000#32), (27, 0xBF700000#32), (28, 0x3F700000#32),
  (32, 0x3E800000#32), (33, 0x3E000000#32), (35, 0xBF700000#32), (36, 0x3F700000#32), (wRHO, f1), (wLOLGRACE, 0x42200000#32),
  (wC, f1), (wDMC, f1), (wLIBAND, 0x3DA3D70A#32), (wLIALPHA, 0x3E800000#32), (wGNOM, f1), (wVREF, fHalf),
  (wCALDWELL, 0x41000000#32), (wCALCNT, 0x41000000#32), (wLIE, fMinus1)]

/-- Every word of Tables SL-1 and SL-2 of an element, in all three windows (R146). -/
def initialElem (n : Nat) : Act := .look fun s =>
  let p := parkVolts s n
  .all [
    Act.upto 104 fun w => setElemWord n w ((initialWords.lookup w).getD
      (if w = wINTEG ∨ w = wULAST ∨ w = wPARKV ∨ w = wCALV ∨ w = wCALVLAST then p else f0)),
    Act.upto 3 fun b => Act.upto 8 fun k => setElemWord n (104 + 8 * b + k)
      (if k = 1 then f1 else if k = 5 then 0x467A0000#32 else if k = 6 then 0x40800000#32
       else if k = 7 then (if elemVoa s n then 0x3BA3D70A#32 else 0x3CA3D70A#32) else f0),
    kindWords n]

/-- A topology table was loaded: words that follow the kind change where class Q words may be written, in the engines that hold
SLP-1; what a characterisation measured stays (R147, log entry 28). -/
def topologyWords : Act := .look fun s => Act.each (listedElems s) fun n =>
  let e := engineOf n
  Act.when (bankRom s e (actBank s e) && (elemIs s n wSTATE f0 || elemIs s n wSTATE f1 || elemIs s n wSTATE 0x40A00000#32) &&
    !((supOf s n).charact && elemIs s n wKIND (if elemVoa s n then f1 else f0))) (kindWords n)

end Sys2Proof.Machine
end

