-- ==== Sys2Proof/Machine/CmdFabric.lean ====
section
/-!
DEFINITION. The FABRIC commands (spec/09_command_set.md Table CS-9, R252, R253).
-/

namespace Sys2Proof.Machine

/-- The instant of a TIMED entry. -/
def timedOf (e : Entry) : Option Nat := if e.flags.getLsbD 1 then some e.time.toNat else none

/-- The right, the synchronised time and the checks of Table CM-1 on a TIMED command; 0 where all hold. -/
def timedStatus (s : State) (c : Cmd) : Nat := match timedOf c.entry with
  | none => 0
  | some t =>
    if !hasRight s c.party rtTimed then St.rightMissing
    else if !timeSync s then St.timeUnsync
    else timeStatus s t (leadNs s + 40000) St.commitTNear

/-- A request joins the pipeline, or is rejected with the first check that fails. -/
def submit (tag : Nat) (c : Cmd) (st : Nat × Nat) (ask : Ask) : Act := .look fun s =>
  if st.1 ≠ 0 then complete tag st.1 st.2
  else
    let t := timedStatus s c
    if t ≠ 0 then complete tag t else addReq (.command tag) c.party ask (timedOf c.entry)

/-- CONN_CHANGE; with no entry it is a barrier (R175, R252). -/
def execConnChange (tag : Fin 4096) (dma : Dma) (s : State) : Host.Outcome State Fault Refusal :=
  (runCmd { op := 0x0203, tenant := true, timed := true, count := some (0, 1024), len := lenTimes 8, maxLen := 8192, empty := true,
            resp := lenTimes 8 } tag dma fun c img => .look fun s =>
    let ws := words64 img
    let l := ws.map changeOf
    if l.isEmpty then updPipe fun p => { p with barriers := p.barriers ++ [{ tag := tag, id := p.nextId }], nextId := p.nextId + 1 }
    else
      let form := (badIndex (fun w => decide (cut w 33 32 = 0) || (changeOf w).del) ws).map fun i => (St.mapInvalid, i)
      submit tag c ((if s.fab.topo.isSome then form else none).getD (firstFailing (askChecks s c.party (.changes l)))) (.changes l)).next s

/-- What a map image fails before its connections are looked at: its reserved fields and CRC, its TOPO_ID (R23, R25). -/
def mapFormStatus (s : State) (img : List Byte) : Nat :=
  if !mapFormOk img then St.mapInvalid
  else if s.fab.topo.any fun t => decide (leAt img 0 4 ≠ t.id) then St.topologyMismatch else 0

/-- MAP_REPLACE. -/
def execMapReplace (tag : Fin 4096) (dma : Dma) (s : State) : Host.Outcome State Fault Refusal :=
  (runCmd { op := 0x0204, tenant := true, timed := true, count := some (0, 1024), len := fun e => 16 + 8 * e.count.toNat, maxLen := 8208,
            empty := true, resp := lenTimes 8 } tag dma fun c img => .look fun s =>
    if leAt img 4 2 ≠ c.entry.count.toNat then complete tag St.payloadInvalid 4
    else
      let form := mapFormStatus s img
      let l := mapConns img
      submit tag c (if form ≠ 0 then (form, 0) else firstFailing (askChecks s c.party (.replace l))) (.replace l)).next s

/-- A map slot's PARAM0: [15] PERSIST, [10:0] slot, at most 255 in MRAM. -/
def slotBad (e : Entry) : Option Nat := if e.p0.getLsbD 15 && decide (255 < bits e.p0 10 0) then some 48 else none
/-- HBM address of copy k of a map slot. -/
abbrev mapSlot (i k : Nat) : Nat := 0x500000000 + 0x8000 * i + 0x4000 * k

/-- MAP_STORE: R25 apart from ownership, then two copies in HBM, or a record in MRAM with the map's TOPO_ID (R23, R309). -/
def execMapStore (tag : Fin 4096) (dma : Dma) (s : State) : Host.Outcome State Fault Refusal :=
  (runCmd { op := 0x0205, count := some (0, 1024), len := fun e => 16 + 8 * e.count.toNat, maxLen := 8208, empty := true,
            masks := [0x87FF], bad := slotBad } tag dma fun c img => .look fun s =>
    let l := mapConns img
    let i := bits c.entry.p0 10 0
    if leAt img 4 2 ≠ c.entry.count.toNat then complete tag St.payloadInvalid 4
    else if !mapFormOk img then complete tag St.mapInvalid
    else if !(s.fab.topo.any fun t => mapValid t l) && !l.isEmpty then
      complete tag St.mapInvalid (firstFail (fun m => s.fab.topo.any fun t => mapValid t m) l)
    else if c.entry.p0.getLsbD 15 then
      if mramStatus s ≠ 0 then complete tag (mramStatus s)
      else queueTxn {
        recs := [{ region := 6, index := i, payload := img, aux := leAt img 0 4 }], after := .mapStored i, tag := some tag.val }
    else if !bit s A.hbmStat 31 then complete tag St.notReady
    else .all [writeHbm (mapSlot i 0) img, writeHbm (mapSlot i 1) img, complete tag St.success]).next s

/-- The image in copy k of a map slot of the HBM, where its CRC holds. -/
def hbmMap (s : State) (i k : Nat) : Option (List Byte) :=
  let img := hbmAt s (mapSlot i k) (16 + 8 * min 1024 (leNat (hbmAt s (mapSlot i k + 4) 2)))
  if mapFormOk img then some img else none

/-- MAP_RECALL: a stored map is committed as an admin MAP_REPLACE. -/
def execMapRecall (tag : Fin 4096) (s : State) : Host.Outcome State Fault Refusal :=
  (runCmd { op := 0x0206, masks := [0x87FF], bad := slotBad } tag (.bytes []) fun c _ => .look fun s =>
    let i := bits c.entry.p0 10 0
    let mram := c.entry.p0.getLsbD 15
    if (!mram && !bit s A.hbmStat 31) || (mram && !bit s A.nvmStat 31) then complete tag St.notReady
    else if mram && recUnreadable s 6 i then .all [noteUnreadable 6 i, complete tag St.nvmUncorr]
    else match if mram then recValue s 6 i else (hbmMap s i 0).or (hbmMap s i 1) with
      | none => complete tag St.nvmSlotEmpty
      | some img =>
        let form := mapFormStatus s img
        let l := mapConns img
        submit tag c (if form ≠ 0 then (form, 0) else firstFailing (askChecks s c.party (.replace l))) (.replace l)).next s

/-- The result record of a connection as it stands (R253). -/
def resultOf (s : State) (r : Routed) : ConnRes :=
  match sget (fun _ => none) s.pipe.results r.conn.out with
  | some x => { x with lc := some (x.lc.getD 0) }
  | none => { tag := r.conn.tag, inp := r.conn.inp, out := r.conn.out, lc := some 0, ungated := (outVoa s r.conn.out).isNone,
              pending := s.pipe.dark.any fun d => decide (d.out = r.conn.out) }

/-- MAP_READ: the map in force, of a tenant its own connections, then a result record for each. -/
def execMapRead (tag : Fin 4096) (s : State) : Host.Outcome State Fault Refusal :=
  (runCmd { op := 0x0207, tenant := true } tag (.bytes []) fun c _ => .look fun s =>
    let l := s.fab.map.conns.filter fun r => decide (c.party = 64) || decide (connOwner s r.conn = c.party)
    complete tag St.success 0 0 (mapImage ((s.fab.topo.map (·.id)).getD 0) (l.map (·.conn)) ++
      l.flatMap fun r => natLe 8 (resWord s (resultOf s r)))).next s

/-- Output EDGE ports that cannot be gated and, so, not be verified: no output VOA (R13, R182). -/
def ungatedPorts (t : Topo) : List Nat := (t.ports.filter fun r => r.output && !r.transit && r.voa.isNone).map (·.port)

/-- TOPOLOGY_LOAD: the checks of Table FM-6a, then an empty map and an idle pipeline (R19, R22). -/
def execTopologyLoad (tag : Fin 4096) (dma : Dma) (s : State) : Host.Outcome State Fault Refusal :=
  (runCmd { op := 0x0201, count := some (1, 204864), len := lenCount, maxLen := 204864 } tag dma fun _ img => .look fun s =>
    match topoError img with
    | some o => complete tag St.topologyInvalid o
    | none =>
      if !s.fab.map.conns.isEmpty || !pipeIdle s then complete tag St.topologyInUse
      else
        let t := topoOf img
        let l := ungatedPorts t
        .all [
          updFab fun f => { f with topo := some t, map := { f.map with cells := [] } },
          topologyWords, countCapped,
          complete tag St.success 0 0 (natLe 2 l.length ++ l.flatMap fun p => natLe 2 (0xC000 + p))]).next s

/-- TOPOLOGY_READ: the loaded table. -/
def execTopologyRead (tag : Fin 4096) (s : State) : Host.Outcome State Fault Refusal :=
  (runCmd { op := 0x0202, tenant := true } tag (.bytes []) fun _ _ => .look fun s => match s.fab.topo with
    | some t => complete tag St.success 0 0 t.image
    | none => complete tag St.topologyAbsent).next s

/-- The entries of a list with entries of n bytes. -/
def entriesOf (n : Nat) (l : List Byte) : List Nat := (List.range (l.length / n)).map fun i => leAt l (n * i) n

/-- LC_RELEASE: blocks end (R198). -/
def execLcRelease (tag : Fin 4096) (dma : Dma) (s : State) : Host.Outcome State Fault Refusal :=
  (runCmd { op := 0x0208, count := some (1, 1024), len := lenTimes 2, maxLen := 2048 } tag dma fun _ img => .look fun s =>
    let l := entriesOf 2 img
    match badIndex (fun w => decide (w < 1024)) l with
    | some i => complete tag St.payloadInvalid i
    | none => .all [
      updPipe fun p => { p with blocked := p.blocked.filter fun q => !l.contains q },
      Act.each (l.filterMap (outVoa s)) refreshFpark,
      complete tag St.success]).next s

/-- A value of PARAM_SET is in the range of Table CM-7. -/
def paramOk (w : Nat) : Bool :=
  let v := w % 2 ^ 32
  let f := BitVec.ofNat 32 v
  decide (cut w 47 32 = 0) && (match cut w 63 48 with
    | 1 => decide (v ≤ 255)
    | 2 => Fp.le 0x3D4CCCCD#32 f && Fp.le f f1
    | 3 => Fp.le 0x3A03126F#32 f && Fp.le f 0x3DCCCCCD#32
    | 4 => decide (v ≤ 1)
    | 5 => decide (v = 0) || within 100 60000 v
    | _ => false)

/-- One parameter takes its value; a new audit period counts from then on. -/
def setParam (w : Nat) : Act := .look fun s =>
  let v := w % 2 ^ 32
  updPipe fun p => match cut w 63 48 with
    | 1 => { p with scoreAvoid := v }
    | 2 => { p with lcPresent := BitVec.ofNat 32 v }
    | 3 => { p with lcLightMin := BitVec.ofNat 32 v }
    | 4 => { p with lcBlock := decide (v = 1) }
    | 5 => if v = p.lcAudit then p else { p with lcAudit := v, auditAt := s.clk.mono + 1000 * ticksPerUs * v }
    | _ => p

def execParamSet (tag : Fin 4096) (dma : Dma) (s : State) : Host.Outcome State Fault Refusal :=
  (runCmd { op := 0x0209, count := some (1, 5), len := lenTimes 8, maxLen := 40 } tag dma fun _ img =>
    match badIndex paramOk (words64 img) with
    | some i => complete tag St.payloadInvalid i
    | none => .all [Act.each (words64 img) setParam, complete tag St.success]).next s

def execParamGet (tag : Fin 4096) (s : State) : Host.Outcome State Fault Refusal :=
  (runCmd { op := 0x020A, resp := fun _ => 40 } tag (.bytes []) fun _ _ => .look fun s =>
    let p := s.pipe
    complete tag St.success 0 0 ((([p.scoreAvoid, p.lcPresent.toNat, p.lcLightMin.toNat, p.lcBlock.toNat, p.lcAudit].zipIdx).flatMap
      fun x => natLe 8 ((x.2 + 1) * 2 ^ 48 + x.1)))).next s

/-- A connection of the map in force, or of a commit that is staged, settling or awaiting its outcome, uses the port (R30). -/
def portUsed (s : State) (output : Bool) (p : Nat) : Bool :=
  (s.fab.map.conns ++ s.pipe.cur.toList.flatMap fun c => c.mapA.conns ++ c.mapB.conns).any fun r =>
    decide ((if output then r.conn.out else r.conn.inp) = p)

/-- CAL_PATH_SET: source and sink of the characterisation light (R166). -/
def execCalPathSet (tag : Fin 4096) (s : State) : Host.Outcome State Fault Refusal :=
  (runCmd { op := 0x020B, masks := [0x83FF03FF] } tag (.bytes []) fun c _ => .look fun s =>
    let i := bits c.entry.p0 25 16
    let o := bits c.entry.p0 9 0
    if !c.entry.p0.getLsbD 31 then .all [updPipe fun p => { p with calPath := none }, complete tag St.success]
    else if inOwner s i ≠ 64 ∨ outOwner s o ≠ 64 ∨ portUsed s false i ∨ portUsed s true o then complete tag St.portInUse
    else .all [updPipe fun p => { p with calPath := some (i, o) }, complete tag St.success]).next s

end Sys2Proof.Machine
end

