-- ==== Sys2Proof/Machine/Sec.lean ====
section
/-!
DEFINITION. Identity, signature blocks, and the keys and counters of the protected region (spec/15_security.md R361-R366, R369).
-/

namespace Sys2Proof.Machine

/-! ## Identity (R366) -/

/-- Bytes of the identity certificate. -/
abbrev certLen : Nat := 7392
/-- The certificate: the fields R366 fixes, and those of the part; its signature block starts at 4,000. -/
def certByte (i : Nat) : Byte :=
  if i < 4 then (natLe 4 0x49444331).getD i 0#8
  else if i < 6 then (natLe 2 1).getD (i - 4) 0#8
  else if i < 16 then 0#8
  else if 4000 ≤ i ∧ i < 4004 then (natLe 4 0x53474B31).getD (i - 4000) 0#8
  else if i = 4004 then BitVec.ofNat 8 ((Config.certByte i).toNat % 3)
  else if i = 4005 then 7#8
  else if (4006 ≤ i ∧ i < 4016) ∨ 7389 ≤ i then 0#8 else Config.certByte i
/-- Hash of vendor root n (R363): the certificate's vendor key block is that of the root its KEY_ID names. -/
def vendorRoot (n : Nat) : List Byte :=
  if n = (certByte 4004).toNat then sha512 ((List.range 1984).map fun i => certByte (2016 + i)) else Config.vendorRoot n
/-- SERIAL: 16 bytes. -/
def serialBytes : List Byte := (List.range 16).map fun i => certByte (16 + i)

/-! ## Counters and keys in MRAM (Table MM-2; the layout of these records is the model's, log entry 14) -/

/-- ARB_PATCH and KEY_FLOOR; 0 at manufacture (R363). -/
def arbPatch (s : State) : Nat := leAt ((recValue s 1 0).getD []) 0 4
def keyFloor (s : State) : Nat := leAt ((recValue s 1 0).getD []) 4 1
/-- The record of new counters. -/
def arbRecord (version floor : Nat) : NvmRec := { region := 1, index := 0, payload := natLe 4 version ++ natLe 4 floor }
/-- The enrolled customer keys. -/
def custKeys (s : State) : Option (List Byte) := recValue s 2 1
/-- ENF_SEQ. -/
def enfSeq (s : State) : Nat := leAt ((recValue s 2 2).getD []) 0 4

/-- SEC_STAT and the counters' registers show enforcement, keys, the JTAG latch and the counters as they stand (Table SE-5). -/
def showSec : Act := .whenS (fun s => !domInReset s 14) (.look fun s => .all [
  putBit A.secStat 27 (s.sec.enf.getLsbD 0), putBit A.secStat 26 (s.sec.enf.getLsbD 1), putBit A.secStat 25 (s.sec.enf.getLsbD 2),
  putBit A.secStat 24 s.sec.jtagOpen,
  Act.when (bit s A.nvmStat 31) (.all [
    putBit A.secStat 28 (custKeys s).isSome, setFld A.secStat 9 8 (keyFloor s),
    wrNat A.secArb (arbPatch s), wrNat A.secEnfseq (enfSeq s)])])

/-! ## Signature blocks (R362, Tables SE-1, SE-2) -/

abbrev sigLen : Nat := 3392
abbrev keyLen : Nat := 1984

/-- The form of a block for a purpose: MAGIC, PURPOSE, VERSION, reserved bytes. -/
def sigFormOk (b : List Byte) (purpose version : Nat) : Bool :=
  decide (b.length = sigLen ∧ leAt b 0 4 = 0x53474B31 ∧ leAt b 5 1 = purpose ∧ leAt b 6 2 = 0 ∧ leAt b 8 4 = version ∧ leAt b 12 4 = 0 ∧
    leAt b 3389 3 = 0)

/-- Both signatures of a block over its first 16 bytes and the hash of the content verify with a key pair. -/
def sigVerifies (keys b content : List Byte) : Bool :=
  let m := b.take 16 ++ sha512 content
  Config.ed25519Ok (keys.take 32) m (slice b 16 64) && Config.mldsaOk (keys.drop 32) m (slice b 80 3309)

/-- A block of the customer's: enrolled, KEY_ID 0x10. -/
def custSigOk (s : State) (b : List Byte) (purpose : Nat) (content : List Byte) : Bool := match custKeys s with
  | some k => sigFormOk b purpose 0 && decide (leAt b 4 1 = 0x10) && sigVerifies k b content
  | none => false

/-- A block of a vendor root's, with the key block it presents: KEY_ID n at or above KEY_FLOOR, hashing to root n (R363). -/
def vendorSigOk (s : State) (keys b : List Byte) (purpose version : Nat) (content : List Byte) : Bool :=
  let n := leAt b 4 1
  sigFormOk b purpose version && decide (n ≤ 2 ∧ keyFloor s ≤ n ∧ keys.length = keyLen ∧ sha512 keys = vendorRoot n) &&
    sigVerifies keys b content

/-- The count of a verification, and SIG_FAIL where it fails (R362, R373). -/
def sigCount (ok : Bool) : Act := if ok then bump A.secSigcnt 15 0 else .all [bump A.secSigcnt 31 16, event A.secEvt 0 399]

/-! ## Programs in banks (R110, R368) -/

/-- The words of bank b of engine e, in bytes: SLP-1's own image where the ROM's stands there. -/
def bankBytes (s : State) (e b n : Nat) : List Byte :=
  if bankRom s e b then slice Config.slpImage 0 (8 * n) else readBytes memBlank s.mem (progAddr e b 0) (8 * n)

/-- The program in a bank, as attestation lists it: as the last load or PROG_VERIFY took it, SLP-1's own after a load from ROM. -/
def progInfo (s : State) (e b : Nat) : Option ProgInfo :=
  (sget (fun _ => none) s.sec.progs (2 * e + b)).or
    (if bankRom s e b then some { hash := sha512 Config.slpImage, count := Config.slpImage.length / 8 } else none)

/-- A bank is verified: BANK_OK, its CRC and its entry (R110, R368). -/
def bankVerified (e b : Nat) (img : List Byte) (info : ProgInfo) : Act := .all [
  setBit (A.engStat e) (27 + b),
  wr (if b = 0 then A.engBankcrc0 e else A.engBankcrc1 e) (crc32c img),
  updSec fun x => { x with progs := sset (fun _ => none) x.progs (2 * e + b) (some info) }]

/-- A checked program goes into a bank (R110, R103). -/
def loadBank (e b : Nat) (img : List Byte) (count : Nat) (info : ProgInfo) : Act := .all [
  spillRom e b, writeMem (progAddr e b 0) img,
  .look fun s => .upd (.memBad (s.memBad.filter fun a => !decide (progAddr e b 0 ≤ a ∧ a < progAddr e b 0 + img.length))) .done,
  bankTouched e b, setFld (A.engBudget e) (16 * b + 15) (16 * b) (min count 0xFFFF), putBit (A.engStat e) (25 + b) (decide (384 < count)),
  bankVerified e b img info]

/-- SLP-1 goes into a bank from ROM: its CRC is 0x3E71C5A9, its static count 378 (R146). -/
def loadRom (e b : Nat) : Act := .all [
  .look fun s => .upd (.memBad (s.memBad.filter fun a => !decide (progAddr e b 0 ≤ a ∧ a < progAddr e b 0 + 0x8000))) .done,
  updEngN e fun x => { x with rom := x.rom ||| BitVec.twoPow 2 b },
  setFld (A.engBudget e) (16 * b + 15) (16 * b) 378,
  setBit (A.engStat e) (27 + b), clrBit (A.engStat e) (25 + b),
  wr (if b = 0 then A.engBankcrc0 e else A.engBankcrc1 e) 0x3E71C5A9#32,
  updSec fun x => { x with progs := sset (fun _ => none) x.progs (2 * e + b) none }]

end Sys2Proof.Machine
end

