-- ==== Sys2Proof/Machine/CmdLoop.lean ====
section
/-!
DEFINITION. The LOOP commands (spec/09_command_set.md Table CS-10).
-/

namespace Sys2Proof.Machine

/-! ## Programs -/

/-- Tile t is present (R62, Table MM-4). -/
def tilePresent (s : State) (t : Nat) : Bool := (leAt s.nvm.opt 12 2).testBit t

/-- PARAM0 of the program commands: an engine, or 0xFF for all of the present tiles. -/
def engineBad (e : Entry) : Option Nat := if e.p0.toNat < 96 ∨ e.p0 = 0xFF#32 then none else some 48
def engineList (s : State) (p : Nat) : List Nat :=
  if p = 0xFF then (List.range 96).filter fun e => tilePresent s (e / 8) else [p]

/-- A bank that a load may not touch: the active one of a running engine (R110). -/
def bankBusy (s : State) (e b : Nat) : Bool := engRuns s e && decide (actBank s e = b)

/-- The signature of a load: 0, SIG_REQUIRED where it is absent and enforced, SIG_INVALID where it does not hold (R362, R371). -/
def loadSig (s : State) (enforced : Bool) (purpose : Nat) (content b : List Byte) : Nat :=
  if b.isEmpty then (if enforced then St.sigRequired else 0)
  else if custSigOk s b purpose content then 0 else St.sigInvalid

/-- The records that a block over a load is judged by. -/
def loadRecords (b : List Byte) : List (Nat × Nat) := if b.isEmpty then [] else [(2, 1)]
/-- An ENFORCE_SET that was accepted before this load has not ended: the load waits, to be judged by the state it leaves (R370). -/
def enforceDue (s : State) (tag : Nat) : Bool := (cmdOf s tag).any fun c =>
  s.host.cmds.any fun d => decide (d.entry.opcode.toNat = 0x0904) && decide (d.num < c.num) && !s.host.done.any fun x => x.tag == d.tag
/-- The verification of a block that is present is counted. -/
def countSig (b : List Byte) (st : Nat) : Act := Act.when (!b.isEmpty) (sigCount (decide (st = 0)))

/-- PROG_LOAD: the checks of R143, R103 and the signature, then every target bank or none. -/
def execProgLoad (tag : Fin 4096) (dma : Dma) (s : State) : Host.Outcome State Fault Refusal :=
  (Act.whenS (fun s => !enforceDue s tag) (
   runCmd { op := 0x0301, force := true, count := some (1, 4096), len := fun e => 8 * e.count.toNat + e.p3.toNat, maxLen := 40960,
            masks := [0xFF, 1, 0, 0xFFFFFFFF], bad := fun e => (engineBad e).or (paramIn 3 0 8192 e) } tag dma fun c img => .look fun s =>
    let n := c.entry.count.toNat
    let prog := img.take (8 * n)
    let block := img.drop (8 * n)
    let ws := programWords prog
    let b := c.entry.p1.toNat
    let es := engineList s c.entry.p0.toNat
    let forced := decide (384 < staticCount ws)
    match programFault ws with
    | some i => complete tag St.progInvalid i
    | none =>
      if forced && !c.entry.flags.getLsbD 2 then complete tag St.progOverBudget (staticCount ws)
      else
        let sig := loadSig s (enfProg s) 2 prog block
        withRecords tag (loadRecords block) <| .all [countSig block sig,
          if sig ≠ 0 then complete tag sig
          else if !(es.all fun e => domUp s (e / 8)) then complete tag St.notReady
          else if es.any fun e => bankBusy s e b then complete tag St.bankActive
          else .all [
            Act.each es fun e => loadBank e b prog (staticCount ws)
              { hash := sha512 prog, count := n, signed := !block.isEmpty, forced := c.entry.flags.getLsbD 2 },
            complete tag St.success]])).next s

/-- The initial words of engine e's elements are written (R146). -/
def writeInitial (e : Nat) : Act := .all [
  Act.upto 112 fun i => initialElem (112 * e + i), updEngN e fun x => { x with initDue := false }]
/-- SLP-1 goes into a bank; the initial words are written at once where the bank is the next to run, else before RUN (R146). -/
def loadSlp (e b : Nat) : Act := .all [
  loadRom e b, updEngN e fun x => { x with initDue := true },
  .whenS (fun s => !engRuns s e && decide (actBank s e = b)) (writeInitial e)]

/-! ## Commands on elements take effect in acceptance order (R240) -/

/-- Requests of the pipeline that have not come to their outcome, or whose commit has not. -/
def pipeReqs (s : State) : List Req :=
  s.pipe.waiting ++ s.pipe.batch.getD [] ++ (s.pipe.next.toList ++ s.pipe.cur.toList).flatMap fun x => x.reqs.map (·.req)
/-- A command that was accepted before this one and has not ended. -/
def earlierRuns (s : State) (c : Cmd) (tag : Nat) : Bool :=
  (cmdOf s tag).any (fun d => decide (d.num < c.num)) && !s.host.done.any fun d => d.tag == tag
/-- Elements whose window words earlier commands still have to change. -/
def wordsDue (s : State) (c : Cmd) : List Nat := (pipeReqs s).flatMap fun r => match r.by_, r.ask with
  | .command t, .words l => if earlierRuns s c t then l.map fun p => p.1 / 8 else []
  | _, _ => []
/-- Elements that earlier commands still have to characterise, or whose characterisation records they still have to write. -/
def recordsDue (s : State) (c : Cmd) : List Nat :=
  (s.sup.jobs.flatMap fun j => if earlierRuns s c j.tag then j.left else []) ++
  ((s.nvm.run.map (·.txn)).toList ++ s.nvm.queue).flatMap fun t => match t.after, t.tag with
    | .ect es, some tag => if earlierRuns s c tag then es else []
    | _, _ => []
/-- The bytes that a command's entries stand in. -/
def payloadOf (c : Cmd) (dma : Dma) : List Byte :=
  slice (if c.dgram.isSome then c.payload else match dma with
    | .bytes l => l
    | .error _ => []) 0 c.entry.length.toNat
/-- The elements that a LOOP command writes; PROG_LOAD_ROM writes those of its engines. -/
def elemsWritten (s : State) (c : Cmd) (dma : Dma) : List Nat :=
  let img := payloadOf c dma
  match c.entry.opcode.toNat with
  | 0x0302 => (engineList s c.entry.p0.toNat).flatMap fun e => List.range' (112 * e) 112
  | 0x0304 => (entriesOf 4 img).map fun v => cut v 31 18
  | 0x0305 => (chunks 24 10752 img).map fun x => leAt x 0 2
  | 0x0306 => (words64 img).map fun v => cut v 63 50
  | 0x0307 | 0x0309 => entriesOf 2 img
  | 0x030A => (chunks 1028 64 img).map fun x => leAt x 0 2
  | _ => []
/-- An earlier command has still to write an element that this one writes: it waits, so that they take effect in acceptance order (R240). Two
changes of window words need no wait, since the pipeline keeps their order (R174). -/
def elemsWait (s : State) (tag : Nat) (dma : Dma) : Bool := (cmdOf s tag).any fun c =>
  let due := (if c.entry.opcode = 0x0304#16 then [] else wordsDue s c) ++ recordsDue s c
  (elemsWritten s c dma).any due.contains
/-- A LOOP command on elements: it starts when no earlier command has its elements still to write. -/
def runElems (k : CmdSpec) (tag : Nat) (dma : Dma) (body : Cmd → List Byte → Act) : Act :=
  .whenS (fun s => !elemsWait s tag dma) (runCmd k tag dma body)

/-- PROG_LOAD_ROM. -/
def execProgLoadRom (tag : Fin 4096) (s : State) : Host.Outcome State Fault Refusal :=
  (runElems { op := 0x0302, masks := [0xFF, 1], bad := engineBad } tag (.bytes []) fun c _ => .look fun s =>
    let b := c.entry.p1.toNat
    let es := engineList s c.entry.p0.toNat
    if !(es.all fun e => domUp s (e / 8)) then complete tag St.notReady
    else if es.any fun e => bankBusy s e b then complete tag St.bankActive
    else .all [Act.each es fun e => loadSlp e b, complete tag St.success]).next s

/-- PROG_VERIFY: the words that stand in a bank pass the checks of a load (R110, R143). -/
def execProgVerify (tag : Fin 4096) (s : State) : Host.Outcome State Fault Refusal :=
  (Act.whenS (fun s => !enforceDue s tag) (runCmd { op := 0x030C, force := true, masks := [0xFF, 1, 0xFFFFFFFF], bad := fun e => (paramIn 0 0 95 e).or (paramIn 2 1 4096 e) } tag
    (.bytes []) fun c _ => .look fun s =>
      let e := c.entry.p0.toNat
      let b := c.entry.p1.toNat
      let n := c.entry.p2.toNat
      let img := bankBytes s e b n
      let ws := programWords img
      let forced := decide (384 < staticCount ws)
      if enfProg s then complete tag St.sigRequired
      else if bankBusy s e b then complete tag St.bankActive
      else match programFault ws with
        | some i => complete tag St.progInvalid i
        | none =>
          if forced && !c.entry.flags.getLsbD 2 then complete tag St.progOverBudget (staticCount ws)
          else .all [bankVerified e b img { hash := sha512 img, count := n, forced := c.entry.flags.getLsbD 2 }, complete tag St.success])).next s

/-- An entry of ENGINE_CTRL: a swap mode, then run or stop, as register writes; an SLP-1 engine starts through PARK (R163). -/
def engineEntry (v : Nat) : Act := .look fun s =>
  let e := cut v 31 24
  .all [
    writeSwap e (cut v 3 2),
    if cut v 1 0 = 1 then .all [
      Act.when (bankRom s e (actBank s e) && !engRuns s e && bankOk s e (actBank s e)) (parkForStart e), writeRun e true]
    else Act.when (decide (cut v 1 0 = 2)) (writeRun e false)]

def execEngineCtrl (tag : Fin 4096) (dma : Dma) (s : State) : Host.Outcome State Fault Refusal :=
  (runCmd { op := 0x0303, count := some (1, 96), len := lenTimes 4, maxLen := 384 } tag dma fun _ img =>
    let l := entriesOf 4 img
    match badIndex (fun v => decide (cut v 31 24 < 96) && decide (cut v 23 4 = 0) && decide (cut v 1 0 ≠ 3)) l with
    | some i => complete tag St.payloadInvalid i
    | none => .all [Act.each l engineEntry, complete tag St.success]).next s

/-! ## Elements -/

/-- What every LOOP command on an element needs: it is assigned, its engine runs SLP-1, its cluster's tables are ready. -/
def elemStatus (s : State) (n : Nat) : Nat :=
  if !elemAssigned s n then St.elementInvalid
  else if !elemSlp s n then St.engineState
  else if !bit s (A.cluStat (n / 896)) 31 then St.notReady else 0

/-- The first element of a list that a check refuses: its status and index. -/
def firstStatus {α : Type} (f : α → Nat) (l : List α) : Option (Nat × Nat) :=
  (badIndex (fun x => f x == 0) l).bind fun i => l[i]?.map fun x => (f x, i)

/-- Go on where every entry passes; else the first that fails ends the command. -/
def checked {α : Type} (tag : Nat) (f : α → Nat) (l : List α) (go : Act) : Act := match firstStatus f l with
  | some (st, i) => complete tag st i
  | none => go

/-- Window words by one commit, or, where there are none, the end of the command (R190). -/
def commitWords (tag : Nat) (c : Cmd) (l : List (Nat × Word)) : Act :=
  if l.isEmpty then complete tag St.success else submit tag c (0, 0) (.words l)
/-- Words (element, word) outside the windows are written at once, and window words by one commit; where that commit fails, the words written
return to what they held, so that the command is applied wholly or not at all (R248, log entry 130). -/
def writeAndCommit (tag : Nat) (c : Cmd) (words : List (Nat × Nat)) (write : Act) (l : List (Nat × Word)) : Act := .look fun s => .all [
  write,
  if l.isEmpty then complete tag St.success
  else addReq (.command tag) c.party (.words l) (timedOf c.entry) (words.map fun p => (p.1, p.2, elemWord s p.1 p.2))
    (((words.filter fun p => decide (p.2 = wGNOM)).map (·.1)).eraseDups.filter fun n => !(supOf s n).known)]

/-- The element lies on a path of the map in force, as a cell. -/
def cellOnPath (s : State) (n : Nat) : Bool := (onPath s n).isSome && (elemRec s n).any fun r => decide (r.role = 0)

/-- MODE_REQ of a mode code. -/
def modeWord : Nat → Word
  | 0 => f0
  | 1 => f1
  | 2 => f2
  | 3 => f3
  | _ => f5

def execElemMode (tag : Fin 4096) (dma : Dma) (s : State) : Host.Outcome State Fault Refusal :=
  (runElems { op := 0x0304, timed := true, count := some (1, 10752), len := lenTimes 4, maxLen := 43008 } tag dma fun c img => .look fun s =>
    let l := entriesOf 4 img
    let mode (v : Nat) : Nat := cut v 17 15
    let elem (v : Nat) : Nat := cut v 31 18
    checked tag (fun v =>
      if cut v 14 0 ≠ 0 ∨ ¬ (mode v < 4 ∨ mode v = 5) then St.payloadInvalid
      else if elemStatus s (elem v) ≠ 0 then elemStatus s (elem v)
      else if (mode v < 2 ∨ mode v = 5) ∧ cellOnPath s (elem v) then St.stateConflict
      else if mode v = 5 ∧ ¬ calAccepted s (elem v) then St.calRefused else 0) l
      (commitWords tag c (l.map fun v => (8 * elem v + 1, modeWord (mode v))))).next s

/-! Coefficients (R157). -/

/-- |G (KP + KI / (1 - e^-jx) + KD (1 - e^-jx))| < 1 at x = 2 pi 96 kHz / 4 MHz. -/
def loopGainOk (g kp ki kd : Word) : Bool :=
  let x := 2 * fxPi * 96 / 4000
  let c := (fxCos x).toNat
  let sn := (fxSin x).toNat
  -- |1 - e^-jx|^2 = 2 - 2 cos x
  let d := 2 * (fxOne - c)
  let re := (2 * Fp.mag kp + Fp.mag ki) * fxOne + 2 * Fp.mag kd * (fxOne - c)
  let im := 2 * (Int.ofNat (Fp.mag kd * sn) - Int.ofNat (Fp.mag ki * (sn * fxOne / d)))
  decide (Fp.mag g ^ 2 * (re ^ 2 + im.natAbs ^ 2) < (2 * 2 ^ 298 * fxOne) ^ 2)

/-- A coefficient set that R157 admits under a nominal gain. -/
def coefOk (g kp ki kd lo hi : Word) : Bool :=
  [kp, ki, kd].all (fun k => Fp.finite k && Fp.le f0 k) && Fp.le fMinus1 lo && Fp.lt lo hi && Fp.le hi f1 && Fp.finite g &&
    loopGainOk g kp ki kd

/-- The word at an offset of an entry. -/
def wordAt (l : List Byte) (o : Nat) : Word := BitVec.ofNat 32 (leAt l o 4)

def execCoefWrite (tag : Fin 4096) (dma : Dma) (s : State) : Host.Outcome State Fault Refusal :=
  (runElems { op := 0x0305, count := some (1, 10752), len := lenTimes 24, maxLen := 258048 } tag dma fun c img => .look fun s =>
    let l := chunks 24 10752 img
    let elem (x : List Byte) : Nat := leAt x 0 2
    let bank (x : List Byte) : Nat := leAt x 2 1
    checked tag (fun x =>
      if 2 ≤ bank x ∨ 2 ≤ leAt x 3 1 then St.payloadInvalid
      else if elemStatus s (elem x) ≠ 0 then elemStatus s (elem x)
      else if !coefOk (elemWord s (elem x) wGNOM) (wordAt x 4) (wordAt x 8) (wordAt x 12) (wordAt x 16) (wordAt x 20) then St.coefInvalid
      else if !bankFree s (elem x) (bank x) then St.stateConflict else 0) l
      (let base (x : List Byte) : Nat := if bank x = 0 then wBANKA else wBANKB
       writeAndCommit tag c (l.flatMap fun x => (List.range 5).map fun k => (elem x, base x + k))
        (Act.each l fun x => Act.upto 5 fun k => setElemWord (elem x) (base x + k) (wordAt x (4 + 4 * k)))
        ((l.filter fun x => decide (leAt x 3 1 = 1)).map fun x => (8 * elem x + 2, if bank x = 0 then f0 else f1)))).next s

/-- Words that ELEM_PARAM writes only in OFF, PARK or CAL. -/
def idleWords : List Nat := [41, 44, 45, 46, 47, 50, 51, 52, 53, 55, 56, 57, 58, 59, 70, 71]
/-- A word and value that ELEM_PARAM takes (Table SL-1). -/
def elemParamOk (w : Nat) (v : Word) : Bool :=
  idleWords.contains w || decide (w = 111) ||
  (decide (w = 109) && Fp.le f1 v && Fp.le v 0x49800000#32) || (decide (w = 110) && Fp.le f1 v && Fp.le v 0x42800000#32)

/-- A word outside the windows is written; the supervisors follow G_NOM and VREF (R167, R399). -/
def elemParamWrite (n w : Nat) (v : Word) : Act := .all [
  setElemWord n w v,
  Act.when (decide (w = 70)) (updSupN n fun x => { x with known := true }),
  Act.when (decide (w = 70 ∨ w = 71)) (.all [setPilot n, countCapped])]

def execElemParam (tag : Fin 4096) (dma : Dma) (s : State) : Host.Outcome State Fault Refusal :=
  (runElems { op := 0x0306, count := some (1, 10752), len := lenTimes 8, maxLen := 86016 } tag dma fun c img => .look fun s =>
    let l := words64 img
    let elem (v : Nat) : Nat := cut v 63 50
    let word (v : Nat) : Nat := cut v 49 43
    let val (v : Nat) : Word := BitVec.ofNat 32 v
    checked tag (fun v =>
      if cut v 42 32 ≠ 0 ∨ ¬ elemParamOk (word v) (val v) then St.payloadInvalid
      else if elemStatus s (elem v) ≠ 0 then elemStatus s (elem v)
      else if idleWords.contains (word v) && !elemIdle s (elem v) then St.stateConflict else 0) l
      (let at_ := l.filter fun v => decide (word v < 104)
       writeAndCommit tag c (at_.flatMap fun v =>
          (elem v, word v) :: if word v = 70 ∨ word v = 71 then [(elem v, wTONEA)] else [])
        (Act.each at_ fun v => elemParamWrite (elem v) (word v) (val v))
        ((l.filter fun v => decide (104 ≤ word v)).map fun v => (8 * elem v + (word v - 104), val v)))).next s

/-- ELEM_RESUME: PLATCH clears. In a lane group in low-power mode the element stays parked until the group has left it (R83, R161). -/
def execElemResume (tag : Fin 4096) (dma : Dma) (s : State) : Host.Outcome State Fault Refusal :=
  (runElems { op := 0x0307, count := some (1, 10752), len := lenTimes 2, maxLen := 21504 } tag dma fun _ img => .look fun s =>
    let l := entriesOf 2 img
    checked tag (elemStatus s) l (.all [
      Act.each l fun n => .all [.whenS (fun s => lpWaits s n) (setFpark n true), setElemWord n wPLATCH f0, refreshFpark n],
      refreshConnParks, complete tag St.success])).next s

/-- The element lies on one of the party's own connections, and the party may observe it. -/
def mayObserve (s : State) (p n : Nat) : Bool :=
  decide (64 ≤ p) || (hasRight s p rtObserve && (onPaths s n).any fun c => decide (connOwner s c = p))

def execElemRead (tag : Fin 4096) (dma : Dma) (s : State) : Host.Outcome State Fault Refusal :=
  (runCmd { op := 0x0308, tenant := true, count := some (1, 1024), len := lenTimes 4, maxLen := 4096 } tag dma fun c img => .look fun s =>
    let l := entriesOf 4 img
    let elem (v : Nat) : Nat := cut v 31 18
    checked tag (fun v =>
      if cut v 3 0 ≠ 0 ∨ 128 < cut v 17 11 + cut v 10 4 + 1 then St.payloadInvalid
      else if elemStatus s (elem v) ≠ 0 then elemStatus s (elem v)
      else if !mayObserve s c.party (elem v) then St.rightMissing else 0) l
      (complete tag St.success 0 0 (l.flatMap fun v => (List.range (cut v 10 4 + 1)).flatMap fun k =>
        natLe 4 (elemWord s (elem v) (cut v 17 11 + k)).toNat))).next s

/-- CAL_REQUEST: the elements join the queue (R165, R166). -/
def execCalRequest (tag : Fin 4096) (dma : Dma) (s : State) : Host.Outcome State Fault Refusal :=
  (runElems { op := 0x0309, count := some (1, 1024), len := lenTimes 2, maxLen := 2048, resp := lenTimes 4 } tag dma fun _ img => .look fun s =>
    let l := entriesOf 2 img
    checked tag (fun n => if elemStatus s n ≠ 0 then elemStatus s n else if calAccepted s n then 0 else St.calRefused) l
      (updSup fun x => { x with
        queue := x.queue ++ l.eraseDups.map fun n => (n, some tag.val),
        jobs := x.jobs ++ [{ tag := tag, elems := l, left := l.eraseDups }] })).next s

/-- ECT_WRITE: the master records in one transaction, then the mirror (R114, R322). -/
def execEctWrite (tag : Fin 4096) (dma : Dma) (s : State) : Host.Outcome State Fault Refusal :=
  (Act.whenS (fun s => !enforceDue s tag) (
   runElems { op := 0x030A, count := some (1, 64), len := fun e => 1028 * e.count.toNat + e.p3.toNat, maxLen := 73984,
              masks := [0, 0, 0, 0xFFFFFFFF], bad := paramIn 3 0 8192 } tag dma fun c img => .look fun s =>
    let n := 1028 * c.entry.count.toNat
    let block := img.drop n
    let l := chunks 1028 64 (img.take n)
    let elem (x : List Byte) : Nat := leAt x 0 2
    checked tag (fun x => if leAt x 2 2 ≠ 0 then St.payloadInvalid else elemStatus s (elem x)) l
      (let sig := loadSig s (s.sec.enf.getLsbD 1) 3 (img.take n) block
       withRecords tag (loadRecords block) <| .all [countSig block sig,
        if sig ≠ 0 then complete tag sig
        else if mramStatus s ≠ 0 then complete tag (mramStatus s)
        else queueTxn {
          recs := l.map fun x => { region := 7, index := elem x, payload := x.drop 4,
                                   aux := if block.isEmpty then 0 else 2 ^ 32 },
          after := .ect (l.map elem), tag := some tag.val }]))).next s

def execEctRead (tag : Fin 4096) (dma : Dma) (s : State) : Host.Outcome State Fault Refusal :=
  (runCmd { op := 0x030B, count := some (1, 64), len := lenTimes 2, maxLen := 128, resp := lenTimes 1024 } tag dma fun _ img => .look fun s =>
    let l := entriesOf 2 img
    if !bit s A.nvmStat 31 then complete tag St.notReady
    else checked tag (elemStatus s) l (.all [
      Act.each l (noteUnreadable 7), complete tag St.success 0 0 (l.flatMap (masterTable s))])).next s

end Sys2Proof.Machine
end

