-- ==== Sys2Proof/Machine/Bringup.lean ====
section
/-!
DEFINITION. Bringing up a tile, rewriting set-point windows, and what follows an MRAM commit (spec/02_fabric_lanes.md Table FL-9,
spec/04_loop_engines.md R116, spec/12_memories.md R314, R321).
-/

namespace Sys2Proof.Machine

/-! ## Set-point windows (R116, R330) -/

/-- The image in force: a map's, or the transit image between a commit's strobes. -/
def imageNow (s : State) : List (Nat × Nat × Word) := match s.pipe.cur with
  | none => mapWords s s.fab.map
  | some c => match c.stage with
    | .settling | .light _ => transitWords s c.mapB c.gated
    | .reverting | .revArmed => if s.fab.map = c.mapB ∧ s.eng.strobe then mapWords s c.mapB else transitWords s c.mapB c.gated
    | .revSettling => if s.eng.strobe then transitWords s c.mapB c.gated else transitWords s c.mapA c.gated
    | _ => mapWords s s.fab.map

/-- The retained image of a commit that awaits its outcome (Table CM-3). -/
def imageRetained (s : State) : List (Nat × Nat × Word) := match s.pipe.cur with
  | none => []
  | some c => match c.stage with
    | .settling | .light _ => mapWords s c.mapA
    | .applied => if c.gated.isEmpty then mapWords s c.mapA else transitWords s c.mapB c.gated
    | .reverting | .revArmed => if s.fab.map = c.mapB ∧ s.eng.strobe ∧ ¬ c.gated.isEmpty then transitWords s c.mapB c.gated else mapWords s c.mapA
    | .revSettling => if s.eng.strobe then mapWords s c.mapA else transitWords s c.mapB c.gated
    | _ => []

/-- The supervisors rewrite the windows of engine e: current and staged to the image in force, retained to that of a commit awaiting
its outcome. -/
def rewriteWindows (e : Nat) : Act := .look fun s =>
  let own (l : List (Nat × Nat × Word)) := l.filter fun x => decide (engineOf x.1 = e)
  .all [
    Act.each (own (imageNow s)) fun (n, k, w) => .all [setElemWord n (104 + k) w, setElemWord n (112 + k) w],
    Act.each (own (imageRetained s)) fun (n, k, w) => setElemWord n (120 + k) w,
    updCur fun c => { c with missed := c.missed.filter (· != e) }]

/-- The bank that engine e runs from the next frame on: the other one where a program swap is armed for that frame. -/
def nextBank (s : State) (e : Nat) : Nat :=
  if (decide (fld s (A.engSwap e) 1 0 = 1) || (decide (fld s (A.engSwap e) 1 0 = 2) && s.eng.strobe)) && bankOk s e (1 - actBank s e) then
    1 - actBank s e else actBank s e

/-- Before engine e starts with SLP-1, the supervisors write the initial words that a load has left due (R146). -/
def initialDue (e : Nat) : Act := .whenS (fun s => supvRuns s && (engOf s e).initDue && (engOf s e).runReq == some true && !engRuns s e &&
    !engHalted s e && bankRom s e (nextBank s e)) (writeInitial e)

/-- ENGINE_FRAME_START: the frame; and a halted engine that a stop has released gets its windows rewritten (R116). -/
def execEngineFrameStart (s : State) : Host.Outcome State Fault Refusal :=
  (Act.whenS (fun s => schedulerRuns s && !inSafe s && !s.thm.tripped) (.look fun s =>
    let l := (List.range 96).filter (engHalted s)
    .all [Act.upto 96 initialDue, engineFrame,
      Act.each l fun e => .whenS (fun s => supvRuns s && !engHalted s e) (rewriteWindows e)])).next s

/-! ## Tiles (Table FL-9) -/

/-- The "End of option load" row for tile t: FAB_HOLD is driven high, LCLK and the downlink start, the reference buffer is enabled (R82). -/
def tileRow (t : Nat) : Act := .all [
  updTile t fun x => { x with driven := true, sweepDue := true },
  assertHold t, freshLink t,
  clrBit (grpCtrl t) 19, clrBit (grpCtrl t) 20, clrBit (grpStat t) 30, writeRefbuf t true,
  updGroup t fun g => { g with autoConv := true }]

/-- EDL_PARKCRC of a lane: over its PARK_RANGE byte and its 56 park codes (Table CV-5). -/
def laneParkCrc (s : State) (n : Nat) : Act :=
  wr (A.edlParkcrc n) (crc32c (slice s.nvm.park (64 + 128 * n) 1 ++ slice s.nvm.park (72 + 128 * n) 112))

/-- Tile t comes up: its lanes are driven in their park range, and the row of Table FL-9 follows. -/
def tileStart (t : Nat) : Act := .all [
  Act.upto 16 fun l => .look fun s =>
    let n := 16 * t + l
    .all [setBit (A.edlStat n) 0, putBit (A.edlStat n) 1 (parkRange s n), putBit (A.edlCtrl n) 1 (parkRange s n), laneParkCrc s n],
  tileRow t]

/-- BCO_PARK of every channel; at bring-up RANGE_SEL takes the park range (Table CV-11). -/
def bcoParks (first : Bool) : Act := .look fun s => Act.upto 24 fun b => .all [
  wrNat (A.bcoPark b) (bcoParkWord s.nvm.park b % 2 ^ 17),
  Act.when first (putBit (A.bcoCtrl b) 1 ((bcoParkWord s.nvm.park b).testBit 16))]

/-- The domains of a tile: cluster, EDL and EML. -/
def tileDomains (t : Nat) : List Nat := [t, 15 + t, 27 + t]

/-- Step 4 with a table: present tiles start, and the domains of absent ones are gated (Table CK-6). -/
def tilesStart : Act := .look fun s => Act.upto 12 fun t =>
  if tilePresent s t then tileStart t
  else Act.each (tileDomains t) fun d => setBit (gateReg d) (d % 32)

/-- PARK_TABLE_APPLY: at a frame boundary the committed table takes effect on every lane together; every tile reloads its park store;
and a bring-up that waited for a table goes on (R321, R400). -/
def execParkTableApply (s : State) : Host.Outcome State Fault Refusal :=
  (Act.look fun s => match s.nvm.parkNext with
    | none => .done
    | some img => .all [
      updNvm fun n => { n with park := img, parkNext := none, parkRewrite := true },
      bcoParks s.clk.noPark,
      if s.clk.noPark then .all [
        updClk fun c => { c with noPark := false }, tilesStart]
      else .all [
        Act.upto 192 fun n => .look fun s => Act.when (bit s (A.edlStat n) 0) (laneParkCrc s n),
        Act.upto 12 startParkLoad]]).next s

/-! ## What follows an MRAM commit (R314, R315) -/

/-- Elements whose park code two images give differently (R184). -/
def parkMoved (a b : List Byte) : List Nat := (List.range numElems).filter fun e =>
  let o := 72 + 128 * lanePairOf e + 2 * slotOf e
  decide (leAt a o 2 ≠ leAt b o 2)

/-- ENF_PROG and ENF_ECT take their new values; setting ENF_PROG ends the verification of inactive banks that no customer
signature covers (R370, R371). -/
def enforceTakes (prog ect : Bool) : Act := .look fun s => .all [
  updSec fun x => { x with enf := (x.enf &&& 4#3) ||| BitVec.ofNat 3 (prog.toNat + 2 * ect.toNat) }, showSec,
  Act.when (prog && !enfProg s) (Act.upto 96 fun e => Act.upto 2 fun b =>
    Act.when (!bankBusy s e b && !bankRom s e b && !((progInfo s e b).any (·.signed))) (clrBit (A.engStat e) (27 + b)))]

/-- What a transaction's commit brings about. -/
def txnAfter (t : NvmTxn) : Act := match t.after with
  | .nothing | .mapStored _ => .done
  | .park img => .look fun s => .all [
    updNvm fun n => { n with parkNext := some img },
    parkCommitEnds,
    Act.each (parkMoved s.nvm.park img) fun n => updSupN n fun x => { x with weak := if x.weak = 1 then 2 else x.weak },
    event A.nvmEvt 5 341]
  | .ect es => Act.each es fun n => .all [
    renewMasterCrc (n / 896), wantMirror n, .look fun s => updSupN n fun x => { x with calDay := some (recAux s 7 n % 2 ^ 32) }]
  | .charact n => .all [renewMasterCrc (n / 896), wantMirror n, calSucceeds]
  | .keys | .patch _ => showSec
  | .options _ enf => .all [
    setBit A.optPend 0,
    (match enf with
      | some (prog, ect) => enforceTakes prog ect
      | none => .done)]

/-- What the abandonment of a transaction brings about beyond its command's status: a characterisation fails (R316). -/
def txnFailed (t : NvmTxn) : Act := match t.after with
  | .charact _ => calFails
  | _ => .done

/-- NVM_TXN_STEP. -/
def execNvmTxnStep (s : State) : Host.Outcome State Fault Refusal := (nvmStep txnAfter txnFailed).next s

/-! ## Engine events (R138) -/

/-- The connections whose paths an entry with code 0x0203 parked: its group's lanes name the elements (Table GI-8, Table CS-6). -/
def parkedConns (s : State) (e : Nat) (w : BitVec 64) : List (Nat × Conn) :=
  let v := w.toNat
  if v / 2 ^ 48 ≠ 0x0203 then []
  else ((List.range 16).filter (v / 2 ^ 32).testBit).flatMap fun l =>
    let n := 112 * e + 16 * (v / 2 ^ 29 % 8) + l
    (onPaths s n).map fun c => (n, c)

/-- EVENT_QUEUE_DRAIN: the supervisors take every entry of engine e's queue, and report each connection that a parked element leaves
dark. -/
def execEventQueueDrain (e : Fin 96) (s : State) : Host.Outcome State Fault Refusal :=
  (Act.whenS supvRuns (.look fun s => .all [
    Act.each (engOf s e).evq fun w => .all [
      pushEvent (engineRecord s e w),
      Act.each (parkedConns s e w) fun (n, c) =>
        pushEvent { code := 0xF006, source := 1, object := n, time := nowNs s, connTag := c.tag, tenant := connOwner s c }],
    updEngN e fun x => { x with evq := [] }, refreshConnParks])).next s

end Sys2Proof.Machine
end

