-- ==== Sys2Proof/Machine/Clocks.lean ====
section
/-!
DEFINITION. Clocks that become good or are lost, requalification, crossing FIFOs and gating (spec/13_clocks_reset.md R325-R334).
-/

namespace Sys2Proof.Machine

/-! ## Clock-good (R328) -/

/-- A clock by its name; the AON domain's is REFCLK. -/
def clockOf : ClockId → ClockId
  | .domain d => if d.val = 43 then .refclk else .domain d
  | c => c

/-- Domain d becomes good. The frequency it was measured at is open (log entry 1). -/
def goodDomain (d : Nat) : Act := withFree fun w => .all [setBit (A.clkDstat d) 31, setFld (A.clkDstat d) 15 0 (w.toNat % 2 ^ 16)]

/-- Domain d leaves reset; under a latched THERMTRIP only AON and PERI run (Table FT-7). The port mode that PP_TXCORR and PP_RXCORR are taken from is
there once the port's domain is (R382, log entry 88). -/
def leaveReset (d : Nat) : Act := .whenS (fun s => domGood s d && (!s.thm.tripped || d == 42 || d == 43)) (.all [
  clrBit (A.clkDstat d) 30, updClk fun c => { c with lost := c.lost.filter (· != d) },
  Act.when (decide (d = 39) || decide (44 ≤ d ∧ d < 48)) (Act.upto 2 fun p =>
    .whenS (fun s => !domInReset s (44 + 2 * p)) (refreshDelays p))])

/-- The reset is over and a bring-up step's predecessor is done. -/
def atPhase (s : State) (k : Nat) : Bool :=
  !s.clk.por && !s.clk.inReset && !s.clk.req && !s.thm.tripped && decide (fld s A.rstPhase 2 0 = k)

/-- RST_PHASE := k (R338). -/
def setPhase (k : Nat) : Act := setFld A.rstPhase 2 0 k

/-- Step 1 of bring-up: AON runs. -/
def stepOne : Act := .whenS (fun s => s.clk.aon && atPhase s 0) (setPhase 1)

/-- REFCLK has given 1,024 edges: AON runs, and its filter sees RESET_N; after a loss a chip reset follows (Tables CK-3, CK-4). -/
def refclkGood : Act := .whenS (fun s => !s.clk.por && !s.clk.aon) (.look fun s => .all [
  setBit A.clkStat 27, updClk fun c => { c with aon := true }, goodDomain 43, leaveReset 43,
  if s.clk.lossReset = some 0 then .all [updClk fun c => { c with lossReset := none }, umpireReset 0] else stepOne,
  Act.when s.clk.pinLow (resetRequest 1)])

/-- The root has locked and is good; the always-present domains leave reset at step 2 (Table CK-6). -/
def rootGood : Act := .whenS (fun s => s.clk.aon && !s.clk.por && !s.clk.inReset && !bit s A.clkStat 30) (.look fun s => .all [
  setFld A.clkStat 31 30 3,
  if s.clk.lossReset = some 1 then .all [updClk fun c => { c with lossReset := none }, umpireReset 1]
  else Act.when (atPhase s 1) (.all [
    Act.upto 43 goodDomain,
    Act.each [12, 13, 14, 39, 40, 41, 42] leaveReset,
    showSec, setPhase 2])])

/-- The SerDes PLL is good: the domains it clocks leave reset, once AON runs (R325). -/
def serdesGood : Act := .whenS (fun s => s.clk.aon && !s.clk.por && !s.clk.inReset && !bit s A.clkStat 28) (.all [
  setFld A.clkStat 29 28 3, withFree fun w => wr A.clkRefmeas w,
  Act.each [44, 46, 56, 57, 58] fun d => .all [goodDomain d, leaveReset d]])

/-- After the security core's return its status shows again (log entry 44). -/
def secReturns : Act := .look fun s => .all [
  Act.each (s.clk.saved.filter fun p => decide (p.1 = A.secStat ∨ p.1 = A.secPatchver)) fun p => wr p.1 p.2,
  updClk fun c => { c with saved := c.saved.filter fun p => !decide (0x6000 ≤ p.1 ∧ p.1 < 0x7000) },
  showSec]

/-- One domain's clock becomes good, or has stayed good through a block reset that is now over: with its source good, and unless the supervisors
restore it (DOMAIN_REQUALIFY) or its loss asked for a chip reset. -/
def domainGood (d : Nat) : Act := .whenS (fun s =>
    s.clk.aon && !s.clk.por && !s.clk.inReset && (!domGood s d || s.clk.lost.contains d) && decide (d < 59) &&
    (if d ≤ 42 then bit s A.clkStat 30 && decide (2 ≤ fld s A.rstPhase 2 0) && !(restorable d && s.clk.lost.contains d) &&
        !(s.clk.lost.contains d && [12, 13, 42].contains d)
      else bit s A.clkStat 28)) (.all [
  .whenS (fun s => !domGood s d) (goodDomain d), leaveReset d, Act.when (d == 14) secReturns])

/-- CLOCK_GOOD_QUALIFY. -/
def execClockGoodQualify (c : ClockId) (s : State) : Host.Outcome State Fault Refusal :=
  (match clockOf c with
    | .refclk => refclkGood
    | .root => rootGood
    | .serdes => serdesGood
    | .domain d => domainGood d).next s

/-! ## Losses (R329, Table CK-3) -/

/-- Domain d's clock-good falls, and is counted. -/
def dropGood (d : Nat) : Act := .whenS (fun s => domGood s d) (.all [
  clrBit (A.clkDstat d) 31, bump (A.clkDstat d) 23 16, bump A.clkLosscnt 15 0])

/-- The Umpire source of a domain's loss (Table FT-1). -/
def lossSource (d : Nat) : Nat :=
  if d < 12 then 3 else if d = 12 ∨ d = 13 ∨ d = 42 then 2 else if d = 14 then 5 else if d < 39 then 4
  else if d = 39 then 6 else if d < 42 then 7 else 9

/-- Every domain of a list falls into reset with its clock; FAB_HOLD goes to the tiles' pull-ups and the BCO channels switch off. -/
def allLost (l : List Nat) : Act := .all [
  Act.each l fun d => .all [dropGood d, setBit (A.clkDstat d) 30],
  Act.upto 12 fun t => updTile t fun x => { x with driven := false },
  Act.upto 24 bcoOff,
  updEng fun x => { x with smpRead := [], smpFill := [], drvEmit := [], drvFill := [] }]

/-- A bit of CLK_EVT sets and its source is raised: a clock source's address is the domain number (R349); the root stands as domain 0, the
SerDes PLL as domain 44. -/
def clockEvent (i src d : Nat) : Act := .all [setBit A.clkEvt i, raise { src := src, addr := d }]

/-- A reference or the root is lost: reported, then everything it clocks is in reset until it returns and a chip reset follows. -/
def clockLost (src : Nat) (l : List Nat) : Act := .all [
  clockEvent 3 src (if src = 0 then 43 else 0), allLost l, updClk fun c => { c with lossReset := some src }]

/-- One domain's clock is lost. -/
def domainLost (d : Nat) : Act := .whenS (fun s => domGood s d && d != 43 && d != 59) (.all [
  dropGood d, clockEvent 3 (lossSource d) d,
  if d = 12 ∨ d = 13 ∨ d = 42 then .all [
    updClk fun c => { c with lost := d :: c.lost.filter (· != d) }, setBit (A.clkDstat d) 30, umpireReset 2]
  else domainDown raise d])

/-- CLOCK_GOOD_LOSS. -/
def execClockGoodLoss (c : ClockId) (s : State) : Host.Outcome State Fault Refusal :=
  (match clockOf c with
    | .refclk => Act.whenS (fun s => s.clk.aon && !s.clk.por) (.all [
        clockLost 0 (List.range 59), wrNat A.clkStat 0, setFld A.pciLstat 8 0 0, updClk fun c => { c with aon := false }])
    | .root => Act.whenS (fun s => bit s A.clkStat 30) (.all [clockLost 1 (List.range 43), setFld A.clkStat 31 30 0])
    | .serdes => Act.whenS (fun s => bit s A.clkStat 28) (.all [
        setFld A.clkStat 29 28 0, clockEvent 2 8 44,
        Act.each (List.range' 44 15) fun d => Act.whenS (fun s => domGood s d) (.all [
          dropGood d, clockEvent 3 9 d, domainDown raise d])])
    | .domain d => domainLost d).next s

/-! ## Requalification (R330) -/

/-- The saved registers of a domain return. -/
def restoreRegs (d : Nat) : Act := .look fun s =>
  let own := fun (p : Nat × Word) => (domRegs d).any fun r => decide (r.1 ≤ p.1 ∧ p.1 ≤ r.2)
  .all [
    Act.each (s.clk.saved.filter own) fun p => wr p.1 p.2,
    updClk fun c => { c with saved := c.saved.filter fun p => !own p }]

/-- A bank that was verified is verified again, as PROG_VERIFY does (R110). -/
def reverify (e b : Nat) : Act := .look fun s => Act.when (bankOk s e b && !bankRom s e b) (
  match progInfo s e b with
    | none => clrBit (A.engStat e) (27 + b)
    | some x =>
      let img := bankBytes s e b x.count
      if (programFault (programWords img)).isSome then clrBit (A.engStat e) (27 + b) else bankVerified e b img x)

/-- The supervisors restore an engine's state and restart it. -/
def restoreEngine (e : Nat) : Act := .look fun s => .all [
  wrNat (A.engSpbank e) 0, wrNat (A.engSwap e) 0,
  setFld (A.engStat e) 31 30 0, setFld (A.engStat e) 24 20 0,
  reverify e 0, reverify e 1,
  rewriteWindows e,
  Act.when (bit s (A.engCtrl e) 0) (.all [
    .look fun s => Act.when (bankRom s e (actBank s e)) (parkForStart e), writeRun e true])]

/-- Cluster c returns. An element update that was under way is asked for again; the tile stays held until the host releases it. -/
def restoreCluster (c : Nat) : Act := .all [
  .look fun s => Act.when (bit s (A.cluStat c) 30) (.all [
    clrBit (A.cluStat c) 30, wantMirror (896 * c + fld s (A.cluStat c) 29 20)]),
  setFld (A.cluStat c) 7 0 0,
  Act.upto 8 fun i => restoreEngine (8 * c + i),
  parkTile c]

/-- EDL group t returns: a range change that ran is over, and the row of Table FL-9 repeats where the lanes were driven. -/
def restoreEdl (t : Nat) : Act := .all [
  Act.upto 16 fun l => setFld (A.edlStat (16 * t + l)) 3 2 0,
  .whenS (fun s => bit s (A.edlStat (16 * t)) 0) (tileRow t)]

/-- EML group t returns: no slice is in CAL_FAULT, no sequence runs, and the row of Table FL-9 repeats. -/
def restoreEml (t : Nat) : Act := .all [
  Act.upto 16 fun l => setFld (A.emlStat (16 * t + l)) 31 12 0,
  .whenS (fun s => bit s (A.edlStat (16 * t)) 0 || s.clk.lost.contains (15 + t)) (tileRow t)]

/-- DOMAIN_REQUALIFY: a lost cluster, EDL or EML domain has passed its measurement window. -/
def execDomainRequalify (d : Fin 60) (s : State) : Host.Outcome State Fault Refusal :=
  (Act.whenS (fun s => restorable d && s.clk.lost.contains d.val && bit s A.clkStat 30 && !s.clk.inReset && !s.clk.por &&
      decide (4 ≤ fld s A.rstPhase 2 0) && !s.thm.tripped) (.all [
    goodDomain d, leaveReset d,
    .whenS supvRuns (.all [
      restoreRegs d,
      if d.val < 12 then restoreCluster d else if d.val < 27 then restoreEdl (d - 15) else restoreEml (d - 27)]),
    refreshFault (if d.val < 12 then d else (d - 15) % 12)])).next s

/-! ## Gating (R334) -/

/-- Domains whose bit of CLK_GATE a host write reaches (Table CK-2). -/
def gateable (d : Nat) : Bool :=
  decide (d < 12) || decide (14 ≤ d ∧ d < 39) || decide (44 ≤ d ∧ d < 57)

/-- Write the CLK_GATE bit of a domain. Clearing it is a wake. -/
def writeGate (d : Nat) (v : Bool) : Act := .look fun s =>
  if !gateable d then .done
  else if !v then clrBit (gateReg d) (d % 32)
  else if gateOk s d then setBit (gateReg d) (d % 32)
  else .all [clrBit (gateReg d) (d % 32), clockEvent 4 12 d]

def execClkGateWrite (d : Fin 60) (v : Bool) (s : State) : Host.Outcome State Fault Refusal :=
  (hostWriteFld (gateReg d) (d % 32) (d % 32) v.toNat (writeGate d v)).next s

/-- DOMAIN_WAKE: a wake request reaches a gated domain and its clock restarts, WAKING for its first 8 stable cycles; at a waking domain those are
over, and its clock stops again if it is idle. -/
def execDomainWake (d : Fin 60) (s : State) : Host.Outcome State Fault Refusal :=
  (Act.look fun s => if clkGated s d then setBit (A.clkDstat d) 28 else clrBit (A.clkDstat d) 28).next s

/-! ## Crossing FIFOs (R333) -/

/-- FIFO_RESYNC: the FIFOs of domain d, which was in reset, run their handshake with every side out of reset and start again empty: n entries were
discarded, and the losers of what they held are told. -/
def execFifoResync (d : Fin 60) (n : BitVec 16) (lost : FifoLoss) (s : State) : Host.Outcome State Fault Refusal :=
  (Act.whenS (fun s => fifoHeld s d && (d.val :: fifoPeers d).all fun x => !domInReset s x) (.all [
    updClk fun c => { c with resync := c.resync.filter (· != d.val) },
    bump A.clkFdrop 15 0 n.toNat,
    Act.when (decide (27 ≤ d.val ∧ d.val < 39)) (updEng fun x => { x with
      smpFill := sdrop [(1792 * (d - 27), 1792 * (d - 27) + 1791)] x.smpFill }),
    Act.when (decide (d.val < 12)) (updEng fun x => { x with
      smpFill := sdrop [(1792 * d, 1792 * d + 1791)] x.smpFill }),
    Act.when (decide (15 ≤ d.val ∧ d.val < 27)) (updEng fun x => { x with
      drvFill := sdrop [(896 * (d - 15), 896 * (d - 15) + 895)] x.drvFill }),
    Act.when (decide (48 ≤ d.val ∧ d.val < 57)) (Act.each lost.frames fun (k, m) =>
      Act.when (decide (d.val = 56 ∨ d.val = 48 + k)) (bump (A.klkLdrop k) 15 0 m.toNat)),
    Act.each lost.cmd.toList fun tag => Act.whenS (fun s => s.host.cmds.any fun c => c.tag == tag.val) (complete tag St.dmaError)])).next s

end Sys2Proof.Machine
end

