-- ==== Sys2Proof/Machine/Huddle.lean ====
section
/-!
DEFINITION. Huddle: messages, voting, decision, outcome, revert and closing of commit groups (spec/08_huddle.md R216-R234).
-/

namespace Sys2Proof.Machine

/-! ## Groups -/

def openGroups (s : State) : List Group_ := s.hdl.slots.filterMap (·.2)
def slotGroup (s : State) (i : Nat) : Option Group_ := sget (fun _ => none) s.hdl.slots i
def freeSlot (s : State) : Option Nat := (List.range 64).find? fun i => (slotGroup s i).isNone
def closedRec (s : State) (id : Nat) : Option Closed := s.hdl.closed.find? fun c => c.id == id
def heardOf (g : Group_) (i : Nat) : Heard := sget (fun _ => {}) g.heard i
/-- Change what is kept of member i. -/
def putHeard (i : Nat) (f : Heard → Heard) (g : Group_) : Group_ := { g with heard := smod (fun _ => {}) g.heard i f }
def updHeard (id i : Nat) (f : Heard → Heard) : Act := updHGroup id (putHeard i f)
/-- Indices of the other members. -/
def others (g : Group_) : List Nat := (List.range g.members.length).filter (· != g.index)
/-- A member's own entries. -/
def ownChanges (g : Group_) : List Change := ((g.sets[0]?).getD []).map fun e => changeOf e.toNat
/-- 250 ns intervals in a microsecond and in W's millisecond. -/
abbrev perUs : Nat := 4
abbrev perMs : Nat := 4000
/-- The state a member shows: a scheduled revert outlasts the others. -/
def shown (g : Group_) (x : Nat) : Nat := if g.tRev.isSome then 6 else x
/-- The first grid instant at least so many nanoseconds from now. -/
def gridAfter (s : State) (ns : Nat) : Nat := (nowNs s + ns + 249) / 250
/-- Instant of R229: the first T + kW at least 20 us from now. -/
def revertInstant (s : State) (g : Group_) : Nat :=
  let w := perMs * g.w
  let e := gridAfter s 20000
  g.time + w * max 1 ((e - g.time + w - 1) / w)

/-- HDL_STAT and HDL_GSTAT follow the groups (Table HD-14). A group of which only entries have come shows no index yet. -/
def showHdl : Act := .look fun s =>
  let half (i : Nat) : Nat := match slotGroup s i with
    | some g => g.state * 4096 + (if g.index = 0 && !g.members.isEmpty then 2048 else 0) + g.index
    | none => 0
  .all [
    wrNat A.hdlStat (((openGroups s).filter fun g => decide (g.state = 7)).length * 65536 + (openGroups s).length),
    Act.upto 32 fun n => wrNat (A.hdlGstat n) (half (2 * n + 1) * 65536 + half (2 * n))]

/-! ## Messages (R220, Tables HD-5 and HD-6) -/

/-- A message of group g to a member's address. -/
def hdlSendTo (id t index state msg dst : Nat) (body : List Byte) : Act :=
  klkSend 1 dst (natBe 1 msg ++ natBe 1 state ++ natBe 2 index ++ natBe 4 id ++ natBe 8 t ++ body)
def hdlSend (g : Group_) (msg i : Nat) (body : List Byte) : Act := Act.each (g.members[i]?).toList fun dst =>
  hdlSendTo g.id g.time g.index g.state msg dst body
/-- A message to the members of a list, as the group then stands. -/
def hdlSendAll (id msg : Nat) (dst : List Nat) (body : List Byte) : Act := .look fun s =>
  Act.each (findHGroup s id).toList fun g => Act.each dst fun i => hdlSend g msg i body

/-- Entries as they are sent, most significant byte first. -/
def entryBytes (l : List (BitVec 64)) : List Byte := l.flatMap fun e => natBe 8 e.toNat
/-- PREPARE fragments of a member's entries: one with the parameters, then one for each 1,024 entries. -/
def fragTotal (n : Nat) : Nat := 1 + (n + 1023) / 1024
def prepareBodies (g : Group_) (i : Nat) : List (List Byte) :=
  let l := (g.sets[i]?).getD []
  let n := fragTotal l.length
  (natBe 1 n ++ [0#8] ++ natBe 2 g.g ++ natBe 2 g.w ++ natBe 2 g.lat ++ natBe 2 g.rtx ++ natBe 2 g.members.length ++
    natBe 2 l.length ++ natBe 4 (crc32c (entryBytes l)).toNat ++ g.members.flatMap (natBe 2)) ::
  (List.range (n - 1)).map fun k => natBe 1 ((k + 1) * 16 + n) ++ List.replicate 7 0#8 ++ entryBytes ((l.drop (1024 * k)).take 1024)
def sendPrepare (g : Group_) (i : Nat) : Act := Act.each (prepareBodies g i) (hdlSend g 1 i)

def voteBody (reason : Nat) : List Byte := natBe 1 (if reason = 0 then 1 else 0) ++ [0#8] ++ natBe 2 reason
def outcomeBody (o : Nat × Nat) : List Byte := natBe 1 o.1 ++ [0#8] ++ natBe 2 o.2
def decideBody (commit : Bool) : List Byte := natBe 1 commit.toNat

/-- What a group still has to send again (R220, R226, R231). A closed group repeats an abort, its outcome and its revert. -/
def resend (s : State) (g : Group_) (closed : Bool) : Act :=
  let owing (ok : Heard → Bool) : List Nat := (others g).filter fun i => !ok (heardOf g i)
  let sends (msg : Nat) (ok : Heard → Bool) (body : List Byte) : Act := Act.each (owing ok) fun i => hdlSend g msg i body
  .all [
    Act.when (!closed && decide (g.index = 0) && g.decide_.isNone && decide (0 < dueIn s g.time (1000 * (g.g + g.lat))))
      (Act.each (owing fun h => h.vote.isSome) (sendPrepare g)),
    Act.when (decide (g.index = 0)) (Act.each g.decide_.toList fun d => sends 3 (·.decideAcked) (decideBody d)),
    Act.each g.outcome.toList fun o => sends 5 (·.outcomeAcked) (outcomeBody o),
    Act.when (!closed && decide (g.index = 0) && g.final) (sends 6 (·.finalAcked) []),
    Act.each g.tRev.toList fun t => sends 7 (·.revertedAcked) (natBe 8 t),
    Act.each g.repair.toList fun t => sends 8 (·.repairAcked) (natBe 8 t),
    Act.when (!closed && (decide (g.state = 5) || decide (g.state = 7))) (sends 4 (·.confirmed) [6#8])]

/-- A closed group still waits for an answer. -/
def tailOpen (g : Group_) : Bool := !g.outs.isEmpty || (others g).any fun i =>
  let h := heardOf g i
  (decide (g.index = 0) && g.decide_.isSome && !h.decideAcked) || (g.outcome.isSome && !h.outcomeAcked) ||
  (g.tRev.isSome && !h.revertedAcked) || (g.repair.isSome && !h.repairAcked)

/-! ## Dark outputs (R228) -/

/-- Cross-device outputs: output VOAs of named connections with a TRANSIT end. -/
def crossOuts (s : State) (g : Group_) : List Nat :=
  ((ownChanges g).filter fun c => connTransit s c.conn && (outVoa s c.conn.out).isSome).map (·.conn.out)
def refreshOuts (l : List Nat) : Act := .look fun s => Act.each (l.filterMap (outVoa s)) refreshFpark
/-- Every member holds A for certain. -/
def allOld (g : Group_) : Bool := (List.range g.members.length).all fun i => (heardOf g i).old

/-! ## Closing (R217, R227, R232) -/

/-- The requests and the commit of a group leave the pipeline: an armed commit is disarmed, and what was solved against its map B waits
again (R173, R202). -/
def dropGroup (id : Nat) : Act := .look fun s =>
  let armed := s.pipe.cur.any fun c => c.group == some id && (decide (c.stage = .armed) || decide (c.stage = .solved))
  .all [
    Act.when armed disarmEngines,
    updPipe fun p => { p with
      batch := match p.batch with
        | some [r] => if reqGroup r == some id then none else some [r]
        | b => b,
      next := p.next.filter fun c => c.group != some id,
      cur := if armed then none else p.cur },
    Act.when armed requeue, updPipe fun p => { p with waiting := p.waiting.filter fun r => reqGroup r != some id },
    betweenBatches]

/-- First member that did not apply: as it was heard, or the first without an outcome of APPLIED (R232). -/
def badMember (g : Group_) : Nat × Nat := match g.bad with
  | some b => b
  | none => (((List.range g.members.length).find? fun i => (heardOf g i).outcome.map (·.1) != some 1).getD 0, St.huddleReverted)

/-- The initiator's command ends (R232, R254). -/
def huddleDone (g : Group_) (new : Bool) : Act := Act.each g.tag.toList fun t =>
  let b := badMember g
  complete t (if g.forced then St.huddleForced else if new then St.success else if g.result ≠ 0 then g.result else St.huddleReverted) g.id 0
    (natLe 4 (if new then 0 else b.1 * 65536 + b.2))

/-- Barriers whose groups have all closed are completed (R247). -/
def huddleBarriers : Act := .look fun s =>
  let ready := s.hdl.barriers.filter fun b => b.2.all fun id => (findHGroup s id).isNone
  .all [updHdl fun h => { h with barriers := h.barriers.filter fun b => !ready.contains b }, Act.each ready fun b => complete b.1 St.success]

/-- Group id closes, with the new map or the old one. -/
def closeGroup (id : Nat) (new : Bool) : Act := .look fun s => match findHGroup s id with
  | none => .done
  | some g0 =>
    let g1 := { putHeard g0.index (fun h => { h with old := !new }) g0 with state := if new then 8 else 9 }
    let g := if new || allOld g1 then { g1 with outs := [] } else g1
    .all [
      dropGroup id,
      Act.when new (.all [updPipe fun p => { p with cur := p.cur.filter fun c => c.group != some id }, betweenBatches]),
      updHdl fun h => { h with
        slots := h.slots.foldl (fun m p => if p.2.any fun x => x.id == id then sset (fun _ => none) m p.1 none else m) h.slots,
        closed := h.closed.drop (h.closed.length - 4095) ++ [{ id := id, state := g.state, owner := g.owner, index := g.index }],
        tails := if !new && tailOpen g then h.tails ++ [g] else h.tails },
      refreshOuts g0.outs, huddleDone g new, huddleBarriers]

/-- A FINAL_HELD or IN_DOUBT member closes once every other member has confirmed (R227). -/
def closeIfConfirmed (id : Nat) : Act := .look fun s => match findHGroup s id with
  | some g => Act.when ((decide (g.state = 5) || decide (g.state = 7)) && (others g).all fun i => (heardOf g i).confirmed) (closeGroup id true)
  | none => .done

/-! ## Reverts (R229, R230) -/

/-- A revert is scheduled, and told to every member; a second one keeps the earlier instant. -/
def scheduleRevert (id t : Nat) : Act := .look fun s => match findHGroup s id with
  | none => .done
  | some g => match g.tRev with
    | some u => updHGroup id fun g => { g with tRev := some (min t u) }
    | none => .all [
        updHGroup id fun g => { g with tRev := some t, state := 6 },
        hdlSendAll id 7 (others g) (natBe 8 t)]

def revertSoon (id : Nat) : Act := .look fun s => Act.each (findHGroup s id).toList fun g => scheduleRevert id (revertInstant s g)

/-! ## Outcomes (R225, R226, R230) -/

/-- FINAL is held: the member confirms to every member. -/
def holdFinal (id : Nat) : Act := .look fun s => Act.each (findHGroup s id).toList fun g => .all [
  updHGroup id fun g => { g with state := 5 }, hdlSendAll id 4 (others g) [6#8], closeIfConfirmed id]

/-- Member i's outcome is known. The initiator sends REPAIR at the first that did not apply, FINAL when all applied. -/
def takeOutcome (id i : Nat) (o : Nat × Nat) : Act := .all [
  updHGroup id fun g =>
    let x := putHeard i (fun h => { h with outcome := some o, old := h.old || decide (o.1 = 2) || decide (o.1 = 4) }) g
    { x with bad := x.bad.or (if o.1 = 2 ∨ o.1 = 3 then some (i, o.2) else none) },
  .look fun s => Act.each ((findHGroup s id).toList.filter fun g => decide (g.index = 0) && !g.final) fun g =>
    let t := gridAfter s (1000 * g.lat + 20000)
    if (o.1 = 2 ∨ o.1 = 3) ∧ g.repair = none then .all [
      updHGroup id fun g => { g with repair := some t }, hdlSendAll id 8 (others g) (natBe 8 t), event A.hdlEvt 2 395, scheduleRevert id t]
    else Act.when (((List.range g.members.length).all fun j => (heardOf g j).outcome.map (·.1) == some 1) && decide (g.state = 4) &&
        decide (0 < dueIn s (g.time + perMs * g.w) (1000 * g.lat))) (.all [
      updHGroup id fun g => { g with final := true }, hdlSendAll id 6 (others g) [], holdFinal id])]

/-- The member sends an outcome of its own to every member. -/
def sendOutcome (id : Nat) (o : Nat × Nat) : Act := .look fun s => Act.each (findHGroup s id).toList fun g => .all [
  updHGroup id fun g => { g with
    outcome := some o, heard := g.heard.map fun h => (h.1, { h.2 with outcomeAcked := false }) },
  hdlSendAll id 5 (others g) (outcomeBody o), takeOutcome id g.index o]

/-! ## What the pipeline did to a group's commit -/

/-- SPLIT is raised once, and the members that it names are kept. -/
def raiseSplit (g : Group_) (missing : List Nat) : Act := .look fun s => .all [
  updHGroup g.id fun g => { g with split := true, missing := missing }, event A.hdlEvt 5 398,
  pushEvent { code := 0xF007, source := 4, object := g.id, time := nowNs s, connTag := 0, tenant := g.owner, detail := 0 }]
/-- At T + 2W without an OUTCOME of some member (R232). -/
def checkSplit (s : State) (g : Group_) : Act :=
  let l := (others g).filter fun i => (heardOf g i).outcome.isNone
  Act.when (!g.split && dueBy s (g.time + 2 * perMs * g.w) 0 && !l.isEmpty) (raiseSplit g l)

/-- Bring group id up to date with its commit: applied, failing, gone before its strobes, or reverted (R224, R225, R229). -/
def followGroup (id : Nat) : Act := .look fun s => Act.each (findHGroup s id).toList fun g =>
  let stage := (s.pipe.cur.filter fun c => c.group == some id).map (·.stage)
  let back := decide (stage = some .reverting) || decide (stage = some .revArmed) || decide (stage = some .revSettling)
  if g.go ∧ stage = some .applied ∧ !g.applied ∧ !g.leaving then .all [
    updHGroup id fun g => { g with applied := true, state := shown g 4 }, sendOutcome id (1, 0)]
  else if g.go && back && !g.leaving && g.outcome.isNone then sendOutcome id (3, St.settleFailed)
  else match g.fail with
    | none => .done
    | some st =>
      if g.ended || !g.checked then .done
      else if g.outcome.isNone && !g.leaving then .all [
        updHGroup id fun g => { g with ended := true, state := shown g 10 }, sendOutcome id (2, st)]
      else .all [
        updHGroup id fun g => { g with ended := true, state := shown g 10 }, event A.hdlEvt 3 396,
        sendOutcome id (4, if g.leaving then St.huddleReverted else st),
        Act.when g.leaving (.all [.look fun s => checkSplit s g, closeGroup id false])]

def hdlFollow : Act := .look fun s => Act.when (!s.hdl.slots.isEmpty) (.all [Act.each (openGroups s) fun g => followGroup g.id, showHdl])

/-- A command that moves commits on, and what the groups make of it. -/
def execStagingDeadline (s : State) : Host.Outcome State Fault Refusal := (Act.all [stagingDeadlineAct, hdlFollow]).next s
def execTransitStrobe (s : State) : Host.Outcome State Fault Refusal := (Act.all [transitStrobeAct, hdlFollow]).next s
def execSettleResolved (s : State) : Host.Outcome State Fault Refusal := (Act.all [settleResolvedAct, hdlFollow]).next s
def execSettleDeadline (s : State) : Host.Outcome State Fault Refusal := (Act.all [settleDeadlineAct, hdlFollow]).next s
def execLightStrobe (s : State) : Host.Outcome State Fault Refusal := (Act.all [lightStrobeAct, hdlFollow]).next s
def execRevertLightStrobe (s : State) : Host.Outcome State Fault Refusal := (Act.all [revertLightStrobeAct, hdlFollow]).next s
/-- LANE_FRAME_START (R267, R272): it comes when the frame before is over. A step at the boundary renews the gates, and can end an armed commit of a
group. -/
def execLaneFrameStart (sub : Fin 8) (samples : List RawSample) (s : State) : Host.Outcome State Fault Refusal :=
  (Act.whenS (fun s => frameOver s sub) (.look fun s => .all [
    laneFrameStartAct sub samples, Act.when (schedulerRuns s && s.tim.stepPend.isSome) stepGates, hdlFollow])).next s

/-! ## Hearing members (R220, R227-R229) -/

/-- An ACK to the sender of a message. -/
def ackTo (h : HdlHead) (id state index msg : Nat) : Act :=
  hdlSendTo id h.time.toNat index state 4 h.src (natBe 1 msg)

/-- The answer for a group without an open slot: the recorded state, or UNKNOWN (R220). -/
def answerClosed (h : HdlHead) (msg : Nat) : Act := .look fun s =>
  let id := h.group.toNat
  ackTo h id (((closedRec s id).map (·.state)).getD 15) (((closedRec s id).map (·.index)).getD 0) msg

/-- Change a closed group that still waits for answers; it ends when none is missing, and its outputs reopen when every member holds A. -/
def updTail (id : Nat) (f : Group_ → Group_) : Act := .look fun s =>
  let l := s.hdl.tails.map fun g => if g.id = id then (let x := f g; if allOld x then { x with outs := [] } else x) else g
  .all [updHdl fun h => { h with tails := l.filter tailOpen },
    refreshOuts ((s.hdl.tails.filter fun g => decide (g.id = id)).flatMap (·.outs))]

/-- The member that sent a message: SENDER, where SRC is its address. One that reports UNKNOWN has lost its index with its record, and its
address names it (R228; DEDUCED, log entry 129). -/
def senderOf (h : HdlHead) (g : Group_) : Option Nat :=
  if h.state.val = 15 then g.members.findIdx? (· == h.src.val)
  else if g.members[h.sender.val]? = some h.src.val then some h.sender.val else none

/-- What the state in a message's header says of its sender, member i. -/
def hearState (h : HdlHead) (i : Nat) (g : Group_) : Group_ :=
  let st := h.state.val
  let x := putHeard i (fun y => { y with state := st, old := y.old || decide (st = 9) || decide (st = 15) }) g
  if st = 8 then { x with heard := (others x).foldl (fun m i => smod (fun _ => {}) m i fun y => { y with confirmed := true }) x.heard } else x

/-- A message arrives: what it says of its sender is kept; `f` adds what its body says. For an open group `go` follows; a group
without a slot is answered. An inconsistent message is dropped and counted. -/
def hearMsg (h : HdlHead) (msg : Nat) (reply : Bool) (f : Heard → Heard) (go : Group_ → Act) : Act := .whenS supvRuns (.look fun s =>
  let id := h.group.toNat
  match findHGroup s id with
  | none => .all [
      updTail id fun g => match senderOf h g with
        | some i => putHeard i f (hearState h i g)
        | none => g,
      Act.when reply (answerClosed h msg)]
  | some g =>
    let i := if g.members.isEmpty then some h.sender.val else senderOf h g
    if g.time ≠ h.time.toNat ∨ i.isNone then
      updHdl fun x => { x with dropped := x.dropped + 1 }
    else .all [
      updHGroup id fun g => putHeard (i.getD 0) f (hearState h (i.getD 0) g),
      Act.when (h.state.val = 6 ∨ h.state.val = 9) (revertSoon id),
      closeIfConfirmed id,
      .look fun s => (match findHGroup s id with
        | some g => go g
        | none => Act.when reply (answerClosed h msg)),
      followGroup id, showHdl])

/-- An ACK with the member's own state, as it then stands. -/
def ackOpen (h : HdlHead) (msg : Nat) : Act := .look fun s => match findHGroup s h.group.toNat with
  | some g => ackTo h g.id g.state g.index msg
  | none => answerClosed h msg

/-! ## Voting (R221, R222) -/

/-- Parameters of Table HD-4. -/
def hdlParamsOk (g w lat rtx : Nat) : Bool := within 2 100 g && within 1 1000 w && within 1 1000 lat && decide (20 * lat ≤ 1000 * w) && within 2 lat rtx

/-- The party whose request a member's change set is, for what it may do to others' connections: at the initiator the command's, elsewhere
the one tenant that the set names (DESIGN CHOICE, log entry 37). -/
def groupOwner (s : State) (g : Group_) : Nat :=
  if g.tag.isSome then g.owner else match changeParties s (ownChanges g) with
    | [p] => p
    | _ => 64

/-- Another open group that voted YES holds T. -/
def timeHeld (s : State) (g : Group_) : Bool :=
  (openGroups s).any fun x => decide (x.id ≠ g.id) && x.voted == some 0 && decide (x.time = g.time)

/-- The member's change set as a batch of its own, with what the search met. -/
def voteCommit (s : State) (g : Group_) (ans : RouteAnswer) : Commit :=
  makeCommit s (baseMap s) [({ id := 0, by_ := .group g.id, owner := groupOwner s g, ask := .changes (ownChanges g), time := some g.time }, ans)]
    g.time (some g.id)

/-- What the member votes: 0 for YES, else the first check that fails, in the order of R221. -/
def voteOf (s : State) (g : Group_) (ans : RouteAnswer) : Nat :=
  let l := ownChanges g
  let p := groupOwner s g
  let old := (baseMap s).conns.map (·.conn)
  let a := askConns s p (.changes l) old
  let c := voteCommit s g ans
  let st := ((c.reqs.head?).map (·.status)).getD 0
  if !hdlParamsOk g.g g.w g.lat g.rtx then St.huddleParamInvalid
  else if !timeSync s then St.huddleTimeUnsync
  else if g.tStatus ≠ 0 then g.tStatus
  else if timeHeld s g then St.huddleTBusy
  else if timeNear s g.time then St.commitTConflict
  else if ((g.sets[0]?).getD []).any fun e => decide (cut e.toNat 33 32 ≠ 0) && !(changeOf e.toNat).del then St.mapInvalid
  else if partyStatus s l ≠ 0 then partyStatus s l
  else if a.status ≠ 0 then a.status
  else if (changeParties s l).any fun q => !quotaOk s q old a.conns then St.rightMissing
  else if st ≠ 0 then st
  else if (changedElems s c.mapB c.gated).any fun n => elemStuck s n || !elemSlp s n then St.commitNotStaged else 0

/-- The initiator's abort: told to every member, and its own group closes (R223). -/
def abortGroup (id result : Nat) (bad : Nat × Nat) : Act := .look fun s => Act.each (findHGroup s id).toList fun g => .all [
  updHGroup id fun g => { g with decide_ := some false, result := result, bad := some bad },
  hdlSendAll id 3 (others g) (decideBody false), closeGroup id false]

/-- The initiator holds a new vote: an abort at the first NO; a commit once all are YES, by T - G - HDL_LAT. -/
def tally (id : Nat) : Act := .look fun s => Act.each ((findHGroup s id).toList.filter fun g => decide (g.index = 0) && g.decide_.isNone) fun g =>
  let votes := (List.range g.members.length).map fun i => (heardOf g i).vote
  match votes.findIdx? fun v => v.any (· ≠ 0) with
  | some i => abortGroup id St.huddleVoteNo (i, ((heardOf g i).vote).getD 0)
  | none => Act.when (votes.all (·.isSome) && decide (0 ≤ dueIn s g.time (1000 * (g.g + g.lat)))) (.all [
      updHGroup id fun g => { g with decide_ := some true }, hdlSendAll id 3 (others g) (decideBody true)])

/-- The vote would be ROUTE_BLOCKED, where R21 assures a route: the search has not ended. -/
def voteOwed (s : State) (g : Group_) (ans : RouteAnswer) : Bool :=
  decide (voteOf s g ans = St.routeBlocked) && (voteCommit s g ans).reqs.any (·.owed)

/-- HUDDLE_VOTE_SEND: the vote of the group in a slot, with what the route search found. The initiator holds its own. -/
def execHuddleVoteSend (slot : Fin 64) (ans : RouteAnswer) (s : State) : Host.Outcome State Fault Refusal :=
  (Act.whenS supvRuns (.look fun s => Act.each ((slotGroup s slot).toList.filter fun g => decide (g.state = 1) && g.ready && g.voted.isNone && !voteOwed s g ans) fun g =>
    let v := voteOf s g ans
    .all [
      updHGroup g.id fun g => { putHeard g.index (fun h => { h with vote := some v }) g with voted := some v, state := if v = 0 then 2 else 1 },
      Act.when (decide (v = 0)) (addReq (.group g.id) (groupOwner s g) (.changes (ownChanges g)) (some g.time)),
      Act.when (decide (g.index ≠ 0)) (hdlSendAll g.id 2 [0] (voteBody v)),
      if v ≠ 0 ∧ g.index ≠ 0 then closeGroup g.id false else tally g.id,
      showHdl])).next s

/-- A slot is refused to a PREPARE (R221, R236). -/
def refuseSlot (h : HdlHead) (index : Nat) : Act := .all [
  event A.hdlEvt 1 394,
  hdlSendTo h.group.toNat h.time.toNat index 9 2 h.src (voteBody St.huddleNoSlot),
  updHdl fun x => { x with closed := x.closed.drop (x.closed.length - 4095) ++ [{ id := h.group.toNat, state := 9, owner := 64, index := index }] }]

/-- A fragment joins its group. -/
def takeFrag (s : State) (h : HdlHead) (f : PrepFrag) (g : Group_) : Group_ := match f with
  | .params n gg w lat rtx e crc m =>
    { g with fragCount := n, g := gg.toNat, w := w.toNat, lat := lat.toNat, rtx := rtx.toNat, entries := e.toNat, crc := crc,
             members := m.map (·.val), index := (m.findIdx? fun a => decide (a.val = ownAddr s)).getD 0 }
  | .entries i n l => { g with id := h.group.toNat, fragCount := n, frags := sset (fun _ => []) g.frags i l }

/-- All fragments are there: the entries match, or all are awaited again (R221). -/
def checkFrags (id : Nat) : Act := .look fun s => Act.each ((findHGroup s id).toList.filter fun g => !g.ready && !g.members.isEmpty) fun g =>
  let l := (List.range (g.fragCount - 1)).flatMap fun k => sget (fun _ => []) g.frags (k + 1)
  let have_ := (List.range (g.fragCount - 1)).all fun k => !(sget (fun _ => []) g.frags (k + 1)).isEmpty
  if !have_ then .done
  else if l.length ≠ g.entries ∨ crc32c (entryBytes l) ≠ g.crc then updHGroup id fun g => { g with frags := [], members := [] }
  else updHGroup id fun x => { x with
    ready := true, sets := [l], frags := [], resendAt := nowNs s + 1000 * g.rtx,
    tStatus := if timeHeld s g then St.huddleTBusy else timeStatus s g.time (leadNs s + 40000) St.commitTNear }

/-- A fragment disagrees with what the device knows of the group. -/
def fragClash (s : State) (h : HdlHead) (f : PrepFrag) (g : Group_) : Bool :=
  decide (g.time ≠ h.time.toNat) || decide (h.sender.val ≠ 0) || (match f with
    | .params n _ _ _ _ _ _ m => (!g.members.isEmpty && decide (g.members.length ≠ m.length)) || !(m.any fun a => decide (a.val = ownAddr s)) ||
        (decide (g.fragCount ≠ 0) && decide (g.fragCount ≠ n.val))
    | .entries i n _ => (decide (g.fragCount ≠ 0) && decide (g.fragCount ≠ n.val)) || decide (n.val ≤ i.val) || decide (i.val = 0))

/-- The fragment names the members. -/
def tellsIndex : PrepFrag → Bool
  | .params .. => true
  | .entries .. => false

/-- PREPARE: a fragment arrives; the first opens a slot (R217, R220, R221). Without one, the fragment that tells the
member its index is refused, and one of entries is dropped (DEDUCED, log entry 129). Once the member has voted, a repeat brings its vote again. -/
def execPrepare (h : HdlHead) (f : PrepFrag) (s : State) : Host.Outcome State Fault Refusal :=
  (Act.whenS supvRuns (.look fun s =>
    let id := h.group.toNat
    match findHGroup s id with
    | some g =>
      if fragClash s h f g then updHdl fun x => { x with dropped := x.dropped + 1 }
      else if g.ready then
        let last := match f with
          | .params n .. => decide (n.val = 1)
          | .entries i n _ => decide (i.val + 1 = n.val)
        Act.when last (Act.each g.voted.toList fun v => hdlSend g 2 0 (voteBody v))
      else .all [updHGroup id (takeFrag s h f), checkFrags id, showHdl]
    | none =>
      let own := match f with
        | .params _ _ _ _ _ _ _ m => m.findIdx? fun a => decide (a.val = ownAddr s)
        | .entries .. => some 0
      if (closedRec s id).isSome then answerClosed h 1
      else match own, freeSlot s with
        | none, _ => updHdl fun x => { x with dropped := x.dropped + 1 }
        | some i, none => Act.when (tellsIndex f) (refuseSlot h i)
        | some i, some k =>
          if !bit s A.hdlCtrl 0 then Act.when (tellsIndex f) (refuseSlot h i)
          else
            let g : Group_ := { id := id, index := 0, members := [], time := h.time.toNat, g := 0, w := 0, lat := 0, rtx := 0 }
            .all [updHdl fun x => { x with slots := sset (fun _ => none) x.slots k (some (takeFrag s h f g)) }, checkFrags id, showHdl])).next s

/-- VOTE: at the initiator (R223). -/
def execVote (h : HdlHead) (reason : BitVec 16) (s : State) : Host.Outcome State Fault Refusal :=
  (hearMsg h 2 true (fun x => { x with vote := some reason.toNat }) fun g => tally g.id).next s

/-- HUDDLE_VOTE_DEADLINE: votes are missing at T - G - HDL_LAT. -/
def execHuddleVoteDeadline (slot : Fin 64) (s : State) : Host.Outcome State Fault Refusal :=
  (Act.whenS supvRuns (.look fun s => Act.each ((slotGroup s slot).toList.filter fun g =>
      decide (g.index = 0) && g.decide_.isNone && dueBy s g.time (1000 * (g.g + g.lat))) fun g => .all [
    abortGroup g.id St.huddleAborted
      (((List.range g.members.length).find? fun i => (heardOf g i).vote.isNone).getD 0, St.huddleAborted), showHdl])).next s

/-! ## Decision (R223, R224) -/

/-- DECIDE = abort is held: the member disarms, every member keeps A, and the group closes. -/
def holdAbort (id : Nat) : Act := .all [
  updHGroup id fun g => { g with
    heard := (List.range g.members.length).foldl (fun m i => smod (fun _ => {}) m i fun h => { h with old := true }) g.heard },
  closeGroup id false]

/-- DECIDE: an abort ends a member whose map is still A; a commit counts until T - G. -/
def execDecide (h : HdlHead) (commit : Bool) (s : State) : Host.Outcome State Fault Refusal :=
  (hearMsg h 3 true id fun g => .look fun s => .all [
    if h.sender.val ≠ 0 then .done
    else if commit then Act.when (g.decide_.isNone && !g.checked && decide (0 ≤ dueIn s g.time (1000 * g.g)))
      (updHGroup g.id fun g => { g with decide_ := some true })
    else Act.when (!g.go) (holdAbort g.id),
    ackOpen h 3]).next s

/-- HUDDLE_DECIDE_CHECK: at T - G cross-device outputs go dark; with DECIDE = commit and its commit still there the member is DECIDED, else
NOT_APPLIED. -/
def execHuddleDecideCheck (slot : Fin 64) (s : State) : Host.Outcome State Fault Refusal :=
  (Act.whenS supvRuns (.look fun s => Act.each ((slotGroup s slot).toList.filter fun g =>
      g.voted == some 0 && !g.checked && dueBy s g.time (1000 * g.g)) fun g =>
    let outs := crossOuts s g
    let yes := g.decide_ == some true
    .all [
      updHGroup g.id fun g => { g with outs := outs, checked := true }, refreshOuts outs,
      if g.fail.isSome then followGroup g.id
      else if yes then updHGroup g.id fun g => { g with go := true, state := shown g 3 }
      else .all [
        dropGroup g.id, updHGroup g.id fun g => { g with ended := true, state := shown g 10 }, sendOutcome g.id (2, St.huddleAborted)],
      showHdl])).next s

/-! ## Messages after T -/

/-- ACK: what it acknowledges; an ACK of FINAL confirms when its sender is FINAL_HELD, also one that is in doubt and therefore repeats it (R227,
R231, R234; DEDUCED, log entry 129), and is answered by a member without the group. -/
def execAck (h : HdlHead) (msg : Fin 9) (s : State) : Host.Outcome State Fault Refusal :=
  (hearMsg h 4 (decide (msg.val = 6)) (fun x => match msg.val with
    | 3 => { x with decideAcked := true }
    | 5 => { x with outcomeAcked := true }
    | 6 => { x with finalAcked := true, confirmed := x.confirmed || decide (h.state.val = 5 ∨ h.state.val = 7) }
    | 7 => { x with revertedAcked := true }
    | 8 => { x with repairAcked := true }
    | _ => x) fun _ => .done).next s

/-- OUTCOME: of a member, result 1 to 4 and status. -/
def execOutcome (h : HdlHead) (result : Fin 5) (status : BitVec 16) (s : State) : Host.Outcome State Fault Refusal :=
  (hearMsg h 5 true (fun x => { x with old := x.old || decide (result.val = 2) || decide (result.val = 4) }) fun g =>
    .all [takeOutcome g.id h.sender (result, status.toNat), ackOpen h 5]).next s

/-- FINAL: an APPLIED member that gets it before T + W confirms to every member; any other answers with its state. -/
def execFinal (h : HdlHead) (s : State) : Host.Outcome State Fault Refusal :=
  (hearMsg h 6 true id fun g => .look fun s =>
    if g.state = 4 ∧ 0 < dueIn s (g.time + perMs * g.w) 0 ∧ h.sender.val = 0 then holdFinal g.id else ackOpen h 6).next s

/-- REVERTED: the member schedules its own revert (Table HD-8). -/
def execReverted (h : HdlHead) (_tRev : BitVec 64) (s : State) : Host.Outcome State Fault Refusal :=
  (hearMsg h 7 true id fun g => .all [revertSoon g.id, ackOpen h 7]).next s

/-- REPAIR: at its T_REV if that is at least 20 us ahead. -/
def execRepair (h : HdlHead) (tRev : BitVec 64) (s : State) : Host.Outcome State Fault Refusal :=
  (hearMsg h 8 true id fun g => .look fun s => .all [
    if 0 ≤ dueIn s tRev.toNat 20000 then scheduleRevert g.id tRev.toNat else revertSoon g.id, ackOpen h 8]).next s

/-- HUDDLE_RESEND: every HDL_RTX the group with a number repeats what is not answered (R220); one timer serves all its messages (log
entry 120). -/
def execHuddleResend (group : BitVec 32) (s : State) : Host.Outcome State Fault Refusal :=
  (Act.whenS supvRuns (.look fun s =>
    let due (g : Group_) : Bool := decide (g.id = group.toNat) && reached s g.resendAt
    let later (g : Group_) : Group_ := if due g then { g with resendAt := nowNs s + 1000 * g.rtx } else g
    .all [
      Act.each ((openGroups s).filter due) fun g => .all [resend s g false, updHGroup g.id later],
      Act.each (s.hdl.tails.filter due) fun g => resend s g true,
      updHdl fun h => { h with tails := h.tails.map later }])).next s

/-! ## Timers (R229, R231, R232) -/

/-- HUDDLE_NO_FINAL_EXPIRY: no FINAL is held at T + W. -/
def execHuddleNoFinalExpiry (slot : Fin 64) (s : State) : Host.Outcome State Fault Refusal :=
  (Act.whenS supvRuns (.look fun s => Act.each ((slotGroup s slot).toList.filter fun g =>
      dueBy s (g.time + perMs * g.w) 0 && g.tRev.isNone && [2, 3, 4, 10].contains g.state) fun g => .all [
    scheduleRevert g.id (g.time + 2 * perMs * g.w), showHdl])).next s

/-- IN_DOUBT: at T + 2W a FINAL_HELD member that has not closed is in doubt. -/
def execInDoubt (slot : Fin 64) (s : State) : Host.Outcome State Fault Refusal :=
  (Act.whenS supvRuns (.look fun s => Act.each ((slotGroup s slot).toList.filter fun g =>
      dueBy s (g.time + 2 * perMs * g.w) 0) fun g => .all [
    checkSplit s g,
    Act.when (g.state = 5) (.all [
      updHGroup g.id fun g => { g with state := 7 }, event A.hdlEvt 4 397,
      .look fun s => Act.each (findHGroup s g.id).toList fun g =>
        let l := (others g).filter fun i => !(heardOf g i).confirmed
        if g.split then updHGroup g.id fun g => { g with missing := l } else raiseSplit g l]),
    showHdl])).next s

/-- The frame of T_REV begins next, or it is past: its strobe is due (R259). -/
def revertDue (s : State) (t : Nat) : Bool := dueBy s t 250

/-- The commit of a group that its fabric has begun to apply. -/
def groupCommit (s : State) (id : Nat) : Option Commit :=
  s.pipe.cur.filter fun c => c.group == some id && decide (c.stage ≠ .armed) && decide (c.stage ≠ .solved)

/-- HUDDLE_REVERT_AT_T_REV: a member whose fabric holds A closes once T_REV is reached; one with B takes the REVERT strobe at T_REV; one between
reverts as R192 states. -/
def execHuddleRevertAtTRev (slot : Fin 64) (s : State) : Host.Outcome State Fault Refusal :=
  (Act.whenS supvRuns (.look fun s => Act.each ((slotGroup s slot).toList.filter fun g =>
      !g.leaving && g.tRev.any fun t => if (groupCommit s g.id).isSome then revertDue s t else dueBy s t 0) fun g =>
    .all [
      checkSplit s g,
      match groupCommit s g.id with
      | none => closeGroup g.id false
      | some c => .all [
          updHGroup g.id fun g => { g with leaving := true },
          if c.stage = .applied then .all [
            updCur fun c => { c with
              why := St.huddleReverted, againAt := frameNo s, relit := c.gated.filter fun q => !(s.pipe.dark.any fun d => decide (d.out = q)) &&
                c.mapA.conns.any fun r => decide (r.conn.out = q) && c.mapB.conns.any fun x => sameConn x.conn r.conn },
            armRevert 2, strobe,
            if c.gated.isEmpty then revertDone else updCur fun c => { c with stage := .reverting }]
          else Act.when (c.stage ≠ .reverting && c.stage ≠ .revArmed && c.stage ≠ .revSettling)
            (updCur fun c => { c with stage := .reverting, why := St.huddleReverted })],
      followGroup g.id, showHdl])).next s

end Sys2Proof.Machine
end

