-- ==== Sys2Proof/Machine/CmdHuddle.lean ====
section
/-!
DEFINITION. The HUDDLE commands and the HDL registers (spec/08_huddle.md R216-R219, R231, R236, spec/09_command_set.md R254).
-/

namespace Sys2Proof.Machine

/-- Member records of the payload: addresses and counts; none where a reserved bit is set or a rule of R254 is broken. -/
def memberRecords (s : State) (n count : Nat) (img : List Byte) : Option (List (Nat × Nat)) :=
  let l := (entriesOf 8 img).take n
  let r := l.map fun w => (cut w 61 48, cut w 31 16)
  if n = 0 ∨ 1024 < n then none
  else if l.any fun w => decide (cut w 63 62 ≠ 0) || decide (cut w 47 32 ≠ 0) || decide (cut w 15 0 ≠ 0) then none
  else if r.any (fun x => decide (2048 < x.2)) || decide ((r.map (·.2)).sum ≠ count) || (r.head?).any (fun x => decide (x.1 ≠ ownAddr s)) then none
  else some r

/-- The entries split by member. -/
def splitSets : List Nat → List (BitVec 64) → List (List (BitVec 64))
  | [], _ => []
  | n :: r, l => l.take n :: splitSets r (l.drop n)

/-- The checks of R216 on a request with members and an instant; 0 where all hold. A tenant names its own connections only (R27,
DEDUCED, log entry 37). -/
def commitGroupStatus (s : State) (c : Cmd) (members : List Nat) (adds : List Conn) (own : List Change) (t : Nat) : Nat :=
  if !hasRight s c.party rtHuddle || ((timedOf c.entry).isSome && !hasRight s c.party rtTimed) then St.rightMissing
  else if c.party ≠ 64 ∧ (adds.any fun x => decide (x.tenant ≠ c.party)) then St.portNotOwned
  else if c.party ≠ 64 ∧ (own.any fun x => decide (inOwner s x.conn.inp ≠ c.party) || decide (outOwner s x.conn.out ≠ c.party)) then St.portNotOwned
  else if !decide members.Nodup then St.huddleGroupInvalid
  else if (members.drop 1).any fun a => (klkRoute s a).isNone then St.huddleUnreachable
  else
    let ts := timeStatus s t (1000 * fld s A.hdlMinlead 19 0) St.huddleTNear
    if ts ≠ 0 then ts
    else if !timeSync s then St.huddleTimeUnsync
    else if (freeSlot s).isNone || !bit s A.hdlCtrl 0 then St.huddleNoSlot else 0

/-- The group opens: GROUP_ID is the address and a serial number; PREPARE goes to every other member. -/
def openGroup (tag : Nat) (c : Cmd) (members : List Nat) (sets : List (List (BitVec 64))) (t : Nat) : Act := .look fun s =>
  let id := ownAddr s * 2 ^ 18 + s.hdl.serial % 2 ^ 18
  let g : Group_ := {
    id := id, index := 0, members := members, time := t, g := fld s A.hdlG 6 0, w := fld s A.hdlW 9 0, lat := fld s A.hdlLat 9 0,
    rtx := fld s A.hdlRtx 9 0, tag := some tag, owner := c.party, sets := sets, ready := true,
    resendAt := nowNs s + 1000 * fld s A.hdlRtx 9 0 }
  .all [
    updHdl fun h => { h with serial := h.serial + 1 },
    Act.each (freeSlot s).toList fun k => updHdl fun h => { h with slots := sset (fun _ => none) h.slots k (some g) },
    Act.each (others g) (sendPrepare g), showHdl]

/-- HUDDLE_COMMIT: a commit group, or with no members and no entries a barrier (R216, R247, R254). -/
def execHuddleCommit (tag : Fin 4096) (dma : Dma) (s : State) : Host.Outcome State Fault Refusal :=
  (runCmd { op := 0x0801, tenant := true, timed := true, count := some (0, 130048), len := fun e => 8 * e.p0.toNat + 8 * e.count.toNat,
            maxLen := 1048576, empty := true, masks := [0xFFFFFFFF],
            resp := fun e => if e.p0 = 0#32 then 0 else 4 } tag dma fun c img => .look fun s =>
    let n := c.entry.p0.toNat
    let k := c.entry.count.toNat
    if n = 0 ∧ k = 0 then .all [
      updHdl fun h => { h with
        barriers := h.barriers ++ [(tag.val, ((openGroups s).filter fun g => g.tag.isSome && decide (g.owner = c.party)).map (·.id))] },
      huddleBarriers]
    else match memberRecords s n k img with
      | none => complete tag St.huddleGroupInvalid
      | some r =>
        let sets := splitSets (r.map (·.2)) ((entriesOf 8 (img.drop (8 * n))).map (BitVec.ofNat 64))
        let t := (timedOf c.entry).getD (gridAfter s (1000 * fld s A.hdlMinlead 19 0))
        let adds := ((sets.flatMap fun l => l.map fun e => changeOf e.toNat).filter fun x => !x.del).map (·.conn)
        let st := commitGroupStatus s c (r.map (·.1)) adds ((sets.headD []).map fun e => changeOf e.toNat) t
        if st ≠ 0 then .all [Act.when (st = St.huddleNoSlot) (event A.hdlEvt 1 394), complete tag st]
        else openGroup tag c (r.map (·.1)) sets t).next s

/-- HUDDLE_RESOLVE: the admin forces a group in doubt to its new map, or to a revert as after a REVERTED (R231, log entry 38). -/
def execHuddleResolve (tag : Fin 4096) (s : State) : Host.Outcome State Fault Refusal :=
  (runCmd { op := 0x0802, masks := [0xFFFFFFFF, 1] } tag (.bytes []) fun c _ => .look fun s =>
    let id := c.entry.p0.toNat
    match findHGroup s id with
    | none => complete tag (if (closedRec s id).isSome then St.huddleNotInDoubt else St.huddleGroupUnknown)
    | some g =>
      if g.state ≠ 7 then complete tag St.huddleNotInDoubt
      else .all [
        updHGroup id fun g => { g with forced := true },
        if c.entry.p1 = 1#32 then closeGroup id true else revertSoon id,
        showHdl, complete tag St.success]).next s

/-- HUDDLE_STATUS: the own state in a 32-bit word, then 1,024 states of 4 bits, member 0 lowest (DESIGN CHOICE, log entry 39). -/
def execHuddleStatus (tag : Fin 4096) (s : State) : Host.Outcome State Fault Refusal :=
  (runCmd { op := 0x0803, tenant := true, masks := [0xFFFFFFFF], resp := fun _ => 516 } tag (.bytes []) fun c _ => .look fun s =>
    let id := c.entry.p0.toNat
    let mine (owner : Nat) : Bool := decide (c.party = 64) || decide (owner = c.party)
    let data (own : Nat) (g : Option Group_) : List Byte :=
      natLe 4 own ++ (List.range 512).map fun i =>
        let st (k : Nat) : Nat := match g with
          | some g => if k = g.index then own else (heardOf g k).state
          | none => 0
        BitVec.ofNat 8 (st (2 * i) + 16 * st (2 * i + 1))
    match findHGroup s id, closedRec s id with
    | some g, _ => if mine g.owner then complete tag St.success 0 0 (data g.state (some g)) else complete tag St.huddleGroupUnknown
    | none, some r => if mine r.owner then complete tag St.success 0 0 (data r.state (s.hdl.tails.find? fun g => g.id == id))
        else complete tag St.huddleGroupUnknown
    | none, none => complete tag St.huddleGroupUnknown).next s

/-! ## Registers (R219, R236) -/

/-- The five parameters, G, W, HDL_LAT, HDL_RTX and HDL_MINLEAD, hold Table HD-4. -/
def paramsHold (g w lat rtx lead : Nat) : Bool := hdlParamsOk g w lat rtx && within (500 + 4 * lat) 1000000 lead

/-- Write of parameter i: ignored with PARAM_BAD where it breaks a constraint. -/
def writeHdlParam (i v : Nat) : Act := .look fun s =>
  let f (k a hi : Nat) : Nat := if i = k then v % 2 ^ (hi + 1) else fld s a hi 0
  let g := f 0 A.hdlG 6
  let w := f 1 A.hdlW 9
  let lat := f 2 A.hdlLat 9
  let rtx := f 3 A.hdlRtx 9
  let lead := f 4 A.hdlMinlead 19
  if paramsHold g w lat rtx lead then
    .all [setFld A.hdlG 6 0 g, setFld A.hdlW 9 0 w, setFld A.hdlLat 9 0 lat, setFld A.hdlRtx 9 0 rtx, setFld A.hdlMinlead 19 0 lead]
  else event A.hdlEvt 0 393

def execHdlParamWrite (i : Fin 5) (v : BitVec 32) (s : State) : Host.Outcome State Fault Refusal :=
  (hostWrite ([A.hdlG, A.hdlW, A.hdlLat, A.hdlRtx, A.hdlMinlead].getD i 0) v (writeHdlParam i v.toNat)).next s

/-- HDL_CTRL.CNT_CLR: the count of messages dropped (R220, R236). -/
def clearHdlCounters : Act := updHdl fun h => { h with dropped := 0 }
def execHdlCntClr (s : State) : Host.Outcome State Fault Refusal := (hostWriteFld A.hdlCtrl 1 1 1 clearHdlCounters).next s

end Sys2Proof.Machine
end

