-- ==== Sys2Proof/Machine/Reset.lean ====
section
/-!
DEFINITION. Reset sources, entry into and release of a reset, and the steps of bring-up (spec/13_clocks_reset.md R335-R338).
-/

namespace Sys2Proof.Machine

/-! ## Reset sources (Table CK-4) -/

/-- Everything but the MRAM, its error positions and the count of fault log entries takes its reset value. -/
def wipeParts : Act := .all [
  .upd (.memDrop [(0, 2 ^ 32)]) .done, .upd (.memBad []) .done,
  updUmp fun _ => {}, updHost fun _ => {}, updLane fun _ => {}, updEng fun _ => {}, updFab fun _ => {},
  .look fun s => updPipe fun _ => { auditAt := s.clk.mono + 768000000 },
  updSup fun _ => {}, updKlk fun _ => {}, updHdl fun _ => {}, updTim fun _ => {}, updNet fun _ => {}, updDbg fun _ => {},
  updNvm fun n => { flogSeq := n.flogSeq }]

/-- A THERMTRIP latch outlasts a POR: one that not every supply fell at, or one too short to register as a power cycle, for which R389 leaves it
open; `latch` says whether (R358). -/
def tripKept (fell : SupplyFall) (latch : Bool) : Bool := match fell with
  | .part => true
  | .short => latch
  | .full => false

/-- POWER_ON_RESET: a supply fell, or power comes for the first time. -/
def execPowerOnReset (fell : SupplyFall) (latch : Bool) (s : State) : Host.Outcome State Fault Refusal :=
  (Act.all [
    dropRegs [(0, 2 ^ 40)], wipeParts,
    .upd (.hbmDrop [(0, 2 ^ 36)]) .done, .upd (.hbmBad []) .done,
    updRep fun _ => {}, updSec fun _ => {},
    updThm fun x => { tripped := x.tripped && tripKept fell latch },
    updClk fun c => { mono := c.mono, por := true, pinLow := c.pinLow },
    .whenS (fun s => s.thm.tripped) (setBit A.thmStat 31)]).next s

/-- POR_END: every supply has stayed up for 1 ms; AON samples GPIO[15:14] for its SMBus address (R359). -/
def execPorEnd (gpio : Fin 4) (s : State) : Host.Outcome State Fault Refusal :=
  (Act.whenS (fun s => s.clk.por) (.all [
    updClk fun c => { c with por := false },
    .whenS (fun s => !s.thm.tripped) (clrBit (A.clkDstat 59) 30),
    updThm fun x => { x with gpio := gpio },
    wrNat A.thmSmb (0x4C + gpio)])).next s

/-- A reset request from outside reaches a running AON domain. -/
def outerRequest (cause : Nat) : Act := .whenS (fun s => s.clk.aon && !s.clk.por) (resetRequest cause)

/-- RESET_N_ASSERT: the pin has been low long enough for the glitch filter. Before AON runs it is seen once AON does (`refclkGood`). -/
def execResetNAssert (s : State) : Host.Outcome State Fault Refusal :=
  (Act.all [updClk fun c => { c with pinLow := true }, outerRequest 1]).next s

/-- WATCHDOG_EXPIRY: no service within TIMEOUT while armed. -/
def execWatchdogExpiry (s : State) : Host.Outcome State Fault Refusal :=
  (Act.whenS (fun s => bit s A.rstWdt 31) (outerRequest 2)).next s

/-- RST_SWRST_WRITE: only the key asks for a reset (Table CK-10). -/
def writeSwrst (v : Word) : Act := if v = 0x0C0FFEE0#32 then outerRequest 3 else event A.rstEvt 1 13 104
def execRstSwrstWrite (v : BitVec 32) (s : State) : Host.Outcome State Fault Refusal := (hostWrite A.rstSwrst 0#32 (writeSwrst v)).next s

/-- The JTAG domain answers: POR is over and no THERMTRIP holds it in reset (Tables CK-4, FT-7). -/
def jtagOn (s : State) : Bool := !domInReset s 59

/-- The port offers its full instruction set: after step 3, with the lock off or the unlock latch set (R372). -/
def jtagFull (s : State) : Bool := jtagOn s && decide (3 ≤ fld s A.rstPhase 2 0) && (s.sec.jtagOpen || !s.sec.enf.getLsbD 2)

/-- JTAG_CHIPRST: only where the port offers the instruction. -/
def execJtagChiprst (s : State) : Host.Outcome State Fault Refusal := (Act.whenS jtagFull (outerRequest 5)).next s

/-- JTAG_RESET: TRST_N low, or five TCK cycles with TMS high, clear the unlock latch (R335, R372). -/
def execJtagReset (s : State) : Host.Outcome State Fault Refusal :=
  (Act.all [updSec fun x => { x with jtagOpen := false }, showSec]).next s

/-! ## Chip reset (Table CK-5) -/

/-- Keys of every register but the RST and THM blocks, the thermistor inputs' hidden copies and THM_NTC_SEL's (R340, R360). -/
def nonAon : List (Nat × Nat) :=
  [(0, 0x1FFF), (0x3000, 0x3FFF), (0x5000, A.ntcOf 0 0 - 1), (A.ntcOf 8 0, A.copyOf 1 A.thmNtcSel - 1),
   (A.copyOf 1 A.thmNtcSel + 1, A.copyOf 2 A.thmNtcSel - 1), (A.copyOf 2 A.thmNtcSel + 1, 2 ^ 40)]

/-- CHIP_RESET_ENTRY: the request is sampled. Waiting fault log entries are written while the MRAM still may be (R350, log entry 45); a frozen
recorder keeps the HBM (R304); the AON domain keeps what it holds, RST_WDT with it (R340): the watchdog stays armed through a chip reset. -/
def execChipResetEntry (s : State) : Host.Outcome State Fault Refusal :=
  (Act.whenS (fun s => s.clk.req && s.clk.aon && !s.clk.por) (.look fun s =>
    let keep := bit s A.repStat repFrozen && (bit s A.hbmStat 31 || bit s A.hbmStat 29)
    let kept := [A.repTrigLo, A.repTrigHi, A.repCause, A.repOldestLo, A.repOldestHi].map fun a => (a, rd s a)
    .all [
      .whenS mramWritable (Act.upto s.nvm.flog.length fun _ => writeLog),
      bump A.rstCount 15 0,
      updClk fun c => { mono := c.mono, aon := c.aon, inReset := true, pinLow := c.pinLow, lossReset := c.lossReset, firstLoad := c.firstLoad,
                        restarts := if fld s A.rstPhase 2 0 = 2 then min 15 (c.restarts + 1) else c.restarts },
      wrNat A.rstPhase 0,
      .look fun s => dropRegs nonAon |>.seq (.all [
        wr (A.clkDstat 43) (rd s (A.clkDstat 43)), wr (A.clkDstat 59) (rd s (A.clkDstat 59)), putBit A.clkStat 27 (bit s A.clkStat 27),
        putBit A.nvmStat 28 (bit s A.thmStat 27)]),
      wipeParts,
      updSec fun x => { jtagOpen := x.jtagOpen, jtagEver := x.jtagEver },
      if keep then .all [
        setBit A.repStat repFrozen, setBit A.repStat repKept, setBit A.hbmStat 29,
        Act.each kept fun p => wr p.1 p.2]
      else .all [.upd (.hbmDrop [(0, 2 ^ 36)]) .done, .upd (.hbmBad []) .done, updRep fun _ => {}]])).next s

/-- RESET_RELEASE: the source has ended, RESET_N high again, and 10 us of a chip reset are over; bring-up begins. -/
def execResetRelease (s : State) : Host.Outcome State Fault Refusal :=
  (Act.all [updClk fun c => { c with pinLow := false },
    .whenS (fun s => s.clk.inReset) (.all [updClk fun c => { c with inReset := false }, stepOne])]).next s

/-! ## Bring-up (Table CK-6) -/

/-- OPTION_LOAD, step 3: the loader chooses the image, and what it configures takes effect (R318, R319, R372). -/
def execOptionLoad (s : State) : Host.Outcome State Fault Refusal :=
  (Act.whenS (fun s => atPhase s 2) (.look fun s =>
    let (img, rule) := optChoose s
    let sec := leAt img 20 1
    let ok := (List.range 3).foldl (fun m k => if optValid s k then m + 2 ^ k else m) 0
    .all [
      updNvm fun n => { n with opt := img },
      wrNat A.optStat (2 ^ 31 + (if rule = 4 then 2 ^ 30 else 0) + ok * 2 ^ 27 + rule * 2 ^ 24 + s.clk.restarts * 2 ^ 20),
      wrNat A.optGen (leAt img 8 4), wrNat A.optCrc (leAt img 4092 4),
      Act.upto 7 fun i => wrNat (A.optImg i) (leAt img (4 * i) 4),
      Act.when (rule = 4) (event A.nvmEvt 3 344 102),
      wrNat A.klkAddr (leAt img 16 2 * 2 ^ 16 + leAt img 18 2 % 2 ^ 14),
      Act.upto 12 fun t => .all [
        putBit (A.tileCtrl t) 1 ((leAt img 12 2).testBit t), putBit (A.tileStat t) tsCauseDis (!(leAt img 12 2).testBit t)],
      Act.when s.clk.firstLoad (Act.upto 12 fun k => Act.when (!s.thm.thrSet.contains (24 + k))
        (setFld (A.thmThr (24 + k)) 31 16 (16 * leAt img 15 1))),
      updClk fun c => { c with firstLoad := false },
      updSec fun x => { x with enf := BitVec.ofNat 3 (sec % 2 + 2 * (sec / 2 % 2) + 4 * (sec / 4 % 2)) },
      showSec, setPhase 3])).next s

/-- PARK_TABLE_READ, step 4: the Park Table is read and checked, each lane's active range taken to be its PARK_RANGE; present tiles start with it
(R321, R400), and absent tiles' domains are gated. Without a table only the domains leave reset. -/
def execParkTableRead (s : State) : Host.Outcome State Fault Refusal :=
  (Act.whenS (fun s => atPhase s 3) (.all [
    .look fun s => updNvm fun n => { n with txnC := (storedTxn s).getD 0 },
    Act.upto 12 fun t => Act.each (tileDomains t) leaveReset,
    .look fun s => (match (recValue s 3 0).filter fun img =>
        decide (img.length = parkLen) && (parkError img fun n => decide (leAt img (64 + 128 * n) 1 % 2 = 1)).isNone with
      | some img => .all [
        updNvm fun n => { n with park := img },
        bcoParks true, tilesStart]
      | none => .all [
        updClk fun c => { c with noPark := true },
        setBit A.nvmEvt 1,
        raise { src := 337, addr := slotBase 3 0 ((recSlot s 3 0).getD 0) / 8, master := 102, access := 1 }]),
    setPhase 4])).next s

/-- A stored patch as the boot ROM finds it (R364, R365): its header, the signature, and the counter; 0 where it applies, else the status that says
why not. -/
def patchStatus (s : State) (img : List Byte) : Nat :=
  let version := leAt img 4 4
  let body := leAt img 8 4
  let signed := 64 + keyLen + body
  let block := img.drop signed
  let formed := decide (leAt img 0 4 = 0x50544831) && decide (leAt img 12 1 ≤ 2) && ((img.take 64).drop 13).all (· == 0#8) &&
    decide (img.length = signed + sigLen)
  if !formed || !vendorSigOk s (slice img 64 keyLen) block 1 version (img.take signed) then St.sigInvalid
  else if version < arbPatch s ∨ leAt img 12 1 < keyFloor s then St.rollback else 0

/-- Report a refused signature or version (R362, R364). -/
def patchRefused (st : Nat) : Act := if st = St.rollback then event A.secEvt 1 400 else event A.secEvt 0 399

/-- Step 5's patch: applied, or refused and reported. With PATCH_EN = 0 a patch that is present is refused with SIG_FAIL, and so is one whose
record cannot be read (log entry 46). -/
def bootPatch : Act := .look fun s => match recValue s 5 0 with
  | none => Act.when (recUnreadable s 5 0) (.all [
      setBit A.secStat 29, noteUnreadable 5 0, patchRefused St.sigInvalid])
  | some img =>
    let st := patchStatus s img
    let on := decide (leAt s.nvm.opt 20 1 / 8 % 2 = 1) && !recUnreadable s 1 0
    if on && decide (st = 0) then .all [
      bump A.secSigcnt 15 0,
      updSec fun x => { x with patch := img },
      setBit A.secStat 30, wrNat A.secPatchver (leAt img 4 4),
      setFld A.secStat 1 0 (leAt img (64 + keyLen + leAt img 8 4 + 4) 1)]
    else .all [
      setBit A.secStat 29, Act.when (on && decide (st = St.sigInvalid)) (bump A.secSigcnt 31 16),
      patchRefused (if on then st else St.sigInvalid)]

/-- BOOT_ROM_DONE, step 5: the boot ROM has run, the recovery scan is over, the watchdog is armed (R335, R365, R318). -/
def execBootRomDone (s : State) : Host.Outcome State Fault Refusal :=
  (Act.whenS (fun s => atPhase s 4 && supvRuns s && (bit s A.nvmStat 31 || s.nvm.stopped)) (.all [
    .whenS (fun s => recUnreadable s 1 0) (.all [
      setBit A.nvmEvt 1, raise { src := 338, addr := slotBase 1 0 0 / 8, master := 102, access := 1 }]),
    showSec,
    .look fun s => putBit A.secStat 23 (!recUnreadable s 2 0),
    Act.upto 4 fun i => wrNat (A.idSerial i) (leAt serialBytes (4 * i) 4),
    bootPatch,
    rewriteOptions,
    setBit A.secStat 31, setBit A.rstWdt 31, setBit A.cmdStat 31, setPhase 5])).next s

/-- MRAM offset of the list of retired lines, and its length (R307, Table MM-2; log entry 14). -/
abbrev retireBase : Nat := 0x1DB8000
abbrev retireMax : Nat := 4096
/-- The retired lines, each with the pseudo-channel it lay on: entries of 5 bytes, one more than the line number, and 3 bytes, up to the first 0. -/
def retiredList (s : State) : List (Nat × Nat) :=
  (((List.range retireMax).map fun i => leNat (mramAt s (retireBase + 8 * i) 8)).takeWhile fun e => decide (e % 2 ^ 40 ≠ 0)).map fun e =>
    (e % 2 ^ 40 - 1, e / 2 ^ 40)
/-- The retired lines that hold nothing any more: one of the map library moved with its slot's copy (log entry 43). -/
def retiredLines (s : State) : List Nat :=
  ((retiredList s).map (·.1)).filter fun l => !decide (0x500000000 ≤ 64 * l ∧ 64 * l < 0x504000000)

/-- HBM_TRAINING_DONE, step 6: `temp` is the stack's temperature; a failed training gives the channels that trained (R308). The scratch region and
the staging buffers read 0; without a kept ring the recorder starts empty. -/
def execHbmTrainingDone (ok : Bool) (channels : BitVec 16) (temp : BitVec 8) (s : State) : Host.Outcome State Fault Refusal :=
  (Act.whenS (fun s => atPhase s 5 && domRuns s 40 && domRuns s 41) (.all [
    if ok then .look fun s => .all [
      setBit A.hbmStat 31,
      Act.upto 16 fun c => setBit (A.chStat c) 31,
      wrNat A.hbmRetired (retiredList s).length,
      Act.upto 16 fun c => setFld (A.chRetired c) 12 0 ((retiredList s).filter fun x => x.2 / 2 == c).length,
      .upd (.hbmBad (s.hbmBad ++ (retiredLines s).filter fun l => !s.hbmBad.contains l)) .done,
      .upd (.hbmDrop [(0x504000000, 0x513FFFFFF), (scratchBase, scratchBase + 0x3FFFFFF)]) .done,
      setFld A.repStat 18 0 repCapacity,
      .whenS (fun s => bit s A.repStat repKept) (event A.tshEvt 0 380)]
    else .all [
      setBit A.hbmStat 30, clrBit A.hbmStat 29,
      Act.upto 16 fun c => putBit (A.chStat c) 31 (channels.getLsbD c),
      wrNat A.repStat 0, updRep fun _ => {}, .upd (.hbmDrop [(0, 2 ^ 36)]) .done,
      event A.hbmEvt 0 333],
    setFld A.hbmStat 23 16 temp.toNat,
    setPhase 6])).next s

/-- AUTOSTART, step 7: with the option set, SLP-1 is loaded and run on every present tile, and
its hold is asked to end (R146, Table FL-9). -/
def execAutostart (s : State) : Host.Outcome State Fault Refusal :=
  (Act.whenS (fun s => atPhase s 6 && supvRuns s) (.look fun s => .all [
    Act.when (decide (leAt s.nvm.opt 14 1 % 2 = 1)) (Act.each (engineList s 0xFF) fun e => .all [
      loadSlp e 0, parkForStart e, writeRun e true]),
    Act.when (decide (leAt s.nvm.opt 14 1 % 2 = 1)) (Act.upto 12 fun t => Act.when (tilePresent s t) (writeHold t false)),
    setPhase 7, setBit A.rstPhase 31])).next s

end Sys2Proof.Machine
end

