-- ==== Sys2Proof/Machine/CmdSec.lean ====
section
/-!
DEFINITION. The SECURITY commands (spec/09_command_set.md Table CS-15, spec/15_security.md R364, R367-R373).
-/

namespace Sys2Proof.Machine

/-- A SECURITY command: it needs the security core, and takes its turn behind an earlier one's MRAM transaction. -/
def runSec (k : CmdSpec) (tag : Nat) (dma : Dma) (body : Cmd → List Byte → Act) : Act :=
  .whenS (fun s => !imageTxnPending s) (runCmd k tag dma fun c l => .look fun s =>
    if domUp s 14 then body c l else complete tag St.notReady)

/-! ## Attestation (R367, R368) -/

/-- The program that engine e runs. -/
def runningProg (s : State) (e : Nat) : Option ProgInfo := if engRuns s e then progInfo s e (actBank s e) else none

/-- The distinct programs that run, each with the mask of its engines, in the order of the lowest engine. SLP-1 of the ROM counts as another
program than an equal image that was loaded. -/
def programsRun (s : State) : List (ProgInfo × Bool × Nat) :=
  let es := (List.range 96).filterMap fun e => (runningProg s e).map fun i => (e, i, bankRom s e (actBank s e))
  (es.map (·.2)).eraseDups.map fun (i, r) => (i, r, (es.filter fun x => decide (x.2 = (i, r))).foldl (fun m x => m + 2 ^ x.1) 0)

/-- An entry of Table SE-4. -/
def progEntry (hash : List Byte) (mask count flags : Nat) : List Byte :=
  hash ++ natLe 12 mask ++ natLe 2 count ++ natLe 1 flags ++ natLe 1 0
def progEntryOf (x : ProgInfo × Bool × Nat) : List Byte :=
  progEntry x.1.hash x.2.2 x.1.count (x.1.signed.toNat + 2 * x.2.1.toNat + 4 * x.1.forced.toNat)
/-- Entries 0 to 31; with more programs, entry 31 stands for the rest. -/
def progEntries (s : State) : List Byte :=
  let l := programsRun s
  if l.length ≤ 32 then l.flatMap progEntryOf
  else
    let rest := l.drop 31
    (l.take 31).flatMap progEntryOf ++
      progEntry (sha512 (rest.flatMap progEntryOf)) (rest.foldl (fun m x => m ||| x.2.2) 0) 0 0x80

/-- SECURITY as it is in force: enforcement and the lock, PATCH_EN (Table MM-4). -/
def securityByte (s : State) : Nat := s.sec.enf.toNat + 8 * (leAt s.nvm.opt 20 1 / 8 % 2)
/-- An engine runs a program that no customer signature covers, SLP-1 of the ROM apart (R371). -/
def unsignedRuns (s : State) : Bool := (programsRun s).any fun x => !x.1.signed && !x.2.1
/-- SEC_FLAGS. -/
def secFlags (s : State) : Nat :=
  securityByte s + 256 * (custKeys s).isSome.toNat + 512 * (!s.sec.patch.isEmpty).toNat + 1024 * s.sec.jtagOpen.toNat +
    2048 * s.sec.jtagEver.toNat + 4096 * (unsignedRuns s).toNat

/-- SHA-512 of an image, 0 where there is none. -/
def hashOr0 (l : List Byte) : List Byte := if l.isEmpty then List.replicate 64 0#8 else sha512 l
/-- ROM_HASH. -/
def romHash : List Byte := (List.range 16).flatMap fun i => natLe 4 (Config.romHashWord i).toNat

/-- The report before its signature (Table SE-3). -/
def reportBody (s : State) (nonce : List Byte) : List Byte :=
  let ps := progEntries s
  natLe 4 0x41545431 ++ natLe 2 1 ++ natLe 2 (ps.length / 80) ++ serialBytes ++
  natLe 2 (leAt s.nvm.opt 16 2) ++ natLe 2 (leAt s.nvm.opt 18 2) ++ natLe 4 0xB0000100 ++ natLe 8 (nowNs s) ++
  regBytes s [A.rstCause, A.rstCount] ++ natLe 4 (secFlags s) ++ natLe 4 (leAt s.sec.patch 4 4) ++ natLe 4 (arbPatch s) ++ natLe 4 0 ++
  nonce ++ romHash ++ hashOr0 s.sec.patch ++ sha512 s.nvm.opt ++ hashOr0 ((custKeys s).getD []) ++ ps

/-- The device's signature block over a report: which of the valid signatures it makes is left open (R362). -/
def identityBlock (n : Nat) (content : List Byte) : List Byte :=
  let head := natLe 4 0x53474B31 ++ natLe 1 0x20 ++ natLe 1 6 ++ natLe 10 0
  let m := head ++ sha512 content
  head ++ (List.range 64).map (Config.idEdByte n m) ++ (List.range 3309).map (Config.idMlByte n m) ++ natLe 3 0

def execAttest (tag : Fin 4096) (dma : Dma) (s : State) : Host.Outcome State Fault Refusal :=
  (runSec { op := 0x0901, tenant := true, count := some (32, 32), len := lenCount, maxLen := 32 } tag dma fun _ nonce => withRecords tag [(1, 0), (2, 0), (2, 1)] <| .look fun s =>
    let body := reportBody s nonce
    .all [.upd .free .done, complete tag St.success 0 0 (body ++ identityBlock s.free body)]).next s

/-! ## Firmware extensions and keys -/

/-- PATCH_LOAD: everything is verified before anything is written; one transaction stores the image and raises both counters (R364).
An image that its slot and trailer cannot hold together finds the store full (R313; DEDUCED, log entry 136). -/
def execPatchLoad (tag : Fin 4096) (dma : Dma) (s : State) : Host.Outcome State Fault Refusal :=
  (runSec { op := 0x0902, count := some (1, 1048576), tooMany := St.nvmFull, len := lenCount, maxLen := 1048576 } tag dma fun _ img =>
    withRecords tag [(1, 0)] <| .look fun s =>
    let st := patchStatus s img
    .all [
      sigCount (decide (st ≠ St.sigInvalid)),
      if st = St.rollback then .all [event A.secEvt 1 400, complete tag st]
      else if st ≠ 0 then complete tag st
      else if slotSize 5 - 32 < img.length then complete tag St.nvmFull
      else if mramStatus s ≠ 0 then complete tag (mramStatus s)
      else queueTxn {
        recs := [{ region := 5, index := 0, payload := img }, arbRecord (leAt img 4 4) (leAt img 12 1)],
        after := .patch (leAt img 4 4), tag := some tag.val }]).next s

/-- KEY_ENROL: once, and exactly one key pair (R369). -/
def execKeyEnrol (tag : Fin 4096) (dma : Dma) (s : State) : Host.Outcome State Fault Refusal :=
  (runSec { op := 0x0903, count := some (1, 8192), tooMany := St.payloadInvalid, len := lenCount, maxLen := 8192, empty := true } tag dma
    fun _ keys => .look fun s =>
    if keys.length ≠ keyLen then complete tag St.payloadInvalid
    else withRecords tag [(2, 1)] <|
      if (custKeys s).isSome then complete tag St.keyState
      else if mramStatus s ≠ 0 then complete tag (mramStatus s)
      else queueTxn { recs := [{ region := 2, index := 1, payload := keys }], after := .keys, tag := some tag.val }).next s

/-- An image with another SECURITY byte and the next GENERATION. -/
def withSecurity (img : List Byte) (v : Nat) : List Byte :=
  optSeal (img.take 20 ++ natLe 1 v ++ img.drop 21) (leAt img 8 4 + 1)

/-- ENFORCE_SET's transaction: ENF_SEQ and the Option Area together, the enforcement bits from its commit on (R370). -/
def enforceTxn (s : State) (tag v : Nat) : Act :=
  let old := (optChoose s).1
  let img := withSecurity old (leAt old 20 1 / 4 * 4 + v)
  if mramStatus s ≠ 0 then complete tag (mramStatus s)
  else queueTxn {
    recs := [{ region := 2, index := 2, payload := natLe 4 (enfSeq s + 1) }], options := some img,
    after := .options img (some (v % 2 = 1, v / 2 = 1)), tag := some tag }

/-- A load that was accepted before this command has not started: it is judged by the state before (R370). -/
def loadDue (s : State) (tag : Nat) : Bool := (cmdOf s tag).any fun c =>
  s.host.cmds.any fun d => decide (d.entry.opcode.toNat ∈ [0x0301, 0x030A, 0x030C]) && decide (d.num < c.num) && !d.started

/-- ENFORCE_SET: without a payload it sets bits, which needs an enrolled key; with one it clears them (R370). -/
def execEnforceSet (tag : Fin 4096) (dma : Dma) (s : State) : Host.Outcome State Fault Refusal :=
  (Act.whenS (fun s => !loadDue s tag) (runSec { op := 0x0904, count := some (0, 8192), len := lenCount, maxLen := 8192, empty := true, masks := [3] } tag dma fun c b =>
    withRecords tag [(2, 1), (2, 2)] <| .look fun s =>
      let p := c.entry.p0.toNat
      let now := s.sec.enf.toNat % 4
      if b.isEmpty then
        if (custKeys s).isNone then complete tag St.keyState else enforceTxn s tag (now ||| p)
      else
        let ok := custSigOk s b 4 (serialBytes ++ natLe 4 (enfSeq s) ++ natLe 4 p)
        .all [sigCount ok, if ok then enforceTxn s tag (now &&& (3 - p)) else complete tag St.sigInvalid])).next s

/-! ## JTAG (R372) -/

/-- JTAG_CHALLENGE: 32 bytes of the entropy source; after a failed unlock it waits 1 s. -/
def execJtagChallenge (tag : Fin 4096) (s : State) : Host.Outcome State Fault Refusal :=
  (Act.whenS (fun s => s.sec.failedAt.all fun t => decide (1000000 ≤ usSince s t))
    (runSec { op := 0x0905, resp := fun _ => 32 } tag (.bytes []) fun _ _ => .look fun s =>
      let l := (List.range 32).map (Config.challengeByte s.free)
      .all [
        .upd .free .done, updSec fun x => { x with challenge := some l, failedAt := none },
        complete tag St.success 0 0 l])).next s

/-- An unlock is refused: counted and reported, and the next challenge waits. -/
def unlockFails (tag status : Nat) : Act := .all [
  bump A.secUnlkcnt 31 16, event A.secEvt 2 401,
  .look fun s => updSec fun x => { x with challenge := none, failedAt := some s.clk.mono },
  complete tag status]

/-- A response to a challenge: the customer's block where a key is enrolled, else a vendor root's behind its key block. -/
def unlockOk (s : State) (b challenge : List Byte) : Bool :=
  let content := serialBytes ++ challenge
  if (custKeys s).isSome then custSigOk s b 5 content
  else vendorSigOk s (b.take keyLen) (b.drop keyLen) 5 0 content

/-- The records that an unlock is judged by: the customer keys, and without them KEY_FLOOR. -/
def unlockRecords (s : State) : List (Nat × Nat) := (2, 1) :: if (custKeys s).isSome then [] else [(1, 0)]

/-- JTAG_UNLOCK: the challenge is used once, whatever comes of it. -/
def execJtagUnlock (tag : Fin 4096) (dma : Dma) (s : State) : Host.Outcome State Fault Refusal :=
  (runSec { op := 0x0906, count := some (1, 8192), len := lenCount, maxLen := 8192 } tag dma fun _ b => .look fun s =>
    match s.sec.challenge with
    | none => unlockFails tag St.challengeInvalid
    | some ch => if (unlockRecords s).any fun x => recUnreadable s x.1 x.2 then
        .all [Act.each (unlockRecords s) fun x => noteUnreadable x.1 x.2, unlockFails tag St.nvmUncorr]
      else
      let ok := unlockOk s b ch
      .all [
        sigCount ok,
        if ok then .all [
          bump A.secUnlkcnt 15 0, event A.secEvt 2 401,
          updSec fun x => { x with challenge := none, jtagOpen := true, jtagEver := true }, showSec, complete tag St.success]
        else unlockFails tag St.sigInvalid]).next s

/-- SEC_CTRL.CNT_CLR (R373). -/
def clearSecCounters : Act := clearRegs [A.secSigcnt, A.secUnlkcnt]
def execSecCntClr (s : State) : Host.Outcome State Fault Refusal := (hostWriteFld A.secCtrl 0 0 1 clearSecCounters).next s

end Sys2Proof.Machine
end

