-- ==== Sys2Proof/Machine/Hbm.lean ====
section
/-!
DEFINITION. Errors of the HBM, its patrol, and the BAR2 window onto it (spec/12_memories.md R307-R310, Table MM-6).
-/

namespace Sys2Proof.Machine

/-- HBM lines of 64 bytes (R306). -/
abbrev hbmLines : Nat := 402653184

/-- A half of a channel's counter: pseudo-channel p of channel c is 2c + p. -/
def bumpHalf (a ch : Nat) : Act := if ch % 2 = 1 then bump a 31 16 else bump a 15 0

/-- A line joins the list of retired lines in MRAM, in its next entry; a full list takes none (R307). While the MRAM takes no writes the entry waits
(R315-R317; DEDUCED, log entry 133). -/
def retireLine (line ch : Nat) : Act := .look fun s =>
  let n := fld s A.hbmRetired 12 0
  if retireMax ≤ n then event A.hbmEvt 4 334
  else .all [
    updNvm fun x => { x with retire := x.retire ++ [(retireBase + 8 * n, natLe 5 (line + 1) ++ natLe 3 ch)] }, writeRetired,
    wrNat A.hbmRetired (n + 1), bump (A.chRetired (ch / 2)) 12 0]

/-- A copy of a map slot was on the line: it is rebuilt from the other, or, with both lost, the slot is cleared. -/
def rebuildMap (line : Nat) (r : HbmReader) : Act := .look fun s =>
  let o := 64 * line - 0x500000000
  let i := o / 0x8000
  let k := o % 0x8000 / 0x4000
  .all [
    (match hbmMap s i (1 - k) with
      | some img => writeHbm (mapSlot i k) img
      | none => .upd (.hbmDrop [(mapSlot i 0, mapSlot i 0 + 0x7FFF)]) .done),
    setBit A.hbmEvt 5, raise { src := 331, addr := line, master := r.master, access := r.access }]

/-- The frame at place k of telemetry queue q, if it lay in the overflow area, is dropped: a gap for its subscription (R294). -/
def dropSpilled (q k : Nat) : Act := .look fun s => match (egQueue s q).frames[k]? with
  | some f => Act.when f.spilled (.all [
      loseTele [f], keepFrames q ((egQueue s q).frames.eraseIdx k)])
  | none => .done

/-- Line `line` reads uncorrectable (R307, Table MM-6): it is counted, its first address held, reported by what lies in it, retired, and no longer
used. A line of the map library moves with its slot's rebuilt copy (log entry 43). -/
def hbmUncorrectable (line ch : Nat) (r : HbmReader) : Act :=
  .whenS (fun s => bit s A.hbmStat 31 && !s.hbmBad.contains line) (
    let a := 64 * line
    .all [
      bump A.hbmUecnt 15 0, bumpHalf (A.chUecnt (ch / 2)) ch,
      .look fun s => Act.when (!bit s A.hbmErraddrHi 31) (.all [
        wrNat A.hbmErraddrLo (a % 2 ^ 32), wrNat A.hbmErraddrHi (2 ^ 31 + a / 2 ^ 32)]),
      retireLine line ch,
      if 0x500000000 ≤ a ∧ a < 0x504000000 then rebuildMap line r
      else .all [
        .look fun s => .upd (.hbmBad (line :: s.hbmBad)) .done,
        Act.when (decide (0x400000000 ≤ a ∧ a < 0x500000000)) (Act.each r.pkt.toList fun x => dropSpilled x.1 x.2),
        let (i, src) := if 0x524000000 ≤ a ∧ a < 0x544000000 then (3, 332) else (2, 330)
        .all [setBit A.hbmEvt i, raise { src := src, addr := line, master := r.master, access := r.access }]]])

/-- The pseudo-channel of a line: the two copies of a map slot lie in channels of different parity (R309; which ones, and every other line's
channel, the command says; DESIGN CHOICE, log entry 43). -/
def lineChannel (line ch : Nat) : Nat :=
  let a := 64 * line
  if 0x500000000 ≤ a ∧ a < 0x504000000 then ch / 4 * 4 + 2 * ((a - 0x500000000) % 0x8000 / 0x4000) + ch % 2 else ch

/-- HBM_UE: a requester's read finds a line uncorrectable. -/
def execHbmUe (line : Fin 402653184) (ch : Fin 32) (r : HbmReader) (s : State) : Host.Outcome State Fault Refusal :=
  (hbmUncorrectable line (lineChannel line ch) r).next s

/-- HBM_SCRUB_PATROL: the patrol reads a line; `last` closes a pass. -/
def execHbmScrubPatrol (line : Fin 402653184) (ch : Fin 32) (found : HbmFound) (last : Bool) (s : State) : Host.Outcome State Fault Refusal :=
  (Act.whenS (fun s => bit s A.hbmStat 31 && bit s A.hbmCtrl 0 && !s.hbmBad.contains line.val) (
    let c := lineChannel line ch
    let more (a : Nat) : Act := .look fun s => wrNat a (min (2 ^ 32 - 1) ((rd s a).toNat + 1))
    .all [
      (match found with
        | .none => .done
        | .inner => more (A.chInner (c / 2))
        | .corrected => .all [
          more A.hbmCecnt, bumpHalf (A.chCecnt (c / 2)) c,
          setBit A.hbmEvt 1, raise { src := 329, addr := line, master := 103, access := 4 }]
        | .uncorrectable pkt => hbmUncorrectable line c { master := 103, access := 4, pkt := pkt }),
      Act.when last (bump A.hbmScrub 15 0)])).next s

/-- Bytes are written from an offset of the aperture on, those that are enabled (R376): only the host scratch takes them (R310). -/
def aperWrite (ofs : Nat) (bs : List (Option Byte)) : Act := .look fun s =>
  let l := ((List.range bs.length).zip bs).filterMap fun p => p.2.map fun b => (fld s A.hbmAper 3 0 * 2 ^ 31 + ofs + p.1, b)
  let inside (a : Nat) : Bool := decide (scratchBase ≤ a ∧ a < scratchBase + 0x4000000)
  .all [
    Act.when (bit s A.hbmStat 31) (Act.each (l.filter fun p => inside p.1) fun p => writeHbm p.1 [p.2]),
    Act.when (l.any fun p => !inside p.1) (event A.hbmEvt 6 335 104)]

/-- HBM_APERTURE_WRITE: a word at an offset of the 2 GiB window, with its byte enables. -/
def execHbmApertureWrite (offset : Fin 536870912) (v : MaskedWord) (s : State) : Host.Outcome State Fault Refusal :=
  (Act.whenS (fun s => domUp s 40) (aperWrite (4 * offset) ((List.range 4).map fun i =>
    if v.be.getLsbD i then some (v.v.extractLsb' (8 * i) 8) else none))).next s

/-- HBM_CTRL.CNT_CLR. -/
def hbmCntClr : Act := .all [
  clearRegs [A.hbmCecnt, A.hbmUecnt, A.hbmScrub],
  Act.upto 16 fun c => clearRegs [A.chCecnt c, A.chUecnt c, A.chInner c]]
def execHbmCntClr (s : State) : Host.Outcome State Fault Refusal := (hostWriteFld A.hbmCtrl 1 1 1 hbmCntClr).next s

end Sys2Proof.Machine
end

