-- ==== Sys2Proof/Machine/CmdTenant.lean ====
section
/-!
DEFINITION. The TENANT commands (spec/09_command_set.md Table CS-11).
-/

namespace Sys2Proof.Machine

/-- PORT_ASSIGN: owners of ports that no connection uses (R30). -/
def execPortAssign (tag : Fin 4096) (dma : Dma) (s : State) : Host.Outcome State Fault Refusal :=
  (runCmd { op := 0x0401, count := some (1, 2048), len := lenTimes 4, maxLen := 8192 } tag dma fun _ img => .look fun s =>
    let l := entriesOf 4 img
    let out (v : Nat) : Bool := decide (cut v 31 31 = 1)
    let port (v : Nat) : Nat := cut v 30 21
    let owner (v : Nat) : Nat := cut v 20 14
    checked tag (fun v =>
      if cut v 13 0 ≠ 0 ∨ 64 < owner v then St.payloadInvalid
      else if portUsed s (out v) (port v) && decide ((if out v then outOwner s (port v) else inOwner s (port v)) ≠ owner v) then St.portInUse
      else 0) l (edit tag 0 l)).next s

/-- RIGHTS_SET: rights words and quotas (R28). -/
def execRightsSet (tag : Fin 4096) (dma : Dma) (s : State) : Host.Outcome State Fault Refusal :=
  (runCmd { op := 0x0402, count := some (1, 64), len := lenTimes 8, maxLen := 512 } tag dma fun _ img =>
    let l := words64 img
    checked tag (fun v => if cut v 57 48 ≠ 0 ∨ cut v 47 38 ≠ 0 ∨ cut v 31 11 ≠ 0 ∨ 1024 < cut v 10 0 then St.payloadInvalid else 0) l (edit tag 1 l)).next s

/-- SOURCE_BIND: entries of the source binding table; a new binding starts with no SEQ accepted (R244). -/
def execSourceBind (tag : Fin 4096) (dma : Dma) (s : State) : Host.Outcome State Fault Refusal :=
  (runCmd { op := 0x0403, count := some (1, 256), len := lenTimes 16, maxLen := 4096 } tag dma fun _ img =>
    let l := entriesOf 16 img
    checked tag (fun v => if cut v 108 64 ≠ 0 ∨ 64 < cut v 118 112 ∨ 2 ≤ cut v 111 110 then St.payloadInvalid else 0) l (edit tag 2 l)).next s

/-- A bitmap of ports, bit p of byte p / 8. -/
def portMap (f : Nat → Bool) : List Byte := (List.range 128).map fun i =>
  BitVec.ofNat 8 ((List.range 8).foldl (fun x k => x + if f (8 * i + k) then 2 ^ k else 0) 0)

/-- TENANT_READ: rights, quota, PROTECTED count and tag cap as 32-bit words, then the owned ports (DESIGN CHOICE, log entry 26). A tenant
that names another is refused with RIGHT_MISSING (DESIGN CHOICE, log entry 30). -/
def execTenantRead (tag : Fin 4096) (s : State) : Host.Outcome State Fault Refusal :=
  (runCmd { op := 0x0404, tenant := true, masks := [0x3F], resp := fun _ => 272 } tag (.bytes []) fun c _ => .look fun s =>
    let t := c.entry.p0.toNat
    if c.party < 64 ∧ c.party ≠ t then complete tag St.rightMissing
    else complete tag St.success 0 0 (regBytes s [A.tenantOf t 0, A.tenantOf t 1] ++
      natLe 4 (protCount s (s.fab.map.conns.map (·.conn)) t) ++ regBytes s [A.tenantOf t 2] ++
      portMap (fun p => decide (inOwner s p = t)) ++ portMap fun p => decide (outOwner s p = t))).next s

end Sys2Proof.Machine
end

