-- ==== Sys2Proof/Machine/CmdTime.lean ====
section
/-!
DEFINITION. The TIME commands (spec/09_command_set.md Table CS-12).
-/

namespace Sys2Proof.Machine

/-- The state word of TIME_READ (R267). -/
def timeState (s : State) : Nat :=
  servoState s + (timeSync s).toNat * 16 + (bit s A.ptpStat 26).toNat * 32 + (bit s A.ptpStat 25).toNat * 64 + ptpSource s * 256

/-- TIME_READ: network time, tick, network frame number, state word. -/
def execTimeRead (tag : Fin 4096) (s : State) : Host.Outcome State Fault Refusal :=
  (runCmd { op := 0x0501, tenant := true, resp := fun _ => 32 } tag (.bytes []) fun _ _ => .look fun s =>
    complete tag St.success 0 0 (natLe 8 (nowNs s) ++ natLe 8 s.tim.tick ++ natLe 8 (netFrame s) ++ natLe 8 (timeState s))).next s

/-- TIME_TRIGGER: arms time triggers of lane groups (R84); the checks of Table CM-1 apply to each instant. -/
def execTimeTrigger (tag : Fin 4096) (dma : Dma) (s : State) : Host.Outcome State Fault Refusal :=
  (runCmd { op := 0x0502, count := some (1, 12), len := lenTimes 8, maxLen := 96 } tag dma fun _ img => .look fun s =>
    let l := words64 img
    let group (v : Nat) : Nat := cut v 59 56
    checked tag (fun (v, i) =>
      if cut v 63 60 ≠ 0 ∨ 12 ≤ group v then St.payloadInvalid
      else if !timeSync s then St.timeUnsync
      else
        let t := timeStatus s (cut v 55 0) (leadNs s + 40000) St.commitTNear
        if t ≠ 0 then t
        else if (groupOf s (group v)).timeTrig.isSome || ((l.take i).map group).contains (group v) then St.triggerBusy else 0) l.zipIdx (.all [
      Act.each l fun v => updGroup (group v) fun g => { g with timeTrig := some (cut v 55 0) },
      complete tag St.success])).next s

/-- TIME_ASYM: the operator's asymmetry correction of a port (R271). -/
def execTimeAsym (tag : Fin 4096) (s : State) : Host.Outcome State Fault Refusal :=
  (runCmd { op := 0x0503, masks := [1, 0xFFFFFFFF] } tag (.bytes []) fun c _ => .all [
    timeAsym (bits c.entry.p0 0 0) c.entry.p1, complete tag St.success]).next s

end Sys2Proof.Machine
end

