-- ==== Sys2Proof/Machine/Traffic.lean ====
section
/-!
DEFINITION. Ethernet links, reception, MACsec and MKA, priority flow control, histograms and the registers of the traffic machinery
(spec/11_telemetry_traffic.md R281-R287, R298, R299, R305).
-/

namespace Sys2Proof.Machine

/-! ## Links and modes (R281, R286) -/

/-- MAC m of port p has PCS lock on all its lanes. -/
def macLocked (s : State) (p m : Nat) (lanes : Nat) : Bool :=
  let w := [8, 4, 1].getD (portMode s p) 8
  decide (m < macsOf s p) && (List.range w).all fun i => lanes.testBit (w * m + i)
/-- The MAC bits of ETH_STAT follow the lanes' locks; LINK_UP and LINK_DOWN report what changed. -/
def showLinks (p lanes : Nat) : Act := .look fun s =>
  let up := if bit s (A.ethCtrl p) 0 then (List.range 8).foldl (fun x m => x + if macLocked s p m lanes then 2 ^ m else 0) 0 else 0
  let old := fld s (A.ethStat p) 15 8
  .all [
    setFld (A.ethStat p) 15 0 (up * 256 + lanes),
    Act.when ((List.range 8).any fun m => up.testBit m && !old.testBit m) (event (A.ethEvt p) 0 (356 + 5 * p)),
    Act.when ((List.range 8).any fun m => !up.testBit m && old.testBit m) (event (A.ethEvt p) 1 (357 + 5 * p))]

/-- ETH_LINK_UP: these lanes gain PCS lock. -/
def execEthLinkUp (p : Fin 2) (lanes : BitVec 8) (s : State) : Host.Outcome State Fault Refusal :=
  (Act.whenS (fun s => bit s (A.ethCtrl p) 0 && domRuns s (44 + 2 * p) && domRuns s (45 + 2 * p) &&
      !fifoHeld s (44 + 2 * p) && !fifoHeld s (45 + 2 * p)) (.look fun s =>
    showLinks p (fld s (A.ethStat p) 7 0 ||| lanes.toNat))).next s
/-- ETH_LINK_DOWN: these lanes lose it. -/
def execEthLinkDown (p : Fin 2) (lanes : BitVec 8) (s : State) : Host.Outcome State Fault Refusal :=
  (Act.look fun s => showLinks p (fld s (A.ethStat p) 7 0 &&& (255 - lanes.toNat))).next s

/-- Lossless priorities of port p, as MAC and priority. -/
def losslessOf (s : State) (p : Nat) : List (Nat × Nat) :=
  (List.range (macsOf s p)).flatMap fun m => ((List.range 8).filter fun i => lossless s (8 * p + m) i).map fun i => (8 * p + m, i)
abbrev headroomSum : Nat := 4400000
abbrev poolSum : Nat := 2097152
def poolShare (s : State) (p : Nat) : Nat := poolSum / max 1 (losslessOf s p).length
/-- Headroom and pool are divided evenly among the port's lossless priorities (R286). The whole pool, 2^21 bytes, is one more than PFC_XOFF's 21
bits show: it acts as it is, and reads 0 (DESIGN CHOICE, log entry 88). -/
def divideBuffer (p : Nat) : Act := .look fun s =>
  let l := losslessOf s p
  Act.each l fun (k, i) => .all [
    wrNat (A.pfcOf k i 0) (headroomSum / l.length), wrNat (A.pfcOf k i 1) (poolShare s p), wrNat (A.pfcOf k i 2) (poolShare s p / 2)]

/-- Write ETH_CTRL: a MODE write while EN = 1 is ignored; EN = 0 takes the links down. -/
def writeEthCtrl (p : Nat) (v : Word) : Act := .look fun s =>
  let keep := bit s (A.ethCtrl p) 0
  let mode := if keep then fld s (A.ethCtrl p) 5 4 else bits v 5 4
  .all [
    wrNat (A.ethCtrl p) (mode * 16 + (v.getLsbD 0).toNat),
    refreshDelays p,
    .whenS (fun s' => decide (portMode s p ≠ portMode s' p)) (divideBuffer p),
    Act.when (keep && !v.getLsbD 0) (showLinks p 0)]

/-- PFC_TX_WRITE: at most two lossless priorities of a MAC (R285). A MAC that the mode does not use divides nothing. -/
def pfcTxOk (mask : Nat) : Bool := decide (((List.range 8).filter mask.testBit).length ≤ 2)
def writePfcTx (k : Nat) (mask : Nat) : Act :=
  if !pfcTxOk mask then event (A.ethEvt (k / 8)) 4 (360 + 5 * (k / 8))
  else .all [setFld (A.macCtrl k) 23 16 mask, .whenS (fun s => decide (k % 8 < macsOf s (k / 8))) (divideBuffer (k / 8))]
def execPfcTxWrite (k : Fin 16) (mask : BitVec 8) (s : State) : Host.Outcome State Fault Refusal :=
  (hostWriteFld (A.macCtrl k) 23 16 mask.toNat (writePfcTx k mask.toNat)).next s

/-- PFC_HDRM_WRITE: the headroom of the selected priority i, within the port's sum (R286). -/
def writePfcHdrm (k i v : Nat) : Act := .look fun s =>
  let sum := (losslessOf s (k / 8)).foldl (fun a x => a + if x = (k, i) then v else fld s (A.pfcOf x.1 x.2 0) 22 0) 0
  if headroomSum < sum then event (A.ethEvt (k / 8)) 4 (360 + 5 * (k / 8)) else wrNat (A.pfcOf k i 0) v
def execPfcHdrmWrite (k : Fin 16) (v : BitVec 23) (s : State) : Host.Outcome State Fault Refusal :=
  (hostWrite (A.pfcHdrm k) (v.zeroExtend 32) (.look fun s => writePfcHdrm k (fld s (A.pfcSel k) 2 0) v.toNat)).next s

/-! ## Priority flow control (R285, R287) -/

/-- A PFC frame leaves. -/
def sendPfc (k i quanta : Nat) : Act := .all [
  bump (A.pfcCnt k) 15 0, emit (.ethernet k { dst := 0x0180C2000001, body := .pfc i quanta, bytes := 64 } false),
  Act.when (decide (quanta ≠ 0)) (.look fun s => updMac k fun m => { m with xoffAt := sset (fun _ => 0) m.xoffAt i (fineNow s) })]
/-- PFC_XOFF of a priority, at most its pool share. -/
def xoffLevel (s : State) (k i : Nat) : Nat := min (fld s (A.pfcOf k i 1) 21 0) (poolShare s (k / 8))
/-- One quantum, 512 bit times, in units of 1/12 ps. -/
def quantum (s : State) (k : Nat) : Nat := bitTime s k 512

/-- A received frame enters MAC k's ingress buffer: a lossless priority asks its peer to stop above PFC_XOFF and loses frames beyond its headroom;
the shared part drops when it is full. -/
def takeIn (k i bytes : Nat) : Act := .look fun s =>
  let held := rxHeld s k i + bytes
  let p := k / 8
  if lossless s k i then
    if xoffLevel s k i + fld s (A.pfcOf k i 0) 22 0 < held then .all [bump (A.pfcDrop k) 15 0, event (A.ethEvt p) 3 (359 + 5 * p)]
    else .all [
      updMac k fun m => { m with rx := m.rx ++ [(i, bytes)] },
      Act.when (decide (xoffLevel s k i < held) && !bit s (A.pfcStat k) i) (.all [setBit (A.pfcStat k) i, sendPfc k i 0xFFFF])]
  else Act.when (decide (sharedUse s p + bytes ≤ sharedSize)) (.all [updMac k fun m => { m with rx := m.rx ++ [(i, bytes)] }, showBuffers p])

/-- PFC_XOFF_REPEAT: every 32,768 quanta while the occupancy stays above PFC_XON. -/
def execPfcXoffRepeat (k : Fin 16) (i : Fin 8) (s : State) : Host.Outcome State Fault Refusal :=
  (Act.whenS (fun s => macUp s k && bit s (A.pfcStat k) i && decide (fld s (A.pfcOf k i 2) 20 0 < rxHeld s k i) &&
    decide (32768 * quantum s k ≤ fineNow s - sget (fun _ => 0) (macOf s k).xoffAt i)) (sendPfc k i 0xFFFF)).next s

/-- PFC_FRAME_RECEIVE: the priorities enabled in it pause for their quanta; 0 ends a pause. -/
def execPfcFrameReceive (k : Fin 16) (enable : BitVec 8) (quanta : List (BitVec 16)) (s : State) : Host.Outcome State Fault Refusal :=
  (Act.whenS (fun s => macUp s k) (.all [
    bump (A.pfcCnt k) 31 16,
    Act.upto 8 fun i => .whenS (fun s => enable.getLsbD i && bit s (A.macCtrl k) (8 + i)) (.look fun s =>
      let q := (quanta.getD i 0#16).toNat
      .all [putBit (A.pfcStat k) (8 + i) (decide (0 < q)),
        updMac k fun m => { m with paused := sset (fun _ => 0) m.paused i (fineNow s + q * quantum s k) }])])).next s

/-- PFC_PAUSE_EXPIRY: the pause of a priority runs out. -/
def execPfcPauseExpiry (k : Fin 16) (i : Fin 8) (s : State) : Host.Outcome State Fault Refusal :=
  (Act.whenS (fun s => bit s (A.pfcStat k) (8 + i) && decide (sget (fun _ => 0) (macOf s k).paused i ≤ fineNow s))
    (clrBit (A.pfcStat k) (8 + i))).next s

/-! ## Reception (R281, R283) -/

/-- A frame without SecTAG passes the uncontrolled port. -/
def uncontrolled (s : State) : RxKind → Bool
  | .ptp => !bit s A.ptpCtrl 2
  | .mka => true
  | .arp => true
  | .nd => true
  | _ => false

/-- What awaits processing: commands and tunnel frames wait in the ingress buffer; the rest is taken up at once. -/
def dispatchRx (k : Nat) (f : EthRx) : Act := match f.kind with
  | .command => takeIn k f.prio f.bytes
  | .tunnel => takeIn k f.prio f.bytes
  | _ => .done

/-- A frame dropped for want of a secure channel; of tunnel traffic the tunnels count it too (R215). -/
def noChannel (k : Nat) (f : EthRx) : Act := .all [
  bump (A.msNosc k) 31 0, Act.when (decide (f.kind = .tunnel)) (bump A.klkUdpcnt 31 16)]

/-- The next packet number of the live SA with an AN in the receive channel of an SCI (Table TT-1). -/
def liveSa (s : State) (k sci an : Nat) : Option Nat :=
  ((macOf s k).scs.find? fun x => x.sci == sci).bind fun x => (x.sas.find? fun z => z.1 == an).map (·.2)

/-- MACsec on a received frame (Table TT-1): SC, ICV, replay window. -/
def macsecRx (k : Nat) (f : EthRx) : Act := .look fun s => match f.sec with
  | none => if uncontrolled s f.kind then dispatchRx k f else noChannel k f
  | some (sci, an, pn, icvOk) =>
    match liveSa s k sci.toNat an with
    | none => noChannel k f
    | some next =>
      if !bit s (A.msCtrl k) 0 then noChannel k f
      else if !icvOk then .all [bump (A.msRxdrop k) 15 0, Act.when (!bit s (A.msCtrl k) 3) (dispatchRx k f)]
      else if bit s (A.msCtrl k) 2 && decide (pn + fld s (A.msReplayWin k) 29 0 < next) then
        .all [bump (A.msRxdrop k) 31 16, event (A.msEvt k) 0 366 255 k]
      else .all [
        bump (A.msRxok k) 31 0,
        updMac k fun m => { m with scs := m.scs.map fun y => if y.sci = sci.toNat then { y with
          sas := y.sas.map fun z => if z.1 = an.val then (z.1, max z.2 (pn + 1)) else z } else y },
        dispatchRx k f]

/-- ETH_FRAME_RECEIVE: FCS, size, an uncorrectable word of the packet buffer (R311, counted beside the FCS errors, log entry 131), MACsec, dispatch.
What it carries is a command of its own. -/
def execEthFrameReceive (k : Fin 16) (f : EthRx) (s : State) : Host.Outcome State Fault Refusal :=
  (Act.whenS (fun s => macUp s k && domRuns s (45 + 2 * (k / 8))) (
    if !f.fcsOk then bump (A.macRxerr k) 31 16
    else if 9216 < f.bytes then bump (A.macRxerr k) 15 0
    else if f.bufBad then .all [bump (A.macRxerr k) 31 16, raise { src := 347, addr := A.macRxerr k }]
    else .all [bump (A.macRxfrm k) 31 0, macsecRx k f])).next s

/-- ARP_REQUEST for an address: answered to the requester where it is the MAC's own (R282). -/
def execArpRequest (k : Fin 16) (sender : BitVec 48) (target : BitVec 32) (s : State) : Host.Outcome State Fault Refusal :=
  (Act.whenS (fun s => macUp s k && decide (rd s (A.ipv4 k) = target)) (sendControl k sender.toNat (.arpReply target.toNat) 64)).next s
/-- NEIGHBOR_SOLICITATION for an address. -/
def execNeighborSolicitation (k : Fin 16) (sender : BitVec 48) (target : BitVec 128) (s : State) : Host.Outcome State Fault Refusal :=
  (Act.whenS (fun s => macUp s k && decide (ipv6Of s k = target.toNat)) (sendControl k sender.toNat (.neighborAdv target.toNat) 90)).next s

/-! ## MKA (R283, R284) -/

/-- No secure channel remains on MAC k. -/
def dropChannels (k : Nat) : Act := .all [
  updMac k fun m => { m with scs := [], txPn := 1 },
  setFld (A.msStat k) 15 8 0, setFld (A.msStat k) 3 0 0, refreshPort (k / 8)]

/-- CAK_INSTALL: CAK and CKN are taken and MKA restarts. -/
def cakInstall (k : Nat) : Act := .look fun s =>
  let word (a : Nat) : List Byte := natLe 4 (rd s a).toNat
  .all [
    dropChannels k,
    updMac k fun m => { m with
      cak := some ((List.range 8).flatMap fun i => word (A.cak k i),
        ((List.range 8).flatMap fun i => word (A.ckn k i)).take (max 1 (min 32 (fld s (A.cknLen k) 5 0)))) }]
def execCakInstall (k : Fin 16) (s : State) : Host.Outcome State Fault Refusal := (hostWrite (A.cakCtrl k) 1#32 (cakInstall k)).next s

/-- Key server election: the device's MKA_PRIO, then its SCI, is below that of every live peer (Table TT-1; IEEE 802.1X-2020 clause 9, log entry 35). -/
def keyServer (s : State) (k : Nat) (r : MkaResult) : Bool :=
  r.peers.all fun x => listLt [fld s (A.mkaPrio k) 7 0, rdPair s (A.msSciLo k) (A.msSciHi k)] [x.1.toNat, x.2.toNat]

/-- MKA_FRAME: an MKPDU that the installed CAK validates, and what the exchange gives (IEEE 802.1X-2020 clause 9; log entry 35). The device
answers with its own. -/
def execMkaFrame (k : Fin 16) (r : MkaResult) (s : State) : Host.Outcome State Fault Refusal :=
  (Act.whenS (fun s => macUp s k && supvRuns s && bit s (A.msCtrl k) 0 && (macOf s k).cak.isSome) (.all [
    setBit (A.msStat k) 1, .look fun s => putBit (A.msStat k) 0 (keyServer s k r),
    .look fun s => updMac k fun m => { m with scs := (r.scs.take 8).map fun x =>
      ((m.scs.find? fun y => y.sci == x.toNat).getD { sci := x.toNat, sas := [(fld s (A.msStat k) 3 2, 1)] }) },
    setFld (A.msStat k) 15 8 (min 8 r.scs.length),
    Act.each r.newSak.toList fun an => .all [
      setFld (A.msStat k) 3 2 an, updMac k fun m => { m with txPn := 1, scs := m.scs.map fun y => { y with
        sas := ((an.val, 1) :: y.sas.filter fun z => decide (z.1 ≠ an.val)).take 2 } },
      event (A.msEvt k) 1 367 255 k],
    refreshPort (k / 8),
    sendControl k 0x0180C2000003 .mka 128])).next s

/-- MKA_PEER_LOST: a live peer's lifetime expires; with none left no secure channel is up. -/
def execMkaPeerLost (k : Fin 16) (last : Bool) (s : State) : Host.Outcome State Fault Refusal :=
  (Act.whenS (fun s => secureUp s k) (.all [event (A.msEvt k) 2 368 255 k, Act.when last (dropChannels k)])).next s

/-! ## Queues' registers and histograms (R298, R299) -/

/-- The telemetry queue of Q_SEL. -/
def selQueue (s : State) : Nat := fld s A.qSel 10 0
def execQApply (s : State) : Host.Outcome State Fault Refusal := (hostWrite A.qApply 1#32 (.look fun s => queueApply (selQueue s))).next s

/-- Bin of a depth in bytes, and of a sojourn in ns (Table TT-8): b from 2 to 14 begins at 2^(b + k). -/
def histBinOf (k : Nat) (empty : Bool) (x : Nat) : Nat :=
  if empty then 0 else if x < 2 ^ (2 + k) then 1 else min 15 (Nat.log2 x - k)
/-- One sample of a queue. -/
def histSample (q : Nat) : Act := .look fun s =>
  let l := (egQueue s q).frames
  let ns := match l.head? with
    | some f => (s.clk.mono - f.at_) * 125 / 96
    | none => 0
  Act.when (bit s (A.queueOf q 0) 28) (.all [
    bump (A.histOf q 0 (histBinOf 5 l.isEmpty (sumBytes l))) 31 0, bump (A.histOf q 1 (histBinOf 2 l.isEmpty ns)) 31 0])
/-- HIST_SAMPLE: every 1 µs. -/
def execHistSample (s : State) : Host.Outcome State Fault Refusal :=
  (Act.whenS (fun s => bit s A.tshCtrl 0 && domRuns s 12) (Act.upto 2048 histSample)).next s

/-- HIST_CLR: the selected queue's bins, or all (DESIGN CHOICE where both bits are set: all). -/
def clearHist (q : Nat) (v : Word) : Act :=
  if v.getLsbD 1 then dropRegs [(A.histOf 0 0 0, A.histOf 2048 0 0 - 1)]
  else Act.when (v.getLsbD 0) (dropRegs [(A.histOf q 0 0, A.histOf q 1 15)])
def execHistClr (all : Bool) (s : State) : Host.Outcome State Fault Refusal :=
  (hostWrite A.histClr (if all then 2#32 else 1#32) (.look fun s => clearHist (selQueue s) (if all then 2#32 else 1#32))).next s

/-! ## Counters (R305) -/

def clearEthCounters (p : Nat) : Act := Act.upto 8 fun m =>
  let k := 8 * p + m
  clearRegs [A.macTxfrm k, A.macRxfrm k, A.macRxerr k, A.pfcDrop k, A.pfcCnt k]
def execEthCntClr (p : Fin 2) (s : State) : Host.Outcome State Fault Refusal := (hostWriteFld (A.ethCtrl p) 7 7 1 (clearEthCounters p)).next s
def clearMsCounters (k : Nat) : Act := clearRegs [A.msTxprot k, A.msRxok k, A.msRxdrop k, A.msNosc k]
def execMsCntClr (k : Fin 16) (s : State) : Host.Outcome State Fault Refusal := (hostWriteFld (A.msCtrl k) 4 4 1 (clearMsCounters k)).next s
def clearTshCounters : Act := .all [clearRegs [A.tlmGapcnt], Act.upto 2048 fun q => clearRegs [A.queueOf q 6]]
def execTshCntClr (s : State) : Host.Outcome State Fault Refusal := (hostWriteFld A.tshCtrl 1 1 1 clearTshCounters).next s

end Sys2Proof.Machine
end

