-- ==== Sys2Proof/Machine/Tele.lean ====
section
/-!
DEFINITION. Telemetry subscriptions, records and packets, and the TELEMETRY and recorder commands (spec/11_telemetry_traffic.md R289-R294, R303,
spec/09_command_set.md Table CS-13).
-/

namespace Sys2Proof.Machine

/-! ## Descriptors (Table TT-6) -/

def subFirst (d : List Byte) : Nat := leAt d 0 2
def subElems (d : List Byte) : Nat := leAt d 2 2
def subQuant (d : List Byte) : Nat := leAt d 4 1
def subDecim (d : List Byte) : Nat := leAt d 8 4
def subDest (d : List Byte) : Nat := leAt d 12 2
def subKorotte (d : List Byte) : Bool := decide (32768 ≤ subDest d)
/-- The telemetry queue of a UDP destination, and its MAC. -/
def subQueue (d : List Byte) : Nat := 1024 * cut (subDest d) 14 14 + leAt d 14 2
def subMac (d : List Byte) : Nat := 8 * cut (subDest d) 14 14 + cut (subDest d) 13 11
/-- IP_DST in network byte order, and whether it is an IPv4 address (PRESUMED, log entry 36). -/
def subIp (d : List Byte) : Nat := beAt d 16 16
def subV4 (d : List Byte) : Bool := decide (subIp d / 2 ^ 32 = 0xFFFF)
def subTag (d : List Byte) : Nat := leAt d 36 2
def subMaxFrame (d : List Byte) : Nat := leAt d 52 2

/-- Bits of one element's fields in a record (R293). -/
def elemBits (quant : Nat) : Nat :=
  ((List.range 6).filter quant.testBit).foldl (fun x i => x + [14, 14, 16, 32, 8, 8].getD i 0) 0
/-- Bytes of a record of n elements. -/
def recBytes (quant n : Nat) : Nat := (n * elemBits quant + 31) / 32 * 4
/-- Bytes of the frame that carries b records of n elements, SecTAG and ICV included. -/
def packetFrame (s : State) (d : List Byte) (n b : Nat) : Nat :=
  let payload := 32 + b * recBytes (subQuant d) n
  if subKorotte d then 16 + payload + 4
  else udpBytes (!subV4 d) (subTag d) payload + if macProtects s (subMac d) then 32 else 0
/-- The largest frame a subscription may build: its MAX_FRAME, and 9,216 bytes apart from SecTAG and ICV (R281, R289). -/
def frameLimit (s : State) (d : List Byte) : Nat :=
  min (9216 + if !subKorotte d && macProtects s (subMac d) then 32 else 0) (subMaxFrame d)
/-- SLICE in force: as given, or as large as fits one record, in multiples of 32 or all elements. -/
def sliceOf_ (s : State) (d : List Byte) : Nat :=
  let n := subElems d
  if leAt d 6 2 ≠ 0 then leAt d 6 2
  else if packetFrame s d n 1 ≤ frameLimit s d then n
  else 32 * (((List.range (n / 32)).filter fun i => decide (packetFrame s d (32 * (i + 1)) 1 ≤ frameLimit s d)).length)
/-- BATCH in force: as given, or the largest that fits, up to 64 and 400 frames. -/
def batchOf (s : State) (d : List Byte) : Nat :=
  if leAt d 38 1 ≠ 0 then leAt d 38 1
  else max 1 ((List.range' 1 64).filter fun b => decide (packetFrame s d (sliceOf_ s d) b ≤ frameLimit s d) && decide (b * subDecim d ≤ 400)).length
/-- First element, counted from FIRST_ELEM, and length of each slice. -/
def sliceList (n k : Nat) : List (Nat × Nat) := if k = 0 then [] else (List.range ((n + k - 1) / k)).map fun i => (i * k, min k (n - i * k))

/-- Every check of R289 that makes a descriptor invalid. -/
def subInvalid (s : State) (d : List Byte) : Bool :=
  decide (10752 < subFirst d + subElems d ∨ subElems d = 0 ∨ 10751 < subFirst d) || decide (subQuant d = 0 ∨ 64 ≤ subQuant d) ||
  decide (leAt d 5 1 ≠ 0 ∨ leAt d 39 1 ≠ 0 ∨ leAt d 54 10 ≠ 0) || decide (subElems d < leAt d 6 2) ||
  decide (subDecim d = 0 ∨ 1048576 < subDecim d) || decide (64 < leAt d 38 1) || decide (1000000000 < leAt d 48 4) ||
  !within 512 9248 (subMaxFrame d) ||
  (if subKorotte d then decide (cut (subDest d) 14 14 ≠ 0 ∨ leAt d 14 2 ≠ 0)
   else decide (cut (subDest d) 10 0 ≠ 0 ∨ 1024 ≤ leAt d 14 2)) ||
  decide (sliceOf_ s d = 0) || decide (frameLimit s d < packetFrame s d (sliceOf_ s d) (batchOf s d)) ||
  (subKorotte d && (klkRoute s (cut (subDest d) 13 0)).isNone)

/-- Nominal rate in bits per 1,000 seconds (R289): wire bytes of each slice's packet by its packets per second. -/
def subRate (s : State) (d : List Byte) : Nat :=
  (sliceList (subElems d) (sliceOf_ s d)).foldl (fun x y =>
    x + (packetFrame s d y.2 (batchOf s d) + 20) * 8 * 4000000000 / (subDecim d * batchOf s d)) 0
/-- What a subscription loads: a MAC, or the first link to its destination; a tunnel's MAC. -/
inductive LoadOn where
  | mac (k : Nat)
  | link (n : Nat)
  | none
deriving DecidableEq, Repr
def subLoad (s : State) (d : List Byte) : LoadOn :=
  if !subKorotte d then .mac (subMac d)
  else match klkRoute s (cut (subDest d) 13 0) with
    | some (.link n) => .link n
    | some (.tunnel n) => ((secureMac s (tunnelPort s n)).map LoadOn.mac).getD .none
    | none => .none
/-- 95 % of what a load may take, in bits per 1,000 seconds. -/
def loadLimit (s : State) : LoadOn → Nat
  | .mac k => macRate s k * 950000000000
  | .link n => 100 * (kLink s n).lanes * 950000000000
  | .none => 0
def subsInUse (s : State) : List (Nat × Sub) := s.net.subs.filterMap fun x => x.2.map fun u => (x.1, u)
/-- Rates of the subscriptions on a load. -/
def loadNow (s : State) (l : LoadOn) : Nat :=
  ((subsInUse s).filter fun u => decide (subLoad s u.2.image = l)).foldl (fun x u => x + subRate s u.2.image) 0
def freeSub (s : State) : Nat := ((List.range 1024).find? fun i => (sget (fun _ => none) s.net.subs i).isNone).getD 0
def showSubs : Act := .look fun s => setFld A.tshStat 10 0 (subsInUse s).length

/-! ## Commands (Table CS-13) -/

/-- The descriptors of a payload. -/
def descriptors (l : List Byte) : List (List Byte) := (List.range (l.length / 64)).map fun i => slice l (64 * i) 64

/-- A new subscription from its descriptor. START = 0 is the first grid instant at least 100 µs after acceptance. -/
def newSub (s : State) (owner : Nat) (d : List Byte) : Sub := {
  image := d, owner := owner, sliceLen := sliceOf_ s d, batch := batchOf s d,
  start := if leAt d 40 8 = 0 then (nowNs s + 100000 + 249) / 250 else leAt d 40 8 }

/-- Check and create, in the order of the list; the first descriptor that fails ends the command, which has no effect then. -/
def subCheck (s : State) (owner : Nat) (l : List (List Byte)) : Option (Nat × Nat) :=
  if 1024 < (subsInUse s).length + l.length then some (St.subFull, 0)
  else if !hasRight s owner rtObserve then some (St.rightMissing, 0)
  else firstStatus (fun (x : List Byte × Nat) =>
    if subInvalid s x.1 then St.subInvalid
    else
      let a := subLoad s x.1
      let before := ((l.take x.2).filter fun d => !subInvalid s d && decide (subLoad s d = a)).foldl (fun y d => y + subRate s d) 0
      if loadLimit s a < loadNow s a + before + subRate s x.1 then St.capacity else 0) l.zipIdx

def execSubCreate (tag : Fin 4096) (dma : Dma) (s : State) : Host.Outcome State Fault Refusal :=
  (runCmd { op := 0x0601, tenant := true, count := some (1, 64), len := lenTimes 64, maxLen := 4096, resp := lenTimes 4 } tag dma
    fun c img => .look fun s =>
      let l := descriptors img
      match subCheck s c.party l with
      | some (st, i) => complete tag st i
      | none =>
        let free := ((List.range 1024).filter fun i => (sget (fun _ => none) s.net.subs i).isNone).take l.length
        .all [
          Act.each (free.zip l) fun (i, d) => updNet fun x => { x with subs := sset (fun _ => none) x.subs i (some (newSub s c.party d)) },
          showSubs, complete tag St.success 0 0 (free.flatMap (natLe 4))]).next s

/-- The caller may name a subscription: its own, or any for the admin. -/
def ownSub (s : State) (party i : Nat) : Bool := (sget (fun _ => none) s.net.subs i).any fun u => decide (party = 64) || decide (u.owner = party)

def execSubDelete (tag : Fin 4096) (dma : Dma) (s : State) : Host.Outcome State Fault Refusal :=
  (runCmd { op := 0x0602, tenant := true, count := some (1, 1024), len := lenTimes 4, maxLen := 4096 } tag dma fun c img => .look fun s =>
    let l := entriesOf 4 img
    checked tag (fun i => if ownSub s c.party i then 0 else St.subNotFound) l (.all [
      updNet fun x => { x with subs := x.subs.filter fun y => !l.contains y.1 }, showSubs, complete tag St.success])).next s

def execSubRead (tag : Fin 4096) (s : State) : Host.Outcome State Fault Refusal :=
  (runCmd { op := 0x0603, tenant := true } tag (.bytes []) fun c _ => .look fun s =>
    complete tag St.success 0 0 (((subsInUse s).filter fun u => ownSub s c.party u.1).flatMap fun u => u.2.image)).next s

/-! ## Records (R290, R291, R293) -/

/-- The elements of a tenant's own connections; all for the admin. -/
def visibleElems (s : State) (owner n : Nat) : Bool := decide (64 ≤ owner) || (onPaths s n).any fun c => decide (connOwner s c = owner)

/-- The flags byte of an element (R291). -/
def teleFlags (s : State) (n : Nat) : Nat :=
  let f (g : Sample → Bool) : Nat := (g (sampleOf s n 0) || (!elemVoa s n && g (sampleOf s n 1))).toNat
  128 * f (·.missing) + 64 * f (·.sat) + 32 * f (·.frozen) + 16 * f (·.stale) + 8 * f (·.laneHold)
/-- The low 8 bits of the integer value of LSM word 0. -/
def teleState (w : Word) : Nat := unsigned 8 ((Fp.val w).tdiv (2 ^ 149))

/-- The bits of one element in a record, most significant first: zeros where it is hidden or its read missed its slot. -/
def elemRecord (s : State) (quant : Nat) (shown missed : Bool) (n : Nat) : List Bool :=
  let keep := shown && !missed
  let v (x : Nat) : Nat := if keep then x else 0
  let flags := if !shown then 4 else if missed then 128 else teleFlags s n
  let fields : List (Nat × Nat) := [
    (14, v (sampleOf s n 0).code.toNat), (14, v (sampleOf s n 1).code.toNat), (16, v (sget (fun _ => 0#16) s.lane.emitPrev n).toNat),
    (32, v (Fp.sub (elemWord s n 3) (elemWord s n 7)).toNat), (8, v (teleState (elemWord s n 0))), (8, flags)]
  (fields.zipIdx.filter fun x => quant.testBit x.2).flatMap fun x => msb x.1.1 x.1.2
/-- The record of a slice: packed, and padded with zeros to 32 bits. -/
def sliceRecord (s : State) (u : Sub) (missed : Bool) (first n : Nat) : List Byte :=
  let l := (List.range n).flatMap fun i =>
    let e := subFirst u.image + first + i
    elemRecord s (subQuant u.image) (visibleElems s u.owner e) missed e
  packBits (l ++ List.replicate ((32 - l.length % 32) % 32) false)

/-- The header of a packet (Table TT-7); its GAP fields are filled in as it leaves. -/
def teleHeader (u : Sub) (id : Nat) (x : TelSlice) (first n : Nat) : List Byte :=
  natLe 2 0x4B54 ++ natLe 1 1 ++ natLe 1 (2 * x.masked.toNat + 4 * x.step.toNat) ++ natLe 4 id ++ natLe 8 x.first ++ natLe 2 x.recs.length ++
  natLe 2 (recBytes (subQuant u.image) n) ++ natLe 4 x.seq ++ natLe 4 0 ++ natLe 2 (subFirst u.image + first) ++ natLe 2 n

/-- A full packet leaves for its queue, or on Korotte (R292, R293); without a route its records are lost (R294). -/
def sendPacket (id i first n last : Nat) (u : Sub) : Act := .look fun s =>
  let x : TelSlice := sget (fun _ => {}) u.slices i
  let d := u.image
  let l := teleHeader u id x first n ++ x.recs.flatten
  let q := subQueue d
  .all [
    updSlice_ id i fun y => { y with seq := y.seq + 1, recs := [], masked := false, step := false },
    if subKorotte d then (if (klkRoute s (cut (subDest d) 13 0)).isNone then .all [
      klkSend 5 (cut (subDest d) 13 0) l, updSlice_ id i fun y => { y with lost := y.lost + x.recs.length }]
     else .all [
      klkSend 5 (cut (subDest d) 13 0) (l.take 3 ++ natLe 1 (leAt l 3 1 + if 0 < x.lost then 1 else 0) ++ slice l 4 20 ++
        natLe 4 (min x.lost 0xFFFFFFFF) ++ l.drop 28),
      updSlice_ id i fun y => { y with lost := 0 }])
    else enqueue q { (udpFrame s (queueMac s q) (subTag d) (!subV4 d) (if subV4 d then subIp d % 2 ^ 32 else subIp d) (leAt d 34 2)
        (leAt d 32 2) l) with
      launch := if leAt d 48 4 = 0 then none else some ((last + 1) * 250 + leAt d 48 4),
      tele := some (id, i, x.recs.length) }]

/-- TELEMETRY_RECORD: the record of lane frame N of a subscription, while the next frame runs; `missed` says that its reads missed their slot under
load (R294). -/
def execTelemetryRecord (id : Fin 1024) (missed : Bool) (s : State) : Host.Outcome State Fault Refusal :=
  (Act.look fun s => match sget (fun _ => none) s.net.subs id with
    | none => .done
    | some u =>
      let n := netFrame s - 1
      let due := decide (u.start ≤ n) && decide ((n - u.start) % subDecim u.image = 0) && u.last.all fun l => decide (l.2 ≠ s.tim.frames)
      let skipped := match u.last with
        | some (m, _) => if m < n then (n - m) / subDecim u.image - 1 else 0
        | none => 0
      Act.when due (.all [
        updNet fun x => { x with subs := smod (fun _ => none) x.subs id (·.map fun u => { u with last := some (n, s.tim.frames) }) },
        Act.each (sliceList (subElems u.image) u.sliceLen).zipIdx fun ((first, k), i) => .all [
          updSlice_ id i fun x => { x with
            lost := x.lost + skipped, first := if x.recs.isEmpty then n else x.first,
            recs := x.recs ++ [sliceRecord s u missed first k],
            masked := x.masked || (List.range k).any fun j => !visibleElems s u.owner (subFirst u.image + first + j) },
          .look fun s => (match sget (fun _ => none) s.net.subs id with
            | some v => Act.when (decide (v.batch ≤ (sget (fun _ => {}) v.slices i).recs.length)) (sendPacket id i first k n v)
            | none => .done)]])).next s

/-! ## The Replay Recorder's commands (R303) -/

/-- REPLAY_POST_DONE: the frames after the trigger are written. -/
def execReplayPostDone (s : State) : Host.Outcome State Fault Refusal :=
  (Act.whenS (fun s => bit s A.repStat repPosting && decide (s.rep.left = 0)) (.all [
    clrBit A.repStat repPosting, setBit A.repStat repFrozen, event A.tshEvt 1 381])).next s

def execReplayFreeze (tag : Fin 4096) (s : State) : Host.Outcome State Fault Refusal :=
  (runCmd { op := 0x0604 } tag (.bytes []) fun _ _ => .look fun s =>
    if bit s A.repStat repFrozen then complete tag St.replayState
    else .all [replayTriggerEvent 1 0, complete tag St.success]).next s

/-- REPLAY_READ: the frozen ring from a byte offset on, the oldest record first. -/
def execReplayRead (tag : Fin 4096) (s : State) : Host.Outcome State Fault Refusal :=
  (runCmd { op := 0x0605, masks := [0xFFFFFFFF] } tag (.bytes []) fun c _ => .look fun s =>
    let cap := max 1 (fld s A.repStat 18 0)
    let size := match s.rep.oldest, s.rep.newest with
      | some a, some b => 37696 * (b + 1 - a)
      | _, _ => 0
    let base := 37696 * ((s.rep.oldest.getD 0) % cap)
    let o := 64 * c.entry.p0.toNat
    if !bit s A.repStat repFrozen then complete tag St.replayState
    else if size < o then complete tag St.logRange
    else complete tag St.success 0 0 ((List.range (size - o)).flatMap fun i =>
      hbmAt s ((base + o + i) % (37696 * cap)) 1)).next s

def execReplayRelease (tag : Fin 4096) (s : State) : Host.Outcome State Fault Refusal :=
  (runCmd { op := 0x0606 } tag (.bytes []) fun _ _ => .look fun s =>
    if !bit s A.repStat repFrozen then complete tag St.replayState
    else .all [
      clrBit A.repStat repFrozen, clrBit A.repStat repKept, complete tag St.success]).next s

end Sys2Proof.Machine
end

