-- ==== Sys2Proof/Machine/RegRead.lean ====
section
/-!
DEFINITION. Reads of BAR0 and BAR2 (spec/16_register_map.md R375-R381): the registers that show other state, those a _SEL register selects,
the latches of values wider than 32 bits, and the windows onto the memories.
-/

namespace Sys2Proof.Machine

/-! ## Requesters (R380, R381) -/

/-- A requester's number, and its master number (R349). -/
def reqIx : Requester → Nat
  | .host => 0
  | .supervisors => 1
  | .jtag => 2
def reqMaster : Requester → Nat
  | .host => 104
  | .supervisors => 96
  | .jtag => 120

/-- Each requester's copy of the indirection register at `a`; the host's is the register itself. -/
def selKey (r a : Nat) : Nat := if r = 0 then a else A.copyOf r a
def selFld (s : State) (r a hi lo : Nat) : Nat := fld s (selKey r a) hi lo
/-- Each requester's latch for the higher word at `a`. -/
def latchKey (r a : Nat) : Nat := A.copyOf (3 + r) a

/-- MAC and offset of a register among the MACs of an ETH port. -/
def macOfAddr (a : Nat) : Option (Nat × Nat) :=
  let p := (a - 0x300000) / 0x1000
  let o := (a - 0x300000) % 0x1000
  if 0x300000 ≤ a ∧ a < 0x302000 ∧ 0x100 ≤ o ∧ o < 0x500 then some (8 * p + (o - 0x100) / 0x80, (o - 0x100) % 0x80) else none
/-- Tile, lane, cluster and the like: the index and offset of an address in `n` blocks of `stride` from `base`. -/
def blockOf (base stride n a : Nat) : Option (Nat × Nat) :=
  if base ≤ a ∧ a < base + stride * n then some ((a - base) / stride, (a - base) % stride) else none

/-- Every register whose name ends in _SEL, KLK_NH_SEL and KLK_TUN_SEL. -/
def isSel (a : Nat) : Bool :=
  [A.ctxSel, A.tenSel, A.srcSel, A.gclSel, A.qSel, A.histSel, A.polSel, A.umpSel, A.thmNtcSel, A.secCertSel, A.dbgRdSel, A.klkNhSel,
   A.klkTunSel].contains a ||
  (blockOf 0x140000 0x40 12 a).any (·.2 == 0x1C) || (macOfAddr a).any (·.2 == 0x2C)

/-! ## Values wider than 32 bits (R380): also those that software writes, whose HI word reads as its LO word's last read latched it -/

/-- The key of a gate register: the list, MAC and entry of GCL_SEL (Table TM-9). -/
def gclKey (s : State) (r a : Nat) : Nat :=
  let l := selFld s r A.gclSel 20 20
  let k := selFld s r A.gclSel 19 16
  let j := selFld s r A.gclSel 7 0
  if a = A.gclGates then A.gclOf k l (8 + 2 * j)
  else if a = A.gclInterval then A.gclOf k l (9 + 2 * j)
  else if a < A.gclCtrl then A.gclOf k l ((a - A.gclLen) / 4)
  else A.gateMacOf k ((a - A.gclCtrl) / 4)

/-- The LO words of MAC_ADDR, NH_MAC and MS_SCI. -/
def macPairLo (a : Nat) : Bool :=
  (macOfAddr a).any (fun p => decide (p.2 = 0x04 ∨ p.2 = 0x0C)) || (blockOf 0x310000 0x100 16 a).any (·.2 == 0x0C)

/-- The higher words that a read of a LO word latches, and their values now. -/
def latchedBy (s : State) (r a : Nat) : List (Nat × Nat) :=
  if a = A.timeNsLo then [(A.timeNsHi, nowNs s / 2 ^ 32), (A.tickLo, s.tim.tick % 2 ^ 32), (A.tickHi, s.tim.tick / 2 ^ 32)]
  else if [A.ppsInTsLo, A.ppMasterLo 0, A.ppMasterLo 1, A.repTrigLo, A.repOldestLo, A.nvmTxnLo, A.umpFeAddrLo, A.umpFeTimeLo,
      A.asqBaseLo, A.acqBaseLo].contains a || macPairLo a then
    [(a + 4, (rd s (a + 4)).toNat)]
  else if a = A.hbmErraddrLo then [(A.hbmErraddrHi, fld s A.hbmErraddrHi 2 0)]
  else if a = A.gclBaseLo then [(A.gclBaseHi, (rd s (gclKey s r A.gclBaseHi)).toNat)]
  else if a = A.srcIdLo then [(A.srcIdHi, (rd s (A.bindingOf (selFld s r A.srcSel 7 0) 2)).toNat)]
  else match blockOf 0x200000 0x10000 12 a with
    | some (c, 0x1C) => [(A.cluFrameHi c, s.tim.frames / 2 ^ 32 % 2 ^ 16)]
    | _ => []

/-- A higher word reads as latched. -/
def isHigh (a : Nat) : Bool :=
  [A.timeNsHi, A.tickLo, A.tickHi, A.ppsInTsHi, A.ppMasterHi 0, A.ppMasterHi 1, A.repTrigHi, A.repOldestHi, A.nvmTxnHi, A.umpFeAddrHi,
   A.umpFeTimeHi, A.srcIdHi, A.asqBaseHi, A.acqBaseHi, A.gclBaseHi].contains a || (decide (4 ≤ a) && macPairLo (a - 4)) ||
    (blockOf 0x200000 0x10000 12 a).any (·.2 == 0x20)

/-! ## Registers that show other state -/

/-- The number with the bits below n that hold. -/
def bitSum (n : Nat) (f : Nat → Bool) : Nat := (List.range n).foldl (fun m k => if f k then m + 2 ^ k else m) 0

/-- HFLT_MAP0/1: the fault flags of the slots of the local lane selected. -/
def tileValue (s : State) (r t k : Nat) : Nat :=
  let first := 56 * selFld s r (A.hfltSel t) 3 0
  let flag (x : Nat) : Bool := (tileLink s t).hflt.contains (first + x)
  if k = 0x20 then bitSum 32 flag
  else if k = 0x24 then bitSum 24 fun x => flag (32 + x)
  else (rd s (0x140000 + 0x40 * t + k)).toNat

/-- Bits of EML_CTRL and EML_STAT that belong to the whole lane group, and show in every lane's registers (Tables CV-9, CV-10). -/
def emlShared (k : Nat) : Word := if k = 0 then 0xFFF80000#32 else if k = 4 then 0xFF8000F8#32 else 0#32
def emlValue (s : State) (n k : Nat) : Word :=
  if n % 16 = 0 then rd s (A.emlCtrl n + k)
  else (rd s (A.emlCtrl n + k) &&& ~~~(emlShared k)) ||| (if k = 4 then rd s (A.emlCtrl (n / 16 * 16) + k) &&& 0xFF800000#32 else 0#32)

/-- CTX_FREQ, CTX_PHASE, CTX_AMP of the context selected, if there is one. -/
def ctxValue (s : State) (r k : Nat) : Nat :=
  let n := selFld s r A.ctxSel 13 6
  let j := selFld s r A.ctxSel 5 0
  let c := toneOf s n j
  if 192 ≤ n ∨ 56 ≤ j then 0
  else if k = 0 then c.freq.toNat else if k = 1 then c.phase.toNat else c.pilot.toNat * 2 ^ 15 + c.amp

/-- TEN and SRC registers (Table CS-20). -/
def tenValue (s : State) (r a : Nat) : Nat :=
  let t := selFld s r A.tenSel 5 0
  let n := selFld s r A.srcSel 7 0
  if a = A.tenProt then protCount s (s.fab.map.conns.map (·.conn)) t
  else if a = A.tenInflight then heldBy s (t + 1)
  else match [(A.tenRights, A.tenantOf t 0), (A.tenQuota, A.tenantOf t 1), (A.tenTagcap, A.tenantOf t 2), (A.tenCmdcnt, A.tenantOf t 4),
      (A.tenErrcnt, A.tenantOf t 5), (A.srcCtrl, A.bindingOf n 0), (A.srcIdLo, A.bindingOf n 1), (A.srcSeq, A.bindingOf n 3),
      (A.srcCnt, A.bindingOf n 4)].find? (·.1 == a) with
    | some p => (rd s p.2).toNat
    | none => (rd s a).toNat

/-- The registers of the queue selected (Table TT-12). -/
def queueValue (s : State) (r a : Nat) : Word :=
  let q := selFld s r A.qSel 10 0
  if a = A.qTokens then BitVec.ofInt 32 (tokensNow s q / 6144)
  else if a = A.qDepth then BitVec.ofNat 32 (min (2 ^ 32 - 1) (sumBytes (egQueue s q).frames))
  else if a = A.qDrop then rd s (A.queueOf q 6)
  else if a = A.histBin then rd s (A.histOf q (selFld s r A.histSel 4 4) (selFld s r A.histSel 3 0))
  else rd s (A.queueOf q ((a - A.qCfg) / 4))

/-- The key of a register of the policer selected (Table TT-13). -/
def polKey (s : State) (r a : Nat) : Nat :=
  let n := selFld s r A.polSel 7 0
  if a ≤ A.polEpbs then A.policerOf n ((a - A.polCtrl) / 4)
  else if a = A.polDrop then A.policerOf n 13 else A.policerOf n (5 + (a - A.polGreen) / 4)

/-- UMP_CFG, UMP_THR, UMP_WIN, UMP_INFO of the source selected; forced bits read 1 (R343). -/
def umpValue (s : State) (r a : Nat) : Nat :=
  let n := selFld s r A.umpSel 8 0
  if numSources ≤ n then 0
  else if a = A.umpCfg then (rd s (A.umpCfgOf n)).toNat ||| (forcedEv n * 2 ^ 20 + forcedSev n)
  else if a = A.umpThr then (rd s (A.umpThrOf n)).toNat
  else if a = A.umpWin then (rd s (A.umpWinOf n)).toNat
  else sourceClass n * 2 ^ 30 + (forcedEv n ||| forcedSev n) * 2 ^ 20 + (sourceDomains n).headD 63 * 2 ^ 14 +
    (sourceTile n).getD 15 * 2 ^ 10 + sourceGroup n * 2 ^ 5

/-- Words of hashes and of the certificate (Table SE-5). -/
def secValue (s : State) (r a : Nat) : Nat :=
  if a = A.secCertData then leAt ((List.range 4).map fun i => let k := 4 * selFld s r A.secCertSel 10 0 + i
    if k < certLen then certByte k else 0#8) 0 4
  else if A.secPatchhash 0 ≤ a ∧ a ≤ A.secPatchhash 15 then leAt (hashOr0 s.sec.patch) (a - A.secPatchhash 0) 4
  else if A.secOpthash 0 ≤ a ∧ a ≤ A.secOpthash 15 then leAt (hashOr0 s.nvm.opt) (a - A.secOpthash 0) 4
  else (rd s a).toNat

/-- Word i of the trace entry selected. -/
def traceWord (s : State) (r i : Nat) : Word := match s.dbg.trace[selFld s r A.dbgRdSel 11 0]? with
  | some (a, b, c, d) => [a, b, c, d].getD i 0#32
  | none => 0#32

/-- What the register at `a` holds, as requester r reads it, before its access types are applied. -/
def regValue (s : State) (r a : Nat) : Word :=
  if isHigh a then rd s (latchKey r a)
  else if a = A.hbmErraddrHi then (rd s a &&& 0x80000000#32) ||| rd s (latchKey r a)
  else if isSel a then rd s (selKey r a)
  else if A.clkDstat 0 ≤ a ∧ a ≤ A.clkDstat 59 then rd s a ||| (if clkGated s ((a - A.clkDstat 0) / 4) then 0x20000000#32 else 0#32)
  else if a = A.timeNsLo then BitVec.ofNat 32 (nowNs s)
  else if A.klkStall 0 ≤ a ∧ a ≤ A.klkStall 7 ∧ (a - A.klkStall 0) % 0x40 = 0 then BitVec.ofNat 32 (stallShown s ((a - A.klkStall 0) / 0x40))
  else if a = A.klkNhData then rd s (A.nextHopOf (selFld s r A.klkNhSel 13 0))
  else if A.klkTunAddr 0 ≤ a ∧ a ≤ A.klkTunCtrl then rd s (A.tunnelOf (selFld s r A.klkTunSel 7 0) ((a - A.klkTunAddr 0) / 4))
  else if A.ctxFreq ≤ a ∧ a ≤ A.ctxAmp then BitVec.ofNat 32 (ctxValue s r ((a - A.ctxFreq) / 4))
  else if A.tenSel ≤ a ∧ a ≤ A.srcCnt then BitVec.ofNat 32 (tenValue s r a)
  else if A.gclGates ≤ a ∧ a ≤ A.gclLt then rd s (gclKey s r a)
  else if (A.qCfg ≤ a ∧ a ≤ A.qBurst) ∨ (A.qTokens ≤ a ∧ a ≤ A.qDrop) ∨ a = A.histBin then queueValue s r a
  else if A.polCtrl ≤ a ∧ a ≤ A.polDrop then rd s (polKey s r a)
  else if a = A.umpGrp then
    BitVec.ofNat 32 (bitSum 24 fun g => (List.range numSources).any fun n => (srcFlag s n || srcSevere s n) && sourceGroup n == g)
  else if A.umpCfg ≤ a ∧ a ≤ A.umpInfo then BitVec.ofNat 32 (umpValue s r a)
  else if A.thmNtcRnom ≤ a ∧ a ≤ A.thmNtcRbias then rd s (A.ntcOf (selFld s r A.thmNtcSel 2 0) ((a - A.thmNtcRnom) / 4))
  else if 0x6000 ≤ a ∧ a < 0x6100 then BitVec.ofNat 32 (secValue s r a)
  else if A.dbgRdData 0 ≤ a ∧ a ≤ A.dbgRdData 3 then traceWord s r ((a - A.dbgRdData 0) / 4)
  else match blockOf 0x140000 0x40 12 a, blockOf 0x120000 0x20 192 a, macOfAddr a, blockOf 0x200000 0x10000 12 a with
    | some (t, k), _, _, _ => BitVec.ofNat 32 (tileValue s r t k)
    | _, some (n, k), _, _ => emlValue s n k
    | _, _, some (k, o), _ => if 0x30 ≤ o ∧ o ≤ 0x38 then rd s (A.pfcOf k (selFld s r (A.pfcSel k) 2 0) ((o - 0x30) / 4)) else rd s a
    | _, _, _, some (_, 0x1C) => BitVec.ofNat 32 s.tim.frames
    | _, _, _, _ => rd s a

/-- The bits of a register that read: RW, W1C, W1S and RO fields; WO and RSV bits read 0 (Table SC-5). -/
def readMask (a : Nat) : Word := match regRow a with
  | some x => BitVec.ofNat 32 (x.rw ||| x.w1c ||| x.w1s ||| x.ro)
  | none => 0#32

/-- A BAR0 read: 0 while the register's domain is in reset, and where nothing is mapped (R377, R378). -/
def regRead (s : State) (r a : Nat) : Word := if domInReset s (domOf a) then 0#32 else regValue s r a &&& readMask a

/-! ## Bad accesses (R377, R383) -/

/-- A bad access is counted; the first since VALID was cleared is recorded. -/
def badAccess (write bar2 : Bool) (ofs : Nat) : Act := .whenS (fun s => !domInReset s 42) (.all [
  bump A.idBadcnt 15 0,
  .whenS (fun s => !bit s A.idBadaddr 31) (.all [
    wrNat A.idBadaddr (2 ^ 31 + write.toNat * 2 ^ 30 + bar2.toNat * 2 ^ 29), wrNat A.idBadofs ofs])])

/-- The latches that a read sets. -/
def latchReads (r a : Nat) : Act := .look fun s =>
  Act.when (!domInReset s (domOf a)) (Act.each (latchedBy s r a) fun p => wrNat (latchKey r p.1) p.2)

/-- A requester reads the BAR0 word at `a`, and `go` has the value: the trace records it, a LO word latches, an unmapped word is a bad
access. -/
def readWith (q : Requester) (a : Nat) (go : Word → Act) : Act := .look fun s =>
  let v := regRead s (reqIx q) a
  .all [traceAccess false a v (reqMaster q), if regMapped a then latchReads (reqIx q) a else badAccess false false a, go v]

/-! ## BAR2 (R375; Tables LE-3, LE-4, MP-2) -/

/-- Bytes of a word as it stands, or open bytes where it cannot be read. -/
def memWord (s : State) (bad : Bool) (a : Nat) (w : Word) : Word := if bad then Config.badWord s.free a else w

/-- The LSM word at a byte offset of engine e. -/
def lsmRead (s : State) (e o : Nat) : Word :=
  let x := o / 4
  let i := x / 2048 * 16 + x % 16
  let w := x / 16 % 128
  let a := lsmAddr e i (physWord (rotOf s e) w)
  memWord s (isBad s a) a (lsmWord s e i w)

/-- The word of a program bank at byte offset o of engine e's window. -/
def bankRead (s : State) (e o : Nat) : Word :=
  let b := o / 0x8000
  let n := o % 0x8000 / 4 * 4
  let a := progAddr e b (n / 8)
  if bankRom s e b && decide (n < Config.slpImage.length) then BitVec.ofNat 32 (leAt Config.slpImage n 4)
  else memWord s (isBad s a) a (readWord s.mem (progAddr e b 0 + n))

/-- The word of cluster c's table memory at byte offset o (R401). -/
def tableRead (s : State) (c o : Nat) : Word :=
  let a := tableBase c + o / 4 * 4
  if o < 0xE0000 ∧ !bit s (A.cluStat c) 31 then 0x7FC00000#32
  else if 0xFFB80 ≤ o ∧ o < 0xFFF80 then (match sget (fun _ => none) s.eng.ect c with
    | some u => wordAt u.image ((o - 0xFFB80) / 4 * 4)
    | none => 0x7FC00000#32)
  else memWord s (isBad s a) a (readWord s.mem a)

/-- Offsets of the ECT mirror and the ECT shadow in a cluster's table memory (Table LE-3). -/
def ectOffset (o : Nat) : Bool := decide (o < 0xE0000) || decide (0xFFB80 ≤ o ∧ o < 0xFFF80)

/-- HBM address of an offset of the aperture. -/
def aperAddr (s : State) (o : Nat) : Nat := fld s A.hbmAper 3 0 * 2 ^ 31 + o

/-- The window of a BAR2 offset: 0 LSM, 1 program banks, 2 tables, 3 HBM aperture; none where nothing is mapped. -/
def bar2Window (o : Nat) : Option Nat :=
  if o < 0x600000 then some 0
  else if 0x1000000 ≤ o ∧ o < 0x1600000 then some 1
  else if 0x2000000 ≤ o ∧ o < 0x2C00000 then some 2
  else if 0x80000000 ≤ o ∧ o < 0x100000000 then some 3 else none
/-- The offset belongs to a window but to no memory of it (Table LE-4). -/
def bar2Hole (o : Nat) : Bool := decide (o < 0x600000 ∧ 0xE000 ≤ o % 0x10000)

/-- The first byte of the n from BAR2 offset o on that belongs to no memory: unmapped, or in a hole of the LSM window (R376, Table LE-4). -/
def bar2BadIn (o n : Nat) : Option Nat :=
  let hole := max o (o / 0x10000 * 0x10000 + 0xE000)
  ((if hole < 0x600000 ∧ hole < o + n then [hole] else []) ++
    ([(0x600000, 0x1000000), (0x1600000, 0x2000000), (0x2C00000, 0x80000000)].filterMap fun w =>
      if o < w.2 ∧ w.1 < o + n then some (max o w.1) else none)).min?

/-- The byte at a BAR2 offset; memories of a domain in reset read 0 (log entry 49), ECT mirror and shadow the canonical NaN, as ECT_READY is 0
(R401). -/
def bar2Byte (s : State) (o : Nat) : Byte :=
  let part (w : Word) : Byte := w.extractLsb' (8 * (o % 4)) 8
  match bar2Window o with
  | some 0 => let e := o / 0x10000
    if bar2Hole o || domInReset s (e / 8) then 0#8 else part (lsmRead s e (o % 0x10000))
  | some 1 => let e := (o - 0x1000000) / 0x10000
    if domInReset s (e / 8) then 0#8 else part (bankRead s e (o % 0x10000))
  | some 2 => let c := (o - 0x2000000) / 0x100000
    if domInReset s c then (if ectOffset (o % 0x100000) then part Fp.nan else 0#8) else part (tableRead s c (o % 0x100000))
  | some _ => let a := aperAddr s (o - 0x80000000)
    if domInReset s 40 || decide (0x524000000 ≤ a ∧ a < 0x544000000) then 0#8 else (hbmAt s a 1).headD 0#8
  | none => 0#8

end Sys2Proof.Machine
end

