-- ==== Sys2Proof/Machine/Thermal.lean ====
section
/-!
DEFINITION. Temperature sensors, thresholds, THERMTRIP and the SMBus target (spec/14_faults_thermal.md R353-R360).
-/

namespace Sys2Proof.Machine

/-! ## Conversions (R354, R355) -/

/-- ln(n / d) times 2^64 for 1 ≤ n / d < 2, from ln q = 2 atanh((q - 1) / (q + 1)) by its first 40 terms. -/
def lnSmall (n d : Nat) : Nat :=
  let z := (n - d) * 2 ^ 96 / (n + d)
  let term := (List.range 40).foldl (fun (a : Nat × Nat) k => (a.1 + a.2 / (2 * k + 1), a.2 * z / 2 ^ 96 * z / 2 ^ 96)) (0, z)
  2 * term.1 / 2 ^ 32

/-- ln(n / d) times 2^64: the quotient is brought into [1, 2) by a power of two. -/
def lnRatio (n d : Nat) : Int :=
  let k := Int.ofNat (Nat.log2 n) - Int.ofNat (Nat.log2 d)
  let n1 := if 0 ≤ k then n else n * 2 ^ (-k).toNat
  let d1 := if 0 ≤ k then d * 2 ^ k.toNat else d
  let (n2, k2) := if n1 < d1 then (2 * n1, k - 1) else (n1, k)
  Int.ofNat (lnSmall n2 d1) + k2 * Int.ofNat (lnSmall (2 ^ 64 - 1) (2 ^ 63))

/-- The nearest sixteenth of a degree to 1 / (1/298.15 + ln(R_T / R_NOM) / B) - 273.15 for x / 4,096 of VDDA_18 (R354); none
where the formula has no value, or none in the reading format. -/
def ntcReading (x rbias rnom b : Nat) : Option Int :=
  let n := rbias * x
  let d := (4096 - x) * rnom
  let den := Int.ofNat b * 2 ^ 64 * 100 + lnRatio n d * 29815
  if n = 0 ∨ d = 0 ∨ b = 0 ∨ den ≤ 0 then none
  else
    let r := (2 * (160 * Int.ofNat b * 2 ^ 64 * 29815 - 43704 * den) + 10 * den) / (20 * den)
    if r < -32767 ∨ 32767 < r then none else some r

/-- Whether a conversion reads broken (R355). -/
def convBroken : Conversion → Bool
  | .diode _ mv ohm => decide (950 < mv.toNat) || decide (mv.toNat < 200) || decide (500 < ohm.toNat)
  | .thermistor x => decide (98 * 4096 < 100 * x.toNat) || decide (100 * x.toNat < 2 * 4096)
  | .onDie _ ok => !ok

/-- What the sensor reads, in sixteenths of a degree, given a free value for a formula without one. -/
def convReading (s : State) (i : Nat) (free : Word) : Conversion → Int
  | .diode t _ _ => t.toInt
  | .thermistor x =>
    let n := i - 16
    match ntcReading x.toNat (fld s (A.ntcOf n 2) 23 0) (fld s (A.ntcOf n 0) 23 0) (fld s (A.ntcOf n 1) 15 0) with
    | some r => r
    | none => signed 16 free.toNat
  | .onDie t _ => t.toInt

/-- A conversion fits the kind of its sensor (Table FT-6). -/
def convFits (i : Nat) : Conversion → Bool
  | .diode .. => decide (i < 16)
  | .thermistor _ => decide (16 ≤ i ∧ i < 24)
  | .onDie .. => decide (24 ≤ i)

/-! ## Summary registers -/

/-- A sensor is enabled. -/
def sensorOn (s : State) (i : Nat) : Bool := bit s (A.thmSctrl i) 31

/-- Sensors by number that have some bit of THM_SSTAT set. -/
def anySensor (s : State) (b : Nat) : Bool := (List.range 36).any fun i => bit s (A.thmSstat i) b

/-- The hottest enabled reading and its sensor, the lowest number of equals. -/
def hottest (s : State) : Option (Nat × Int) := (List.range 36).foldl (fun m i =>
  let r := fld s (A.thmTemp i) 15 0
  if !sensorOn s i || decide (r = 0x8000) then m
  else match m with
    | none => some (i, signed 16 r)
    | some (j, x) => if x < signed 16 r then some (i, signed 16 r) else some (j, x)) none

/-- Readings of the on-die sensors that have been taken. -/
def dieReadings (s : State) : List Int :=
  ((List.range' 24 12).map fun i => fld s (A.thmTemp i) 15 0).filterMap fun r => if r = 0x8000 then none else some (signed 16 r)

/-- THM_STAT, THM_HOT and the write inhibit (R316) follow the readings. -/
def refreshThermal : Act := .look fun s => .all [
  (match hottest s with
    | some (i, t) => wrNat A.thmHot (i * 2 ^ 16 + unsigned 16 t)
    | none => wrNat A.thmHot 0x8000),
  putBit A.thmStat 30 (anySensor s 30), putBit A.thmStat 29 (anySensor s 29 || anySensor s 28),
  putBit A.thmStat 28 (anySensor s 31), putBit A.thmStat 31 s.thm.tripped,
  Act.when ((dieReadings s).any fun t => decide (1920 < t)) (.all [setBit A.thmStat 27, setBit A.nvmStat 28]),
  Act.when ((dieReadings s).all fun t => decide (t ≤ 1840)) (.all [clrBit A.thmStat 27, clrBit A.nvmStat 28])]

/-! ## THERMTRIP (R357, Table FT-7) -/

/-- Domains that a THERMTRIP holds in reset: every one but AON and PERI (Table FT-7). -/
def tripDomains : List Nat := List.range 42 ++ (List.range' 44 16)

/-- THERMTRIP of sensor `i` at reading `t`. -/
def thermTrip (i : Nat) (t : Int) : Act := .whenS (fun s => !s.thm.tripped) (.all [
  updThm fun x => { x with tripped := true },
  wrNat A.thmTrip (2 ^ 31 + i * 2 ^ 24 + unsigned 16 t),
  replayTriggerEvent 4 (16 + 2 * i),
  updNvm fun n => { n with stopped := true },
  Act.upto 12 fun k => .all [updTile k fun x => { x with driven := true }, refreshFault k],
  Act.upto 96 fun e => clrBit (A.engStat e) 31,
  Act.upto 12 fun c => clrBit (A.cluStat c) 31,
  clrBit A.cmdStat 31,
  Act.upto 24 bcoOff,
  Act.each tripDomains fun d => .all [setBit (A.clkDstat d) 30, domainDown raise d],
  .upd (.hbmDrop [(0, 2 ^ 36)]) .done])

/-! ## Sensor readings -/

/-- Rate: the newest reading exceeds the one `n` readings before by more than `lim` degrees, with no reading missing between
(R356). -/
def rateOver (h : List (Option Int)) (n lim : Nat) : Bool :=
  let w := h.take (n + 1)
  decide (lim ≠ 0) && decide (w.length = n + 1) && w.all Option.isSome &&
  (match h.head?, w.getLast? with
   | some (some a), some (some b) => decide (Int.ofNat (16 * lim) < a - b)
   | _, _ => false)

/-- A level with hysteresis: rises at the threshold, falls `hyst` degrees below it. -/
def levelAt (was : Bool) (t thr : Int) (hyst : Nat) : Bool := if was then decide (thr - Int.ofNat (16 * hyst) < t) else decide (thr ≤ t)

/-- What a sensor shows after a reading. -/
def takeReading (i : Nat) (broken : Bool) (t : Int) : Act := .look fun s =>
  let x := sget (fun _ => {}) s.thm.sensors i
  let was := bit s (A.thmSstat i) 31
  let good := if broken then 0 else if was then x.good + 1 else 0
  let isBroken := broken || (was && decide (good < 3))
  let r : Int := if isBroken then 4080 else t
  let hist := ((if isBroken then none else some r) :: x.hist).take 101
  let thr := rd s (A.thmThr i)
  let ctl := rd s (A.thmSctrl i)
  let warn := levelAt (bit s (A.thmSstat i) 28) r (signed 16 (bits thr 15 0)) (bits ctl 23 20)
  let crit := levelAt (bit s (A.thmSstat i) 30) r (signed 16 (bits thr 31 16)) (bits ctl 23 20)
  let rate := rateOver hist 10 (bits ctl 7 0) || rateOver hist 100 (bits ctl 15 8)
  let max0 := fld s (A.thmTemp i) 31 16
  .all [
    updThm fun m => { m with sensors := sset (fun _ => {}) m.sensors i { hist := hist, good := if isBroken then good else 0 } },
    setFld (A.thmTemp i) 15 0 (unsigned 16 r),
    Act.when (decide (max0 = 0x8000) || decide (signed 16 max0 < r)) (setFld (A.thmTemp i) 31 16 (unsigned 16 r)),
    Act.when (isBroken && !was) (bump A.thmBrkcnt 15 0),
    putBit (A.thmSstat i) 31 isBroken, putBit (A.thmSstat i) 30 crit, putBit (A.thmSstat i) 29 rate, putBit (A.thmSstat i) 28 warn,
    refreshThermal,
    setLevel { src := 15 + 2 * i, addr := i } (warn || rate),
    setLevel { src := 16 + 2 * i, addr := i } crit,
    Act.when (crit && !bit s (A.thmSstat i) 30 && bit s (A.thmSctrl i) 30) (.all [thermTrip i r, refreshThermal])]

/-- The AON domain runs: sensors convert and the SMBus target answers from step 1 of bring-up on, in every state (R353,
R359). -/
def aonRuns (s : State) : Bool := s.clk.aon && !s.clk.por

/-- SENSOR_READING: sensor i is read; a disabled sensor takes none. -/
def execSensorReading (i : Fin 36) (c : Conversion) (s : State) : Host.Outcome State Fault Refusal :=
  (Act.whenS (fun s => aonRuns s && sensorOn s i && convFits i c)
    (withFree fun w => .look fun s => takeReading i (convBroken c) (convReading s i w c))).next s

/-- Bits of THM_SCTRL that are written: those of an on-die sensor leave EN and TRIP_EN at 1 (R356). -/
def sctrlMask (i : Nat) : Word := if 24 ≤ i then 0x00F0FFFF#32 else 0xC0F0FFFF#32

/-- Write THM_SCTRL: setting EN clears the history; clearing it disables the sensor, which then reads 0x8000. -/
def writeSctrl (i : Nat) (v : Word) : Act := .look fun s =>
  let old := rd s (A.thmSctrl i)
  let nu := (old &&& ~~~(sctrlMask i)) ||| (v &&& sctrlMask i)
  .all [
    wr (A.thmSctrl i) nu,
    Act.when (nu.msb && !old.msb) (updThm fun m => { m with sensors := sset (fun _ => {}) m.sensors i {} }),
    Act.when (!nu.msb && old.msb) (.all [
      setFld (A.thmTemp i) 15 0 0x8000, wrNat (A.thmSstat i) 0,
      updThm fun m => { m with sensors := sset (fun _ => {}) m.sensors i {} },
      setLevel { src := 15 + 2 * i, addr := i } false, setLevel { src := 16 + 2 * i, addr := i } false,
      refreshThermal])]

def execThmSctrlWrite (i : Fin 36) (v : BitVec 32) (s : State) : Host.Outcome State Fault Refusal :=
  (hostWrite (A.thmSctrl i) v (writeSctrl i v)).next s

/-- Write THM_THR: an on-die CRIT lies in 95 to 125 degrees, and a write outside that is ignored (R356). -/
def writeThr (i : Nat) (v : Word) : Act :=
  let c := signed 16 (bits v 31 16)
  Act.when (decide (i < 24) || (decide (1520 ≤ c) && decide (c ≤ 2000))) (.all [
    wr (A.thmThr i) v, updThm fun m => { m with thrSet := if m.thrSet.contains i then m.thrSet else i :: m.thrSet }])

def execThmThrWrite (i : Fin 36) (v : BitVec 32) (s : State) : Host.Outcome State Fault Refusal :=
  (hostWrite (A.thmThr i) v (writeThr i v)).next s

/-- THM_CTRL.MAX_CLR. -/
def execThmMaxClr (s : State) : Host.Outcome State Fault Refusal :=
  (hostWrite A.thmCtrl 0#32 (Act.upto 36 fun i => setFld (A.thmTemp i) 31 16 0x8000)).next s

/-! ## SMBus (R359, Table FT-8) -/

/-- SMBus's packet error code: the CRC-8 of x^8 + x^2 + x + 1 (PRESUMED from the SMBus Specification 3.1 that R359 names, log entry 135). -/
def crc8 (l : List Byte) : Byte := l.foldl (fun c b => (List.range 8).foldl (fun c _ =>
  if c.getLsbD 7 then (c <<< 1) ^^^ 0x07#8 else c <<< 1) (c ^^^ b)) 0#8

/-- The bytes of an answer on the bus: a block goes behind its count. -/
def smbBytes : Out → List Byte
  | .smbByte v => natLe 1 v
  | .smbWord v => natLe 2 v
  | .smbBlock l => natLe 1 l.length ++ l
  | _ => []

/-- The PEC of an answer to a code: over the address with the write bit, the code, the address with the read bit, and the bytes. -/
def smbPecOf (s : State) (code : Nat) (o : Out) : Byte :=
  let a := fld s A.thmSmb 6 0
  crc8 (natLe 1 (2 * a) ++ natLe 1 code ++ natLe 1 (2 * a + 1) ++ smbBytes o)

/-- An answer of the target to a command code, and its PEC. -/
def smbAnswer (code : Nat) (f : State → Out) : Act := .whenS aonRuns (.look fun s => .all [emit (f s), emit (.smbPec (smbPecOf s code (f s)))])

def execSmbDeviceId (s : State) : Host.Outcome State Fault Refusal := (smbAnswer 0x00 fun _ => .smbByte 0x96).next s

/-- The status byte. -/
def smbStatus (s : State) : Nat :=
  let b (c : Bool) (i : Nat) : Nat := if c then 2 ^ i else 0
  b s.thm.tripped 7 + b (anySensor s 30) 6 + b (anySensor s 29 || anySensor s 28) 5 + b (anySensor s 31) 4 +
  b (bit s A.thmStat 27) 3 + b (faultN s) 2 + b (inSafe s) 1 + b (bit s A.rstPhase 31) 0

def execSmbStatus (s : State) : Host.Outcome State Fault Refusal := (smbAnswer 0x01 fun s => .smbByte (smbStatus s)).next s

def execSmbHottest (s : State) : Host.Outcome State Fault Refusal := (smbAnswer 0x02 fun s => .smbWord (fld s A.thmHot 15 0)).next s

def execSmbHottestSensor (s : State) : Host.Outcome State Fault Refusal :=
  (smbAnswer 0x03 fun s => .smbByte (fld s A.thmHot 21 16)).next s

def execSmbTripReading (s : State) : Host.Outcome State Fault Refusal :=
  (smbAnswer 0x04 fun s => .smbWord (fld s A.thmTrip 15 0)).next s

def execSmbTripSensor (s : State) : Host.Outcome State Fault Refusal :=
  (smbAnswer 0x05 fun s => .smbByte (if bit s A.thmTrip 31 then fld s A.thmTrip 29 24 else 0xFF)).next s

def execSmbRstCause (s : State) : Host.Outcome State Fault Refusal :=
  (smbAnswer 0x06 fun s => .smbByte (fld s A.rstCause 7 0)).next s

def execSmbSensorReading (i : Fin 36) (s : State) : Host.Outcome State Fault Refusal :=
  (smbAnswer (0x10 + i) fun s => .smbWord (fld s (A.thmTemp i) 15 0)).next s

def execSmbBlockRead (s : State) : Host.Outcome State Fault Refusal :=
  (smbAnswer 0x40 fun s => .smbBlock ((List.range 36).flatMap fun i => natLe 2 (fld s (A.thmTemp i) 15 0))).next s

/-- The code and protocol are in Table FT-8. -/
def smbKnown (code : Nat) : Bool := decide (code ≤ 6) || decide (0x10 ≤ code ∧ code ≤ 0x33) || decide (code = 0x40)

/-- SMB_REFUSED: a data write, or a code that Table FT-8 does not list, is answered with NACK. -/
def execSmbRefused (code : BitVec 8) (write : Bool) (s : State) : Host.Outcome State Fault Refusal :=
  (Act.when (write || !smbKnown code.toNat) (.whenS aonRuns (emit .smbNack))).next s

end Sys2Proof.Machine
end

