-- ==== Sys2Proof/Machine/UmpRegs.lean ====
section
/-!
DEFINITION. Writes of the Umpire's registers that act (spec/14_faults_thermal.md R346, R347, R349, R360).
-/

namespace Sys2Proof.Machine

/-- UMP_CTRL.FE_CLR: the capture is cleared (R349). -/
def clearCapture : Act := clearRegs [A.umpFeSrc, A.umpFeAddrLo, A.umpFeAddrHi, A.umpFeInfo, A.umpFeTimeLo, A.umpFeTimeHi]

def execUmpFeClr (s : State) : Host.Outcome State Fault Refusal := (hostWrite A.umpCtrl 0#32 clearCapture).next s

/-- UMP_CTRL.CNT_CLR: every OCC is cleared (R347). -/
def clearOccs : Act := Act.upto numSources fun n => setFld (A.umpSrc n) 15 0 0

def execUmpCntClr (s : State) : Host.Outcome State Fault Refusal := (hostWrite A.umpCtrl 0#32 clearOccs).next s

/-- UMP_SRC.CNT_CLR of source n. -/
def execUmpSrcCntClr (n : Fin 404) (s : State) : Host.Outcome State Fault Refusal :=
  (hostWrite (A.umpSrc n) 0x20000000#32 (setFld (A.umpSrc n) 15 0 0)).next s

/-- A 1 written to FLAG of source n (R347). -/
def execUmpFlagClear (n : Fin 404) (s : State) : Host.Outcome State Fault Refusal :=
  (hostWrite (A.umpSrc n) 0x80000000#32 (clearFlag n)).next s

/-- A 1 written to SEVERE of source n (R346). -/
def execUmpSevereClear (n : Fin 404) (s : State) : Host.Outcome State Fault Refusal :=
  (hostWrite (A.umpSrc n) 0x40000000#32 (clearSevere n)).next s

end Sys2Proof.Machine
end

