-- ==== Sys2Proof/Machine/RegWrite.lean ====
section
/-!
DEFINITION. Writes of BAR0 registers (spec/16_register_map.md R376-R384): the access types of Table SC-5, what the fields of each block do, and
the accesses that are refused.
-/

namespace Sys2Proof.Machine

/-- A write by access types alone (Table SC-5): RW bits take the value, 1 clears a W1C bit and sets a W1S bit. -/
def plainWrite (a : Nat) (v : Word) : Act := .look fun s => match regRow a with
  | none => .done
  | some x => wr a ((((rd s a &&& ~~~(BitVec.ofNat 32 x.rw)) ||| (v &&& BitVec.ofNat 32 x.rw)) ||| (v &&& BitVec.ofNat 32 x.w1s)) &&&
      ~~~(v &&& BitVec.ofNat 32 x.w1c))

/-- A write of a field where its value is one the register's description takes; any other leaves the register (log entry 50). -/
def writeIf (ok : Bool) (a : Nat) (v : Word) : Act := Act.when ok (plainWrite a v)

/-! ## Blocks -/

/-- TILE registers of tile t (Tables FL-10, FL-11). -/
def writeTile (t k : Nat) (v : Word) : Act :=
  if k = 0 then .all [
    Act.when (v.getLsbD 7) (clearRegs [A.fclCnt0 t, A.fclCnt1 t]),
    .whenS (fun s => bit s (A.tileCtrl t) 1 != v.getLsbD 1) (writeTileEn t (v.getLsbD 1)),
    writeHold t (v.getLsbD 0)]
  else if k = 0x28 then writeIf (decide (bits v 4 0 < 24)) (A.emlDly t) v
  else if k = 0x2C then Act.when (v.getLsbD 0) (startParkLoad t)
  else plainWrite (0x140000 + 0x40 * t + k) v

/-- EDL registers of lane n (Table CV-6). -/
def writeEdl (n k : Nat) (v : Word) : Act :=
  if k = 0 then .all [
    Act.when (v.getLsbD 7) (clearRegs [A.edlNancnt n, A.edlSatcnt n]),
    putBit (A.edlCtrl n) 0 (v.getLsbD 0), writeRangeSel n (v.getLsbD 1)]
  else plainWrite (A.edlCtrl n + k) v

/-- EML registers of lane n: its own bits, and those of its group (Tables CV-9, CV-10; log entry 51). -/
def writeEml (n k : Nat) (v : Word) : Act :=
  let t := n / 16
  if k = 0 then .all [
    .look fun s => wr (A.emlCtrl n) ((rd s (A.emlCtrl n) &&& ~~~0xF0FF#32) ||| (v &&& 0xF0FF#32)),
    Act.when (decide (n % 16 = 0)) (.all [
      setFld (grpCtrl t) 30 22 (bits v 30 22),
      .whenS (fun s => bit s (grpCtrl t) 20 != v.getLsbD 20) (writeConvEn t (v.getLsbD 20)),
      writeRefbuf t (v.getLsbD 19),
      .whenS (fun s => bit s (grpCtrl t) 21 != v.getLsbD 21) (writeLp t (v.getLsbD 21)),
      Act.when (v.getLsbD 31) (injStart t)])]
  else if k = 4 then .look fun s => wr (A.emlStat n) (rd s (A.emlStat n) &&& ~~~(v &&& if n % 16 = 0 then 0xFF#32 else 0x7#32))
  else plainWrite (A.emlCtrl n + k) v

/-- BCO registers of channel b: the budget admits the whole write or refuses it (R91). -/
def writeBco (b k : Nat) (v : Word) : Act :=
  if k = 0 then .look fun s =>
    let range := bit s (A.bcoCtrl b) 1 != v.getLsbD 1
    let ok := (!v.getLsbD 0 && !range) || budgetOk s b (v.getLsbD 0) (v.getLsbD 1, fld s (A.bcoTarget b) 15 0)
    bcoWrite b (fun _ => ok) (.all [
      plainWrite (A.bcoCtrl b) v,
      Act.when (range && bit s (A.bcoStat b) 30 != v.getLsbD 1) (updBco b fun x => { x with rchg := true })])
  else if k = 4 then bcoWrite b
    (fun s => budgetOk s b (bit s (A.bcoCtrl b) 0) (bit s (A.bcoCtrl b) 1, bits v 15 0)) (wrNat (A.bcoTarget b) (bits v 15 0))
  else plainWrite (A.bcoCtrl b + k) v

/-- CLU registers of cluster c, and ENG registers of its engines. -/
def writeCluster (c k : Nat) (v : Word) : Act :=
  if k < 0x2000 then
    if k = 0 then .all [
      Act.when (v.getLsbD 1) (clearRegs [A.ectUpdcnt c, A.tblEcccnt c]), Act.when (v.getLsbD 0) (reloadEct c)]
    else plainWrite (A.cluCtrl c + k) v
  else
    let e := 8 * c + (k - 0x2000) / 0x800
    let o := (k - 0x2000) % 0x800
    if o = 0 then .all [
      Act.when (v.getLsbD 1) (.all [clearRegs [A.engOvrcnt e, A.engEcccnt e], setFld (A.engCyc e) 31 16 0]),
      writeRun e (v.getLsbD 0)]
    else if o = 0x0C then writeSwap e (bits v 1 0)
    else if o = 0x10 then .all [Act.when (v.getLsbD 3) (writeSeed e), writeArm e (v.getLsbD 2) (bits v 1 0)]
    else plainWrite (A.engCtrl e + o) v

/-- ETH registers of port p, and of its MACs; `i` is the priority that PFC_SEL selects. -/
def writeEth (p k : Nat) (v : Word) (i : Nat) : Act :=
  if k < 0x100 then
    if k = 0 then .all [Act.when (v.getLsbD 7) (clearEthCounters p), writeEthCtrl p v] else plainWrite (A.ethCtrl p + k) v
  else
    let m := 8 * p + (k - 0x100) / 0x80
    let o := (k - 0x100) % 0x80
    if o = 0 then .all [Act.when (pfcTxOk (bits v 23 16)) (setFld (A.macCtrl m) 15 8 (bits v 15 8)), writePfcTx m (bits v 23 16)]
    else if o = 0x30 then writePfcHdrm m i (bits v 22 0)
    else if o = 0x34 then wrNat (A.pfcOf m i 1) (bits v 20 0)
    else if o = 0x38 then wrNat (A.pfcOf m i 2) (bits v 20 0)
    else plainWrite (A.macCtrl m + o) v

/-- MSEC registers of MAC k: clearing EN ends its secure channels (log entry 52). -/
def writeMsec (k o : Nat) (v : Word) : Act :=
  if o = 0 then .look fun s => .all [
    Act.when (v.getLsbD 4) (clearMsCounters k), plainWrite (A.msCtrl k) v,
    Act.when (bit s (A.msCtrl k) 0 && !v.getLsbD 0) (dropChannels k)]
  else if 0x20 ≤ o ∧ o < 0x40 then wr (A.msCtrl k + o) v
  else if o = 0x64 then Act.when (v.getLsbD 0) (cakInstall k)
  else plainWrite (A.msCtrl k + o) v

/-- PP_CTRL of port p: under G.8275.1 its interval fields take only the value -4 (Table TM-8). -/
def writePpCtrl (p : Nat) (v : Word) : Act := .all [
  .look fun s => plainWrite (A.ppCtrl p)
    (if ptpTelecom s && decide (bits v 15 8 ≠ 0xCC) then putBits v 15 8 (fld s (A.ppCtrl p) 15 8) else v),
  refreshPort p]

/-- A gate register: admin fields are refused while a change is pending, the operational list is never written (R278). -/
def writeGcl (r a : Nat) (v : Word) : Act := .look fun s =>
  let k := selFld s r A.gclSel 19 16
  if a = A.gclCtrl then .all [writeGateEn k (v.getLsbD 0), Act.when (v.getLsbD 1) (configChange k)]
  else if a = A.gclStat then Act.when (v.getLsbD 1) (clrBit (A.gateMacOf k 1) 1)
  else if A.gclCtrl < a then .done
  else if selFld s r A.gclSel 20 20 = 1 then .done
  else if bit s (A.gateMacOf k 0) 1 then setBit (A.gateMacOf k 1) 1
  else wr (gclKey s r a) (v &&& readMask a)

/-- TSH registers: the queue that Q_SEL selects (Table TT-12). -/
def writeTsh (r a : Nat) (v : Word) : Act := .look fun s =>
  let q := selFld s r A.qSel 10 0
  if a = A.tshCtrl then .all [Act.when (v.getLsbD 1) clearTshCounters, plainWrite a v]
  else if A.qCfg ≤ a ∧ a ≤ A.qBurst then wr (A.queueOf q ((a - A.qCfg) / 4)) (v &&& readMask a)
  else if a = A.qApply then Act.when (v.getLsbD 0) (queueApply q)
  else if a = A.histClr then clearHist q v
  else plainWrite a v

/-- POL registers: the policer that POL_SEL selects (Table TT-13). -/
def writePol (r a : Nat) (v : Word) : Act := .look fun s =>
  let n := selFld s r A.polSel 7 0
  if A.polCtrl ≤ a ∧ a ≤ A.polEpbs then .all [
    Act.when (decide (a = A.polCtrl) && v.getLsbD 0) (clearPolCounters n), wr (polKey s r a) (v &&& readMask a)]
  else if a = A.polApply then Act.when (v.getLsbD 0) (polApply n)
  else plainWrite a v

/-- KLK registers: global ones and those of lane n (Tables HD-12, HD-13). -/
def writeKlk (r a : Nat) (v : Word) : Act := .look fun s => match blockOf 0x360100 0x40 8 a with
  | some (n, 0) => .all [setFld (A.klkLctrl n) 2 0 (bits v 2 0), refreshBonds]
  | some _ => plainWrite a v
  | none =>
    let n := selFld s r A.klkTunSel 7 0
    if a = A.klkCtrl then .all [Act.when (v.getLsbD 1) clearKlkCounters, plainWrite a v]
    else if a = A.klkNhData then wr (A.nextHopOf (selFld s r A.klkNhSel 13 0)) (v &&& 0xC003FFFF#32)
    else if a = A.klkTunCtrl then wr (A.tunnelOf n 4) (v &&& 3#32)
    else if A.klkTunAddr 0 ≤ a ∧ a < A.klkTunCtrl then
      Act.when (!bit s (A.tunnelOf n 4) 0) (wr (A.tunnelOf n ((a - A.klkTunAddr 0) / 4)) v)
    else plainWrite a v

/-- HDL registers. -/
def writeHdl (a : Nat) (v : Word) : Act :=
  if a = A.hdlCtrl then .all [Act.when (v.getLsbD 1) clearHdlCounters, plainWrite a v]
  else if A.hdlG ≤ a ∧ a ≤ A.hdlMinlead then writeHdlParam ((a - A.hdlG) / 4) v.toNat
  else plainWrite a v

/-- A word of the MSI-X table: a vector that is unmasked while it is pending is sent (R374). -/
def writeMsix (i : Nat) (v : Word) : Act := .all [
  wr (A.msixTable i) v,
  .whenS (fun s => decide (i % 4 = 3) && !v.getLsbD 0 && bit s (A.msixPba (i / 4 / 32)) (i / 4 % 32)) (.all [
    clrBit (A.msixPba (i / 4 / 32)) (i / 4 % 32), raiseMsix (i / 4)])]

/-- CMD, PCI, TEN registers, doorbells and the MSI-X table. -/
def writeHostPort (r a : Nat) (v : Word) : Act := .look fun s =>
  if a = A.cmdCtrl then .all [Act.when (v.getLsbD 1) clearCmdCounters, writeAdminEn (v.getLsbD 0)]
  else if a = A.aqSize then writeIf (!bit s A.cmdCtrl 0) a v
  else if 0x401000 ≤ a ∧ a < 0x401000 + 8 * 65 then
    writeDoorbell ((a - 0x401000) / 8) (decide (a % 8 = 0)) (bits v 11 0)
  else if a = A.tenTagcap then Act.when (decide (1 ≤ bits v 11 0 ∧ bits v 11 0 ≤ 3968)) (wrNat (A.tenantOf (selFld s r A.tenSel 5 0) 2) (bits v 11 0))
  else if 0x404000 ≤ a ∧ a < 0x404000 + 16 * 66 then writeMsix ((a - 0x404000) / 4) v
  else plainWrite a v

/-- UMP registers: the source that UMP_SEL selects (Tables FT-9, FT-10). -/
def writeUmp (r a : Nat) (v : Word) : Act := .look fun s =>
  let n := selFld s r A.umpSel 8 0
  if A.umpSrc 0 ≤ a then
    let i := (a - A.umpSrc 0) / 4
    .all [
      Act.when (v.getLsbD 29) (setFld (A.umpSrc i) 15 0 0), Act.when (v.getLsbD 31) (clearFlag i), Act.when (v.getLsbD 30) (clearSevere i)]
  else if a = A.umpCtrl then .all [Act.when (v.getLsbD 0) clearCapture, Act.when (v.getLsbD 1) clearOccs]
  else if A.umpCfg ≤ a ∧ a ≤ A.umpWin then Act.when (decide (n < numSources))
    (wr (if a = A.umpCfg then A.umpCfgOf n else if a = A.umpThr then A.umpThrOf n else A.umpWinOf n) (v &&& readMask a))
  else if a = A.umpExt then .all [
    plainWrite a v, Act.upto 2 fun j => Act.when (!v.getLsbD j) (setLevel { src := 402 + j, addr := A.umpExt } false)]
  else plainWrite a v

/-- THM registers (Tables FT-11, FT-12). -/
def writeThm (r a : Nat) (v : Word) : Act := .look fun s => match blockOf 0x4100 0x10 36 a with
  | some (i, 4) => writeSctrl i v
  | some (i, 8) => writeThr i v
  | some _ => .done
  | none =>
    if a = A.thmCtrl then Act.when (v.getLsbD 0) (Act.upto 36 fun i => setFld (A.thmTemp i) 31 16 0x8000)
    else if A.thmNtcRnom ≤ a ∧ a ≤ A.thmNtcRbias then
      wr (A.ntcOf (selFld s r A.thmNtcSel 2 0) ((a - A.thmNtcRnom) / 4)) (v &&& readMask a)
    else plainWrite a v

/-- DBG registers; turning the trigger on arms it afresh and turning the trace on starts an empty buffer (DESIGN CHOICE, log entry 53). -/
def writeDbg (a : Nat) (v : Word) : Act := .look fun s => .all [
  plainWrite a v,
  Act.when (decide (a = A.dbgCtrl) && v.getLsbD 0 && !bit s A.dbgCtrl 0) (.all [updDbg fun _ => {}, wrNat A.dbgStat 0]),
  Act.when (decide (a = A.dbgCtrl) && v.getLsbD 2 && !bit s A.dbgCtrl 2) (.all [updDbg fun d => { d with left := none }, clrBit A.dbgStat 31])]

/-- Registers of the NVM and HBM blocks, of CLK and RST, and of ID and SEC. -/
def writeMisc (a : Nat) (v : Word) : Act :=
  if a = A.nvmCtrl then .all [Act.when (v.getLsbD 1) nvmCntClr, plainWrite a v]
  else if a = A.nvmPtCtrl then Act.when (v.getLsbD 0) writePtCommit
  else if a = A.hbmCtrl then .all [Act.when (v.getLsbD 1) hbmCntClr, plainWrite a v]
  else if a = A.hbmAper then writeIf (decide (bits v 3 0 < 12)) a v
  else if a = A.clkGate0 then Act.upto 32 fun d => writeGate d (v.getLsbD d)
  else if a = A.clkGate1 then Act.upto 28 fun d => writeGate (32 + d) (v.getLsbD d)
  else if a = A.rstSwrst then writeSwrst v
  else if a = A.secCtrl then Act.when (v.getLsbD 0) clearSecCounters
  else if a = A.idBadaddr then .all [plainWrite a v, Act.when (v.getLsbD 31) (clearRegs [A.idBadcnt])]
  else plainWrite a v

/-- What a write of the register at `a` by requester r does. -/
def regEffect (r a : Nat) (v : Word) : Act :=
  if isSel a then wr (selKey r a) (v &&& readMask a)
  else match blockOf 0x140000 0x40 12 a, blockOf 0x100000 0x20 192 a, blockOf 0x120000 0x20 192 a, blockOf 0x150000 0x20 24 a,
      blockOf 0x200000 0x10000 12 a, blockOf 0x300000 0x1000 2 a, blockOf 0x310000 0x100 16 a with
  | some (t, k), _, _, _, _, _, _ => writeTile t k v
  | _, some (n, k), _, _, _, _, _ => writeEdl n k v
  | _, _, some (n, k), _, _, _, _ => writeEml n k v
  | _, _, _, some (b, k), _, _, _ => writeBco b k v
  | _, _, _, _, some (c, k), _, _ => writeCluster c k v
  | _, _, _, _, _, some (p, k), _ => .look fun s => writeEth p k v (match macOfAddr a with
    | some (m, _) => selFld s r (A.pfcSel m) 2 0
    | none => 0)
  | _, _, _, _, _, _, some (k, o) => writeMsec k o v
  | _, _, _, _, _, _, _ =>
    if a = A.pilotDepth then writePilotDepth (bits v 7 0)
    else if a = A.ptpCtrl then .all [Act.when (v.getLsbD 7) clearPtpCounters, writePtpCtrl v]
    else if a = A.ptpDomain then .look fun s =>
      writeIf (if ptpTelecom s then decide (24 ≤ bits v 7 0 ∧ bits v 7 0 ≤ 43) else decide (bits v 7 0 ≤ 127)) a v
    else if a = A.ppCtrl 0 then writePpCtrl 0 v
    else if a = A.ppCtrl 1 then writePpCtrl 1 v
    else if A.gclGates ≤ a ∧ a ≤ A.gclLt then writeGcl r a v
    else if 0x330000 ≤ a ∧ a < 0x340000 then writeTsh r a v
    else if 0x340000 ≤ a ∧ a < 0x350000 then writePol r a v
    else if 0x360000 ≤ a ∧ a < 0x370000 then writeKlk r a v
    else if 0x370000 ≤ a ∧ a < 0x380000 then writeHdl a v
    else if 0x400000 ≤ a ∧ a < 0x410000 then writeHostPort r a v
    else if 0x5000 ≤ a ∧ a < 0x6000 then writeUmp r a v
    else if 0x4000 ≤ a ∧ a < 0x5000 then writeThm r a v
    else if 0xF00000 ≤ a then writeDbg a v
    else writeMisc a v

/-- A whole aligned 32-bit write by a requester. Unmapped space ignores it, and so do DBG registers unless JTAG is open; both are bad
accesses, in the safe state too (R377, R383, R384). -/
def regWrite (q : Requester) (a : Nat) (v : Word) : Act :=
  if !regMapped a then .all [traceAccess true a v (reqMaster q), badAccess true false a]
  else .look fun s =>
    if decide (0xF00000 ≤ a) && !s.sec.jtagOpen then .all [traceAccess true a (traceData a v) (reqMaster q), badAccess true false a]
    else writeBy (reqMaster q) a v (regEffect (reqIx q) a v)

/-! ## The commands -/

/-- What may reach the registers: the host outside POR and chip reset (R378), JTAG only while its port offers its full instruction set, the supervisors while they run. -/
def mayAccess (s : State) : Requester → Bool
  | .host => endpointUp s
  | .supervisors => supvRuns s
  | .jtag => jtagFull s

/-- REGISTER_WRITE: the word at index w of BAR0. -/
def execRegisterWrite (q : Requester) (w : Fin 16777216) (v : BitVec 32) (s : State) : Host.Outcome State Fault Refusal :=
  (Act.whenS (fun s => mayAccess s q) (regWrite q (4 * w) v)).next s

/-- DBG_WRITE: DBG register i (Table MP-4). -/
def execDbgWrite (q : Requester) (i : Fin 10) (v : BitVec 32) (s : State) : Host.Outcome State Fault Refusal :=
  (Act.whenS (fun s => mayAccess s q) (regWrite q (0xF00000 + 4 * i) v)).next s

/-- LO_WORD_READ_LATCH: a requester reads the word at index w of BAR0; a LO word latches the words above it. -/
def execLoWordReadLatch (q : Requester) (w : Fin 16777216) (s : State) : Host.Outcome State Fault Refusal :=
  (Act.whenS (fun s => mayAccess s q) (readWith q (4 * w) fun v => emit (.readData v))).next s

/-! ## Requests to the BARs (R4, R376) -/

/-- A request performs nothing: misaligned or too long in BAR0, or across a window's edge in BAR2. -/
def requestBad (bar2 : Bool) (ofs len : Nat) : Bool :=
  if bar2 then decide (bar2Window ofs ≠ bar2Window (ofs + len - 1)) || decide (4096 < len)
  else decide (8 < len) || (decide (ofs / 4 ≠ (ofs + len - 1) / 4) && !decide (len = 8 ∧ ofs % 8 = 0))

/-- Every word that a request touches is whole: aligned, and every byte enabled. -/
def wholeWords (ofs : Nat) (bs : List (Option Byte)) : Bool :=
  decide (ofs % 4 = 0 ∧ bs.length % 4 = 0) && bs.all (·.isSome)

/-- The words of a request of whole words, in ascending order, with their offsets. -/
def requestWords (ofs : Nat) (bs : List (Option Byte)) : List (Nat × Word) :=
  (List.range (bs.length / 4)).map fun i => (ofs + 4 * i, BitVec.ofNat 32 (leAt (bs.map (·.getD 0#8)) (4 * i) 4))

/-- Data that the trace has of a request that is performed as no register access: its first bytes (DESIGN CHOICE, log entry 137). -/
def requestData (write : Bool) (bs : List (Option Byte)) : Word :=
  if write then BitVec.ofNat 32 (leAt ((bs.map (·.getD 0#8)) ++ natLe 4 0) 0 4) else 0#32

/-- A BAR0 request of the host is refused: traced and recorded, a read answered with Completer Abort (R376, R383, R384). -/
def refuseBar0 (write : Bool) (ofs : Nat) (bs : List (Option Byte)) (abort : Bool) : Act := .all [
  traceAccess write ofs (traceData (ofs / 4 * 4) (requestData write bs)) 104, badAccess write false ofs, Act.when abort (emit .completerAbort)]

/-- A BAR0 read, word by word in ascending order: each is read whole, with its side effects, and answers the bytes enabled. -/
def readBar0 (ofs : Nat) (bs : List (Option Byte)) : Act :=
  Act.each ((List.range ((ofs + bs.length - 1) / 4 + 1 - ofs / 4)).map (ofs / 4 + ·)) fun w =>
    let on := (List.range 4).filter fun i => decide (ofs ≤ 4 * w + i) && (bs.getD (4 * w + i - ofs) none).isSome
    readWith .host (4 * w) fun v => emit (if on.length = 4 then .readData v else .readBytes (on.map fun i => v.extractLsb' (8 * i) 8))

/-- A word of the LSM, program or table window is written. -/
def writeBar2 (o : Nat) (v : Word) : Act :=
  let r := o % 0x10000
  match bar2Window o with
  | some 0 => Act.whenS (fun s => !bar2Hole o && domUp s (o / 0x80000))
    (writeLsmExternal (o / 0x10000) (r / 4 / 2048 * 16 + r / 4 % 16) (r / 4 / 16 % 128) v)
  | some 1 => Act.whenS (fun s => domUp s ((o - 0x1000000) / 0x80000))
    (writeBank ((o - 0x1000000) / 0x10000) (r / 0x8000) (r % 0x8000 / 8) (r / 4 % 2) v)
  | some 2 => Act.whenS (fun s => domUp s ((o - 0x2000000) / 0x100000)) (writeTable ((o - 0x2000000) / 0x100000) (o % 0x100000 / 4) v)
  | _ => .done

/-- BAD_ACCESS: a request of the host, of any length, alignment and byte enables; `bytes` has one entry for each byte, none where it is not enabled,
and a read takes no data from it. What R376, R377 or Table LE-4 makes bad is dropped and recorded, and a read of it answered with Completer Abort,
or with 0 from unmapped space; the rest is performed, an aligned 8-byte request as two 32-bit accesses in ascending order (R4). -/
def execBadAccess (write bar2 : Bool) (ofs : BitVec 32) (len : Fin 4097) (bytes : List (Option (BitVec 8))) (s : State) :
    Host.Outcome State Fault Refusal :=
  let o := ofs.toNat
  let n := max 1 len.val
  let bs := (List.range n).map fun i => bytes.getD i none
  (Act.whenS (fun s => endpointUp s && (bar2 || decide (o < 0x4000000))) (
    if requestBad bar2 o n then
      if bar2 then .all [badAccess write true o, Act.when (!write) (emit .completerAbort)] else refuseBar0 write o bs (!write)
    else if !bar2 then
      if !write then readBar0 o bs
      else if wholeWords o bs then Act.each (requestWords o bs) fun p => regWrite .host p.1 p.2
      else refuseBar0 true o bs false
    else if write && bar2Window o != some 3 && !wholeWords o bs then badAccess true true o
    else .all [
      Act.each (bar2BadIn o n).toList (badAccess write true),
      if write then (if bar2Window o = some 3 then Act.whenS (fun s => domUp s 40) (aperWrite (o - 0x80000000) bs)
        else Act.each (requestWords o bs) fun p => writeBar2 p.1 p.2)
      else .look fun s => .all [.upd .free .done,
        emit (.readBytes (((List.range n).filter fun i => (bs.getD i none).isSome).map fun i => bar2Byte s (o + i)))]])).next s

end Sys2Proof.Machine
end

