-- ==== Sys2Proof/Machine/CmdDiag.lean ====
section
/-!
DEFINITION. The DIAG commands (spec/09_command_set.md Table CS-14).
-/

namespace Sys2Proof.Machine

/-- ECHO: the payload returns. -/
def execEcho (tag : Fin 4096) (dma : Dma) (s : State) : Host.Outcome State Fault Refusal :=
  (runCmd { op := 0x0701, tenant := true, count := some (1, 8888), len := lenCount, maxLen := 8888, resp := fun e => e.length.toNat } tag dma
    fun _ l => complete tag St.success 0 0 l).next s

/-- An aligned BAR0 address. -/
def bar0Addr (v : Nat) : Nat := if v % 4 = 0 ∧ v < 0x4000000 then 0 else St.payloadInvalid

/-- The registers of a list are read in order as the host, and what follows has their values. -/
def readAll : List Nat → (List Byte → Act) → Act
  | [], go => go []
  | a :: r, go => readWith .host a fun v => readAll r fun l => go (natLe 4 v.toNat ++ l)

/-- REG_READ: one value for each address; a read has the effects of the host's. -/
def execRegRead (tag : Fin 4096) (dma : Dma) (s : State) : Host.Outcome State Fault Refusal :=
  (runCmd { op := 0x0702, count := some (1, 1024), len := lenTimes 4, maxLen := 4096, resp := lenTimes 4 } tag dma fun _ img =>
    let l := entriesOf 4 img
    checked tag bar0Addr l (readAll l fun d => complete tag St.success 0 0 d)).next s

/-- REG_WRITE: every entry in order, as a host write (Table CS-6). -/
def execRegWrite (tag : Fin 4096) (dma : Dma) (s : State) : Host.Outcome State Fault Refusal :=
  (runCmd { op := 0x0703, count := some (1, 1024), len := lenTimes 8, maxLen := 8192 } tag dma fun _ img =>
    let l := words64 img
    checked tag (fun v => bar0Addr (cut v 63 32)) l (.all [
      Act.each l fun v => regWrite .host (cut v 63 32) (BitVec.ofNat 32 v), complete tag St.success])).next s

/-- INJ_TRIGGER: a command trigger of a lane group (R84). -/
def execInjTrigger (tag : Fin 4096) (s : State) : Host.Outcome State Fault Refusal :=
  (runCmd { op := 0x0704, masks := [0xF], bad := paramIn 0 0 11 } tag (.bytes []) fun c _ => .all [
    injStart (bits c.entry.p0 3 0), complete tag St.success]).next s

/-- MEM_READ: RESP_LEN bytes, at most 1 MiB, from a BAR2 offset; bytes past BAR2's end read 0. A range that runs into space without memory is
one bad access, at the first byte there (log entry 126). -/
def execMemRead (tag : Fin 4096) (s : State) : Host.Outcome State Fault Refusal :=
  (runCmd { op := 0x0705, masks := [0xFFFFFFFF], bad := fun e => if e.p0.toNat % 4 = 0 then none else some 48 } tag (.bytes []) fun c _ =>
    .look fun s =>
      let o := c.entry.p0.toNat
      let n := min 1048576 c.entry.respLen.toNat
      .all [
        Act.each (bar2BadIn o n).toList (badAccess false true),
        .upd .free .done,
        complete tag St.success 0 0 ((List.range n).map fun i => bar2Byte s (o + i))]).next s

end Sys2Proof.Machine
end

