-- ==== Sys2Proof/Machine/Dispatch.lean ====
section
/-!
DEFINITION. One arm for each command: the one place where a constructor meets its meaning.
-/

namespace Sys2Proof.Machine

def exec (i : Instr) (s : State) : Host.Outcome State Fault Refusal :=
  match i with
  | .nop e => Sys2Proof.Machine.execGNop e s
  | .end_ e => Sys2Proof.Machine.execGEnd e s
  | .grp e => Sys2Proof.Machine.execGGrp e s
  | .gnext e => Sys2Proof.Machine.execGGnext e s
  | .br e c target => Sys2Proof.Machine.execGBr e c target s
  | .evt e m code => Sys2Proof.Machine.execGEvt e m code s
  | .rdsr e d sel => Sys2Proof.Machine.execGRdsr e d sel s
  | .fadd e m d a b => Sys2Proof.Machine.execGFadd e m d a b s
  | .fsub e m d a b => Sys2Proof.Machine.execGFsub e m d a b s
  | .fmul e m d a b => Sys2Proof.Machine.execGFmul e m d a b s
  | .fma e m d a b c => Sys2Proof.Machine.execGFma e m d a b c s
  | .fms e m d a b c => Sys2Proof.Machine.execGFms e m d a b c s
  | .fmin e m d a b => Sys2Proof.Machine.execGFmin e m d a b s
  | .fmax e m d a b => Sys2Proof.Machine.execGFmax e m d a b s
  | .fclamp e m d a b c => Sys2Proof.Machine.execGFclamp e m d a b c s
  | .fabs e m d a => Sys2Proof.Machine.execGFabs e m d a s
  | .fneg e m d a => Sys2Proof.Machine.execGFneg e m d a s
  | .frcp e m d a => Sys2Proof.Machine.execGFrcp e m d a s
  | .frsq e m d a => Sys2Proof.Machine.execGFrsq e m d a s
  | .vmov e m d a => Sys2Proof.Machine.execGVmov e m d a s
  | .vmovI e m d w => Sys2Proof.Machine.execGVmovI e m d w s
  | .vidx e m d => Sys2Proof.Machine.execGVidx e m d s
  | .fcmp e cc m d a b => Sys2Proof.Machine.execGFcmp e cc m d a b s
  | .fcmpI e cc m d a w => Sys2Proof.Machine.execGFcmpI e cc m d a w s
  | .sel e m d a b c => Sys2Proof.Machine.execGSel e m d a b c s
  | .pand e d a b => Sys2Proof.Machine.execGPand e d a b s
  | .por e d a b => Sys2Proof.Machine.execGPor e d a b s
  | .pxor e d a b => Sys2Proof.Machine.execGPxor e d a b s
  | .pandn e d a b => Sys2Proof.Machine.execGPandn e d a b s
  | .pset e d v => Sys2Proof.Machine.execGPset e d v s
  | .pmovs e d a => Sys2Proof.Machine.execGPmovs e d a s
  | .pmovp e d a => Sys2Proof.Machine.execGPmovp e d a s
  | .vbc e m d a => Sys2Proof.Machine.execGVbc e m d a s
  | .vext e d a lane => Sys2Proof.Machine.execGVext e d a lane s
  | .add e d a b => Sys2Proof.Machine.execGAdd e d a b s
  | .sub e d a b => Sys2Proof.Machine.execGSub e d a b s
  | .and_ e d a b => Sys2Proof.Machine.execGAnd e d a b s
  | .or_ e d a b => Sys2Proof.Machine.execGOr e d a b s
  | .xor_ e d a b => Sys2Proof.Machine.execGXor e d a b s
  | .shl e d a b => Sys2Proof.Machine.execGShl e d a b s
  | .shr e d a b => Sys2Proof.Machine.execGShr e d a b s
  | .sar e d a b => Sys2Proof.Machine.execGSar e d a b s
  | .mul e d a b => Sys2Proof.Machine.execGMul e d a b s
  | .slt e d a b => Sys2Proof.Machine.execGSlt e d a b s
  | .sltu e d a b => Sys2Proof.Machine.execGSltu e d a b s
  | .movi e d w => Sys2Proof.Machine.execGMovi e d w s
  | .ld e m d w => Sys2Proof.Machine.execGLd e m d w s
  | .st e m a w => Sys2Proof.Machine.execGSt e m a w s
  | .lds e d lane w => Sys2Proof.Machine.execGLds e d lane w s
  | .tld e d a ofs => Sys2Proof.Machine.execGTld e d a ofs s
  | .inMon e m d point volts fout => Sys2Proof.Machine.execGInMon e m d point volts fout s
  | .outDrv e m a => Sys2Proof.Machine.execGOutDrv e m a s
  | .tone e m f wa wp vf vamp vph => Sys2Proof.Machine.execGTone e m f wa wp vf vamp vph s
  | .lut e m d a => Sys2Proof.Machine.execGLut e m d a s
  | .laneFrameStart sub samples => Sys2Proof.Machine.execLaneFrameStart sub samples s
  | .engineFrameStart => Sys2Proof.Machine.execEngineFrameStart s
  | .engineOverrun e => Sys2Proof.Machine.execEngineOverrun e s
  | .instrFetchUe e n => Sys2Proof.Machine.execInstrFetchUe e n s
  | .seedDone e => Sys2Proof.Machine.execSeedDone e s
  | .ectElementUpdate n => Sys2Proof.Machine.execEctElementUpdate n s
  | .ectMirrorLoad c ok => Sys2Proof.Machine.execEctMirrorLoad c ok s
  | .uplinkFrame t frame => Sys2Proof.Machine.execUplinkFrame t frame s
  | .upLossDetect t => Sys2Proof.Machine.execUpLossDetect t s
  | .fabHoldRelease t => Sys2Proof.Machine.execFabHoldRelease t s
  | .emlDlySweep t dly => Sys2Proof.Machine.execEmlDlySweep t dly s
  | .parkStoreLoad t => Sys2Proof.Machine.execParkStoreLoad t s
  | .parkStoreCommitted t => Sys2Proof.Machine.execParkStoreCommitted t s
  | .hfltWordWrite n => Sys2Proof.Machine.execHfltWordWrite n s
  | .rangeSelWrite n v => Sys2Proof.Machine.execRangeSelWrite n v s
  | .rangeSwitch n => Sys2Proof.Machine.execRangeSwitch n s
  | .rchgSettleEnd n => Sys2Proof.Machine.execRchgSettleEnd n s
  | .rchgDone n => Sys2Proof.Machine.execRchgDone n s
  | .rchgTimeout n => Sys2Proof.Machine.execRchgTimeout n s
  | .forceParkWrite n v => Sys2Proof.Machine.execForceParkWrite n v s
  | .refbufEnWrite t v => Sys2Proof.Machine.execRefbufEnWrite t v s
  | .refbufReady t => Sys2Proof.Machine.execRefbufReady t s
  | .convEnWrite t v => Sys2Proof.Machine.execConvEnWrite t v s
  | .calSettled t => Sys2Proof.Machine.execCalSettled t s
  | .calFaultExit n j => Sys2Proof.Machine.execCalFaultExit n j s
  | .lpEnWrite t v => Sys2Proof.Machine.execLpEnWrite t v s
  | .lpResettleDone t => Sys2Proof.Machine.execLpResettleDone t s
  | .injGo t => Sys2Proof.Machine.execInjGo t s
  | .injTimeTrigger t => Sys2Proof.Machine.execInjTimeTrigger t s
  | .injDone t => Sys2Proof.Machine.execInjDone t s
  | .bcoTargetWrite b v => Sys2Proof.Machine.execBcoTargetWrite b v s
  | .bcoRangeSelWrite b v => Sys2Proof.Machine.execBcoRangeSelWrite b v s
  | .bcoEnWrite b v => Sys2Proof.Machine.execBcoEnWrite b v s
  | .bcoRampTick => Sys2Proof.Machine.execBcoRampTick s
  | .bcoComplDetect b imeas vmeas limit held => Sys2Proof.Machine.execBcoComplDetect b imeas vmeas limit held s
  | .pilotDepthWrite v => Sys2Proof.Machine.execPilotDepthWrite v s
  | .pilotAmplitudeRecompute p => Sys2Proof.Machine.execPilotAmplitudeRecompute p s
  | .engineRunWrite e v => Sys2Proof.Machine.execEngineRunWrite e v s
  | .engSwapWrite e m => Sys2Proof.Machine.execEngSwapWrite e m s
  | .seed e => Sys2Proof.Machine.execSeed e s
  | .spbankArmWrite e arm act => Sys2Proof.Machine.execSpbankArmWrite e arm act s
  | .lsmExternalWrite e k w v => Sys2Proof.Machine.execLsmExternalWrite e k w v s
  | .programBankWrite e b n h v => Sys2Proof.Machine.execProgramBankWrite e b n h v s
  | .ectReload c => Sys2Proof.Machine.execEctReload c s
  | .adaptiveGainUpdate => Sys2Proof.Machine.execAdaptiveGainUpdate s
  | .heaterOffload => Sys2Proof.Machine.execHeaterOffload s
  | .scoreboardUpdate => Sys2Proof.Machine.execScoreboardUpdate s
  | .fparkWrite t => Sys2Proof.Machine.execFparkWrite t s
  | .haltHoldLimit e => Sys2Proof.Machine.execHaltHoldLimit e s
  | .characterisationStep half => Sys2Proof.Machine.execCharacterisationStep half s
  | .characterisationRecord fit => Sys2Proof.Machine.execCharacterisationRecord fit s
  | .eventQueueDrain e => Sys2Proof.Machine.execEventQueueDrain e s
  | .batchClose => Sys2Proof.Machine.execBatchClose s
  | .solveDone answers => Sys2Proof.Machine.execSolveDone answers s
  | .routeTimeout => Sys2Proof.Machine.execRouteTimeout s
  | .stageCommit again => Sys2Proof.Machine.execStageCommit again s
  | .stagingDeadline => Sys2Proof.Machine.execStagingDeadline s
  | .transitStrobe => Sys2Proof.Machine.execTransitStrobe s
  | .settleResolved => Sys2Proof.Machine.execSettleResolved s
  | .settleDeadline => Sys2Proof.Machine.execSettleDeadline s
  | .lightStrobe => Sys2Proof.Machine.execLightStrobe s
  | .revertStage => Sys2Proof.Machine.execRevertStage s
  | .revertTransitStrobe => Sys2Proof.Machine.execRevertTransitStrobe s
  | .revertLightStrobe => Sys2Proof.Machine.execRevertLightStrobe s
  | .pendingLightRelease q => Sys2Proof.Machine.execPendingLightRelease q s
  | .lcWindowOpen q => Sys2Proof.Machine.execLcWindowOpen q s
  | .lcWindowClose q => Sys2Proof.Machine.execLcWindowClose q s
  | .lcEscalationDone q => Sys2Proof.Machine.execLcEscalationDone q s
  | .lcAudit => Sys2Proof.Machine.execLcAudit s
  | .connBarrierComplete => Sys2Proof.Machine.execConnBarrierComplete s
  | .helloSend n => Sys2Proof.Machine.execHelloSend n s
  | .helloReceive n domain addr cred rtt => Sys2Proof.Machine.execHelloReceive n domain addr cred rtt s
  | .helloTimeout n => Sys2Proof.Machine.execHelloTimeout n s
  | .fecLockLoss n => Sys2Proof.Machine.execFecLockLoss n s
  | .korotteFrameReceive n b cor unc => Sys2Proof.Machine.execKorotteFrameReceive n b cor unc s
  | .korotteFrameSend n => Sys2Proof.Machine.execKorotteFrameSend n s
  | .korotteRetryTimeout n => Sys2Proof.Machine.execKorotteRetryTimeout n s
  | .korotteUdpReceive k prio port fragment b => Sys2Proof.Machine.execKorotteUdpReceive k prio port fragment b s
  | .hdlPrepare h f => Sys2Proof.Machine.execPrepare h f s
  | .huddleVoteSend slot ans => Sys2Proof.Machine.execHuddleVoteSend slot ans s
  | .hdlVote h reason => Sys2Proof.Machine.execVote h reason s
  | .hdlDecide h commit => Sys2Proof.Machine.execDecide h commit s
  | .hdlAck h msg => Sys2Proof.Machine.execAck h msg s
  | .hdlOutcome h result status => Sys2Proof.Machine.execOutcome h result status s
  | .hdlFinal h => Sys2Proof.Machine.execFinal h s
  | .hdlReverted h tRev => Sys2Proof.Machine.execReverted h tRev s
  | .hdlRepair h tRev => Sys2Proof.Machine.execRepair h tRev s
  | .huddleResend group => Sys2Proof.Machine.execHuddleResend group s
  | .huddleVoteDeadline slot => Sys2Proof.Machine.execHuddleVoteDeadline slot s
  | .huddleDecideCheck slot => Sys2Proof.Machine.execHuddleDecideCheck slot s
  | .huddleNoFinalExpiry slot => Sys2Proof.Machine.execHuddleNoFinalExpiry slot s
  | .inDoubt slot => Sys2Proof.Machine.execInDoubt slot s
  | .huddleRevertAtTRev slot => Sys2Proof.Machine.execHuddleRevertAtTRev slot s
  | .sqDoorbell q v => Sys2Proof.Machine.execSqDoorbell q v s
  | .cqDoorbell q v => Sys2Proof.Machine.execCqDoorbell q v s
  | .commandFetch e => Sys2Proof.Machine.execCommandFetch e s
  | .completionPost => Sys2Proof.Machine.execCompletionPost s
  | .datagramReceive src f l => Sys2Proof.Machine.execDatagramReceive src f l s
  | .eventWaitComplete => Sys2Proof.Machine.execEventWaitComplete s
  | .queueDeleteDone q => Sys2Proof.Machine.execQueueDeleteDone q s
  | .pcieLinkLoss => Sys2Proof.Machine.execPcieLinkLoss s
  | .adminQueueEnable v => Sys2Proof.Machine.execAdminQueueEnable v s
  | .identify tag => Sys2Proof.Machine.execIdentify tag s
  | .queueCreate tag => Sys2Proof.Machine.execQueueCreate tag s
  | .queueDelete tag => Sys2Proof.Machine.execQueueDelete tag s
  | .bufWrite tag => Sys2Proof.Machine.execBufWrite tag s
  | .eventWait tag => Sys2Proof.Machine.execEventWait tag s
  | .eventLogRead tag => Sys2Proof.Machine.execEventLogRead tag s
  | .faultLogRead tag => Sys2Proof.Machine.execFaultLogRead tag s
  | .optionWrite tag dma => Sys2Proof.Machine.execOptionWrite tag dma s
  | .chipReset tag => Sys2Proof.Machine.execChipReset tag s
  | .parkTableWrite tag dma => Sys2Proof.Machine.execParkTableWrite tag dma s
  | .topologyLoad tag dma => Sys2Proof.Machine.execTopologyLoad tag dma s
  | .topologyRead tag => Sys2Proof.Machine.execTopologyRead tag s
  | .connChange tag dma => Sys2Proof.Machine.execConnChange tag dma s
  | .mapReplace tag dma => Sys2Proof.Machine.execMapReplace tag dma s
  | .mapStore tag dma => Sys2Proof.Machine.execMapStore tag dma s
  | .mapRecall tag => Sys2Proof.Machine.execMapRecall tag s
  | .mapRead tag => Sys2Proof.Machine.execMapRead tag s
  | .lcRelease tag dma => Sys2Proof.Machine.execLcRelease tag dma s
  | .paramSet tag dma => Sys2Proof.Machine.execParamSet tag dma s
  | .paramGet tag => Sys2Proof.Machine.execParamGet tag s
  | .calPathSet tag => Sys2Proof.Machine.execCalPathSet tag s
  | .progLoad tag dma => Sys2Proof.Machine.execProgLoad tag dma s
  | .progLoadRom tag => Sys2Proof.Machine.execProgLoadRom tag s
  | .engineCtrl tag dma => Sys2Proof.Machine.execEngineCtrl tag dma s
  | .elemMode tag dma => Sys2Proof.Machine.execElemMode tag dma s
  | .coefWrite tag dma => Sys2Proof.Machine.execCoefWrite tag dma s
  | .elemParam tag dma => Sys2Proof.Machine.execElemParam tag dma s
  | .elemResume tag dma => Sys2Proof.Machine.execElemResume tag dma s
  | .elemRead tag dma => Sys2Proof.Machine.execElemRead tag dma s
  | .calRequest tag dma => Sys2Proof.Machine.execCalRequest tag dma s
  | .ectWrite tag dma => Sys2Proof.Machine.execEctWrite tag dma s
  | .ectRead tag dma => Sys2Proof.Machine.execEctRead tag dma s
  | .progVerify tag => Sys2Proof.Machine.execProgVerify tag s
  | .portAssign tag dma => Sys2Proof.Machine.execPortAssign tag dma s
  | .rightsSet tag dma => Sys2Proof.Machine.execRightsSet tag dma s
  | .sourceBind tag dma => Sys2Proof.Machine.execSourceBind tag dma s
  | .tenantRead tag => Sys2Proof.Machine.execTenantRead tag s
  | .timeRead tag => Sys2Proof.Machine.execTimeRead tag s
  | .timeTrigger tag dma => Sys2Proof.Machine.execTimeTrigger tag dma s
  | .timeAsym tag => Sys2Proof.Machine.execTimeAsym tag s
  | .subCreate tag dma => Sys2Proof.Machine.execSubCreate tag dma s
  | .subDelete tag dma => Sys2Proof.Machine.execSubDelete tag dma s
  | .subRead tag => Sys2Proof.Machine.execSubRead tag s
  | .replayFreeze tag => Sys2Proof.Machine.execReplayFreeze tag s
  | .replayRead tag => Sys2Proof.Machine.execReplayRead tag s
  | .replayRelease tag => Sys2Proof.Machine.execReplayRelease tag s
  | .echo tag dma => Sys2Proof.Machine.execEcho tag dma s
  | .regRead tag dma => Sys2Proof.Machine.execRegRead tag dma s
  | .regWrite tag dma => Sys2Proof.Machine.execRegWrite tag dma s
  | .injTrigger tag => Sys2Proof.Machine.execInjTrigger tag s
  | .memRead tag => Sys2Proof.Machine.execMemRead tag s
  | .huddleCommit tag dma => Sys2Proof.Machine.execHuddleCommit tag dma s
  | .huddleResolve tag => Sys2Proof.Machine.execHuddleResolve tag s
  | .huddleStatus tag => Sys2Proof.Machine.execHuddleStatus tag s
  | .attest tag dma => Sys2Proof.Machine.execAttest tag dma s
  | .patchLoad tag dma => Sys2Proof.Machine.execPatchLoad tag dma s
  | .keyEnrol tag dma => Sys2Proof.Machine.execKeyEnrol tag dma s
  | .enforceSet tag dma => Sys2Proof.Machine.execEnforceSet tag dma s
  | .jtagChallenge tag => Sys2Proof.Machine.execJtagChallenge tag s
  | .jtagUnlock tag dma => Sys2Proof.Machine.execJtagUnlock tag dma s
  | .ptpSyncReceive h b v => Sys2Proof.Machine.execPtpSyncReceive h b v s
  | .ptpDelayRespReceive h b => Sys2Proof.Machine.execPtpDelayRespReceive h b s
  | .ptpAnnounceReceive h g => Sys2Proof.Machine.execPtpAnnounceReceive h g s
  | .ptpPdelayReqReceive h turn => Sys2Proof.Machine.execPtpPdelayReqReceive h turn s
  | .ptpDelayReqSend p sub => Sys2Proof.Machine.execPtpDelayReqSend p sub s
  | .ptpReceiptTimeout p => Sys2Proof.Machine.execPtpReceiptTimeout p s
  | .pathHoldTimeout => Sys2Proof.Machine.execPathHoldTimeout s
  | .holdoverSyncExpiry => Sys2Proof.Machine.execHoldoverSyncExpiry s
  | .tickReanchor => Sys2Proof.Machine.execTickReanchor s
  | .ppsOutPulse => Sys2Proof.Machine.execPpsOutPulse s
  | .ppsInEdge sub => Sys2Proof.Machine.execPpsInEdge sub s
  | .ppsInMiss => Sys2Proof.Machine.execPpsInMiss s
  | .gateTransition k => Sys2Proof.Machine.execGateTransition k s
  | .gclConfigChange k => Sys2Proof.Machine.execGclConfigChange k s
  | .gclConfigChangeTime k => Sys2Proof.Machine.execGclConfigChangeTime k s
  | .ethFrameReceive k f => Sys2Proof.Machine.execEthFrameReceive k f s
  | .arpRequest k sender target => Sys2Proof.Machine.execArpRequest k sender target s
  | .neighborSolicitation k sender target => Sys2Proof.Machine.execNeighborSolicitation k sender target s
  | .mkaFrame k r => Sys2Proof.Machine.execMkaFrame k r s
  | .pfcFrameReceive k enable quanta => Sys2Proof.Machine.execPfcFrameReceive k enable quanta s
  | .pfcPauseExpiry k n => Sys2Proof.Machine.execPfcPauseExpiry k n s
  | .pfcXoffRepeat k n => Sys2Proof.Machine.execPfcXoffRepeat k n s
  | .macFrameStart k => Sys2Proof.Machine.execMacFrameStart k s
  | .telemetryRecord id missed => Sys2Proof.Machine.execTelemetryRecord id missed s
  | .histSample => Sys2Proof.Machine.execHistSample s
  | .replayPostDone => Sys2Proof.Machine.execReplayPostDone s
  | .hbmTrainingDone ok channels temp => Sys2Proof.Machine.execHbmTrainingDone ok channels temp s
  | .hbmScrubPatrol line ch found last => Sys2Proof.Machine.execHbmScrubPatrol line ch found last s
  | .hbmUe line ch pkt => Sys2Proof.Machine.execHbmUe line ch pkt s
  | .sramPatrol a found => Sys2Proof.Machine.execSramPatrol a found s
  | .nvmScrubPatrol w found => Sys2Proof.Machine.execNvmScrubPatrol w found s
  | .nvmTxnStep => Sys2Proof.Machine.execNvmTxnStep s
  | .nvmRecoveryScan => Sys2Proof.Machine.execNvmRecoveryScan s
  | .optionLoad => Sys2Proof.Machine.execOptionLoad s
  | .parkTableCommitWrite => Sys2Proof.Machine.execParkTableCommitWrite s
  | .parkTableApply => Sys2Proof.Machine.execParkTableApply s
  | .parkVRewrite n => Sys2Proof.Machine.execParkVRewrite n s
  | .clockGoodQualify c => Sys2Proof.Machine.execClockGoodQualify c s
  | .clockGoodLoss c => Sys2Proof.Machine.execClockGoodLoss c s
  | .domainRequalify d => Sys2Proof.Machine.execDomainRequalify d s
  | .fifoResync d n lost => Sys2Proof.Machine.execFifoResync d n lost s
  | .clkGateWrite d v => Sys2Proof.Machine.execClkGateWrite d v s
  | .domainWake d => Sys2Proof.Machine.execDomainWake d s
  | .powerOnReset fell latch => Sys2Proof.Machine.execPowerOnReset fell latch s
  | .porEnd gpio => Sys2Proof.Machine.execPorEnd gpio s
  | .resetNAssert => Sys2Proof.Machine.execResetNAssert s
  | .watchdogExpiry => Sys2Proof.Machine.execWatchdogExpiry s
  | .rstSwrstWrite v => Sys2Proof.Machine.execRstSwrstWrite v s
  | .jtagChiprst => Sys2Proof.Machine.execJtagChiprst s
  | .jtagReset => Sys2Proof.Machine.execJtagReset s
  | .chipResetEntry => Sys2Proof.Machine.execChipResetEntry s
  | .resetRelease => Sys2Proof.Machine.execResetRelease s
  | .parkTableRead => Sys2Proof.Machine.execParkTableRead s
  | .bootRomDone => Sys2Proof.Machine.execBootRomDone s
  | .autostart => Sys2Proof.Machine.execAutostart s
  | .umpireEvent o => Sys2Proof.Machine.execUmpireEvent o s
  | .umpParityScan bad => Sys2Proof.Machine.execUmpParityScan bad s
  | .faultLogWrite => Sys2Proof.Machine.execFaultLogWrite s
  | .extFaultInput n => Sys2Proof.Machine.execExtFaultInput n s
  | .sensorReading n c => Sys2Proof.Machine.execSensorReading n c s
  | .smbDeviceId => Sys2Proof.Machine.execSmbDeviceId s
  | .smbStatusRead => Sys2Proof.Machine.execSmbStatus s
  | .smbHottest => Sys2Proof.Machine.execSmbHottest s
  | .smbHottestSensor => Sys2Proof.Machine.execSmbHottestSensor s
  | .smbTripReading => Sys2Proof.Machine.execSmbTripReading s
  | .smbTripSensor => Sys2Proof.Machine.execSmbTripSensor s
  | .smbRstCause => Sys2Proof.Machine.execSmbRstCause s
  | .smbSensorReading n => Sys2Proof.Machine.execSmbSensorReading n s
  | .smbBlockRead => Sys2Proof.Machine.execSmbBlockRead s
  | .smbRefused code write => Sys2Proof.Machine.execSmbRefused code write s
  | .tileHoldWrite t v => Sys2Proof.Machine.execTileHoldWrite t v s
  | .tileEnWrite t v => Sys2Proof.Machine.execTileEnWrite t v s
  | .parkStoreReload t => Sys2Proof.Machine.execParkStoreReload t s
  | .nextHopWrite v => Sys2Proof.Machine.execNextHopWrite v s
  | .klkLaneEnWrite n en bond => Sys2Proof.Machine.execKlkLaneEnWrite n en bond s
  | .hdlParamWrite n v => Sys2Proof.Machine.execHdlParamWrite n v s
  | .pfcTxWrite k mask => Sys2Proof.Machine.execPfcTxWrite k mask s
  | .pfcHdrmWrite k v => Sys2Proof.Machine.execPfcHdrmWrite k v s
  | .qApply => Sys2Proof.Machine.execQApply s
  | .histClr all => Sys2Proof.Machine.execHistClr all s
  | .polApply => Sys2Proof.Machine.execPolApply s
  | .cakInstall k => Sys2Proof.Machine.execCakInstall k s
  | .hbmApertureWrite offset v => Sys2Proof.Machine.execHbmApertureWrite offset v s
  | .umpFeClr => Sys2Proof.Machine.execUmpFeClr s
  | .umpCntClr => Sys2Proof.Machine.execUmpCntClr s
  | .umpSrcCntClr n => Sys2Proof.Machine.execUmpSrcCntClr n s
  | .umpFlagClear n => Sys2Proof.Machine.execUmpFlagClear n s
  | .umpSevereClear n => Sys2Proof.Machine.execUmpSevereClear n s
  | .thmMaxClr => Sys2Proof.Machine.execThmMaxClr s
  | .thmSctrlWrite n v => Sys2Proof.Machine.execThmSctrlWrite n v s
  | .thmThrWrite n v => Sys2Proof.Machine.execThmThrWrite n v s
  | .dbgWrite q n v => Sys2Proof.Machine.execDbgWrite q n v s
  | .tileCntClr t => Sys2Proof.Machine.execTileCntClr t s
  | .edlCntClr n => Sys2Proof.Machine.execEdlCntClr n s
  | .engCntClr e => Sys2Proof.Machine.execEngCntClr e s
  | .cluCntClr c => Sys2Proof.Machine.execCluCntClr c s
  | .klkCntClr => Sys2Proof.Machine.execKlkCntClr s
  | .hdlCntClr => Sys2Proof.Machine.execHdlCntClr s
  | .cmdCntClr => Sys2Proof.Machine.execCmdCntClr s
  | .ptpCntClr => Sys2Proof.Machine.execPtpCntClr s
  | .ethCntClr p => Sys2Proof.Machine.execEthCntClr p s
  | .msCntClr k => Sys2Proof.Machine.execMsCntClr k s
  | .tshCntClr => Sys2Proof.Machine.execTshCntClr s
  | .polCntClr => Sys2Proof.Machine.execPolCntClr s
  | .hbmCntClr => Sys2Proof.Machine.execHbmCntClr s
  | .nvmCntClr => Sys2Proof.Machine.execNvmCntClr s
  | .secCntClr => Sys2Proof.Machine.execSecCntClr s
  | .loWordReadLatch q w => Sys2Proof.Machine.execLoWordReadLatch q w s
  | .badAccess write bar2 ofs len bytes => Sys2Proof.Machine.execBadAccess write bar2 ofs len bytes s
  | .registerWrite q w v => Sys2Proof.Machine.execRegisterWrite q w v s
  | .clusterTableWrite c w v => Sys2Proof.Machine.execClusterTableWrite c w v s
  | .ppsOutPulseEnd => Sys2Proof.Machine.execPpsOutPulseEnd s
  | .extInputRelease n => Sys2Proof.Machine.execExtInputRelease n s
  | .ethLinkUp p lanes => Sys2Proof.Machine.execEthLinkUp p lanes s
  | .ethLinkDown p lanes => Sys2Proof.Machine.execEthLinkDown p lanes s
  | .pcieLinkUp width speed => Sys2Proof.Machine.execPcieLinkUp width speed s
  | .pcieAerError uncorrectable => Sys2Proof.Machine.execPcieAerError uncorrectable s
  | .mkaPeerLost k last => Sys2Proof.Machine.execMkaPeerLost k last s

end Sys2Proof.Machine
end

