-- ==== Sys2Proof/Machine/Idle.lean ====
section
/-!
DEFINITION. What the device does on its own while no command waits: its clocks count.
-/

namespace Sys2Proof.Machine

/-- One cycle of the 768 MHz time base. TICK advances while the TIME domain runs, and wraps after 2^48 ticks
(spec/10_network_time.md R258). The device's own time base counts on through resets. DESIGN CHOICE (log entry 54): a step on an empty
queue is such a cycle, and every other effect of time is a command. -/
def idle : Act := .all [
  updClk fun c => { c with mono := c.mono + 1 },
  .whenS (fun s => domRuns s 39) (updTim fun t => { t with tick := (t.tick + 1) % 2 ^ 48 })]

end Sys2Proof.Machine
end

