-- ==== Sys2Proof/Machine/Pins.lean ====
section
/-!
DEFINITION. The balls as the state shows them: what the device drives on each in every phase (spec/13_clocks_reset.md R339, Table CK-7;
spec/10_network_time.md R275; spec/14_faults_thermal.md R344). A view only: no command reads it.
-/

namespace Sys2Proof.Machine

/-- What the device does at a digital ball; `released` leaves it to its pull resistor or to the tile's. -/
inductive Ball where
  | released
  | low
  | high
deriving DecidableEq, Repr

/-- The ball driven to a level. -/
def Ball.level (b : Bool) : Ball := if b then .high else .low

/-- FAB_HOLD[t]: released before step 4, then driven, high until the tile's release. -/
def ballFabHold (s : State) (t : Nat) : Ball :=
  if (tileLink s t).driven then .level (bit s (A.tileStat t) tsHoldOut) else .released

/-- FAULT_N: driven by the Umpire from step 2 of bring-up, low while R344 asserts it. -/
def ballFault (s : State) : Ball := if domInReset s 42 then .released else .level (!faultN s)

/-- THERMTRIP_N: low while a trip is latched; otherwise released until AON drives it from step 1. -/
def ballThermtrip (s : State) : Ball :=
  if s.thm.tripped then .low else if 1 ≤ fld s A.rstPhase 2 0 then .high else .released

/-- PPS_OUT: its pull-down until AON runs, low until the TIME domain leaves reset, then R275. -/
def ballPps (s : State) : Ball :=
  if s.clk.por || !s.clk.aon then .released else if domInReset s 39 then .low else .level s.tim.ppsHigh

/-- TIME_CLK_OUT while it does not run: as PPS_OUT before TIME leaves reset. -/
def ballTimeClk (s : State) : Ball := if s.clk.por || !s.clk.aon then .released else .low

/-- TIME_CLK_OUT runs: the TIME domain runs and CLK_EN is set. -/
def timeClkRuns (s : State) : Bool := domRuns s 39 && bit s A.ppsCtrl 31

/-- The code at ball pair EDL n in a slot of the frame, none while it is high-impedance (Table CV-4). -/
def ballEdl (s : State) (n slot : Nat) : Option (BitVec 16) :=
  if bit s (A.edlStat n) 0 && domRuns s (15 + n / 16) then (laneSamples s n)[slot]? else none

/-- LCLK_P/N and FCL_D0/D1_P/N of tile t run: from step 4 on, where the tile is present and enabled; they are high-impedance otherwise. -/
def ballLclk (s : State) (t : Nat) : Bool := lclkRuns s t

/-- EML_A/B_P/N and FCL_U_P/N are inputs of high impedance in every phase; from step 4 on the device takes what they carry. -/
def ballEmlTaken (s : State) (t : Nat) : Bool := decide (4 ≤ fld s A.rstPhase 2 0) && domRuns s (27 + t)

/-- GPIO[15:0] are inputs with a pull-up: the spec gives software no register that drives one. -/
def ballGpio : Ball := .released

/-- SMB_SCL and SMB_SDA are open-drain; the target answers on them from step 1 on (R359). -/
def smbServed (s : State) : Bool := s.clk.aon && !s.clk.por

/-- TDO outside a shift. -/
def ballTdo : Ball := .released

/-- The transmit pairs of Ethernet port p are out of electrical idle: the port is enabled and its transmit domain runs. -/
def ethTxActive (s : State) (p : Nat) : Bool := bit s (A.ethCtrl p) 0 && domRuns s (44 + 2 * p)
/-- Those of Korotte lane n: the lane is enabled and the transmit domain runs. -/
def klkTxActive (s : State) (n : Nat) : Bool := bit s (A.klkLctrl n) 0 && domRuns s 56
/-- Those of PCIe: the link trains from step 3 of bring-up on, once the SerDes PLL is good. -/
def pcieTxActive (s : State) : Bool := bit s A.optStat 31 && domRuns s 57

/-- Range (true is 150 mA) and code of the current at BCO b, none while it is off (Table CV-4). -/
def ballBco (s : State) (b : Nat) : Option (Bool × Nat) :=
  if bcoDead s || fld s (A.bcoOut b) 15 0 = 0 then none else some (bit s (A.bcoStat b) 30, fld s (A.bcoOut b) 15 0)

end Sys2Proof.Machine
end

