-- ==== Sys2Proof/Safety.lean ====
section
/-!
DEFINITION. What counts as a sound state of the device, in the terms that the claims use.
-/

namespace Sys2Proof.Machine

/-- The memories and the register file are in canonical form: rising keys, and no entry that holds what an unlisted one reads as. -/
def StoresOk (s : State) : Prop :=
  swf regReset s.regs = true ∧ Memory.wf memBlank s.mem = true ∧ Memory.wf blank s.hbm = true ∧ Memory.wf mramBlank s.mram = true

end Sys2Proof.Machine
end

