-- ==== Sys2Proof/Certificates/Slice0/Obligations.lean ====
section
/-!
DEFINITION. The statements for the provers.
-/

namespace Sys2Proof.Machine

/-- The command completes from `s`, in a state of which `post` holds. -/
def Completes (c : Instr) (s : State) (post : State → Prop) : Prop := ∃ t, exec c s = .next t ∧ post t

end Sys2Proof.Machine

section

open Sys2Proof Sys2Proof.Machine

namespace Sys2Proof.Machine

/-- Engine e has issued an instruction of this cost: the next index, its cycles, and nothing else of any engine's sequencing. -/
def Issued (e : Fin 96) (cost : Nat) (s t : State) : Prop := ∀ x,
  engOf t x = if x = e.val then { engOf s e with pc := (engOf s e).pc + 1, cycle := (engOf s e).cycle + cost } else engOf s x

/-- The instruction wrote S register d of engine e, and nothing else but the engine's index and cycle. -/
def ScalarSet (e : Fin 96) (d : Fin 32) (v : Word) (s t : State) : Prop :=
  Issued e 1 s t ∧
  (∀ (x : Fin 96) (r : Fin 32), sreg t x r = if x = e ∧ r = d then v else sreg s x r) ∧
  t = { s with eng := { s.eng with sregs := t.eng.sregs, engs := t.eng.engs } }

/-- The instruction wrote P register d of engine e, and nothing else but the engine's index and cycle. -/
def PredSet (e : Fin 96) (d : Fin 8) (v : BitVec 16) (s t : State) : Prop :=
  Issued e 1 s t ∧
  (∀ (x : Fin 96) (r : Fin 8), preg t x r = if x = e ∧ r = d then v else preg s x r) ∧
  t = { s with eng := { s.eng with pregs := t.eng.pregs, engs := t.eng.engs } }

/-- Lanes of V register d of engine e under the mask m hold f, every other lane and register what it held. -/
def LanesSet (e : Fin 96) (m : Mask) (d : Fin 32) (f : Fin 16 → Word) (s t : State) : Prop :=
  ∀ (x : Fin 96) (r : Fin 32) (l : Fin 16),
    vreg t x r l = if x = e ∧ r = d ∧ (maskOf s e m).getLsbD l then f l else vreg s x r l

/-- The instruction copied patterns into lanes: nothing else changes but the engine's index and cycle. -/
def VectorCopied (e : Fin 96) (m : Mask) (d : Fin 32) (f : Fin 16 → Word) (s t : State) : Prop :=
  Issued e 1 s t ∧ LanesSet e m d f s t ∧
  t = { s with eng := { s.eng with vregs := t.eng.vregs, engs := t.eng.engs } }

/-- NaN results in enabled lanes set sticky bits, and ENG_EVT.NAN where one was 0; no other register changes. -/
def StickySet (e : Fin 96) (m : Mask) (f : Fin 16 → Word) (s t : State) : Prop :=
  (∀ l : Fin 16, bit t (A.engNanstk e) l = (bit s (A.engNanstk e) l || ((maskOf s e m).getLsbD l && Fp.isNan (f l)))) ∧
  (bit t (A.engEvt e) 1 = true ↔ bit s (A.engEvt e) 1 = true ∨
    ∃ l : Fin 16, (maskOf s e m).getLsbD l = true ∧ Fp.isNan (f l) = true ∧ bit s (A.engNanstk e) l = false) ∧
  (∀ i, i ≠ 1 → bit t (A.engEvt e) i = bit s (A.engEvt e) i) ∧
  ∀ a, a ≠ A.engNanstk e → a ≠ A.engEvt e → rd t a = rd s a

/-- The instruction computed into lanes: nothing else changes but the sticky bits and the engine's index and cycle. -/
def VectorComputed (e : Fin 96) (m : Mask) (d : Fin 32) (f : Fin 16 → Word) (s t : State) : Prop :=
  Issued e 1 s t ∧ LanesSet e m d f s t ∧ StickySet e m f s t ∧
  t = { s with regs := t.regs, eng := { s.eng with vregs := t.eng.vregs, engs := t.eng.engs } }

end Sys2Proof.Machine

/-! ## Engines: Gloit instructions -/

/-- A running engine's scalar instruction gives Sd the value of Table GI-4, or RDSR the value of Table GI-6, and changes nothing else (R130, R132).
Log entry 11 holds a choice of the model that it rests on. -/
def Obligations.ScalarInstructionsSetOneRegister : Prop :=
  ∀ (s : State) (e : Fin 96) (d a : Fin 32) (b : SSrc) (n : ShSrc) (w : BitVec 32) (sel : SpecReg),
    issues s e = true →
    Completes (.add e d a b) s (ScalarSet e d (sreg s e a + ssrc s e b) s) ∧
    Completes (.sub e d a b) s (ScalarSet e d (sreg s e a - ssrc s e b) s) ∧
    Completes (.and_ e d a b) s (ScalarSet e d (sreg s e a &&& ssrc s e b) s) ∧
    Completes (.or_ e d a b) s (ScalarSet e d (sreg s e a ||| ssrc s e b) s) ∧
    Completes (.xor_ e d a b) s (ScalarSet e d (sreg s e a ^^^ ssrc s e b) s) ∧
    Completes (.shl e d a n) s (ScalarSet e d (sreg s e a <<< shsrc s e n) s) ∧
    Completes (.shr e d a n) s (ScalarSet e d (sreg s e a >>> shsrc s e n) s) ∧
    Completes (.sar e d a n) s (ScalarSet e d ((sreg s e a).sshiftRight (shsrc s e n)) s) ∧
    Completes (.mul e d a b) s (ScalarSet e d (sreg s e a * ssrc s e b) s) ∧
    Completes (.slt e d a b) s (ScalarSet e d (if (sreg s e a).toInt < (ssrc s e b).toInt then 1#32 else 0#32) s) ∧
    Completes (.sltu e d a b) s (ScalarSet e d (if (sreg s e a).toNat < (ssrc s e b).toNat then 1#32 else 0#32) s) ∧
    Completes (.movi e d w) s (ScalarSet e d w s) ∧
    Completes (.rdsr e d sel) s (ScalarSet e d (specReg s e sel) s)

/-- The predicate instructions act on whole masks, FCMP on its enabled lanes; VMOV, SEL and VBC copy patterns into the enabled lanes of Vd, PMOVS and
VEXT into Sd; no sticky bit is set and nothing else changes (R122, R125, R128, R129, R131).
Log entry 11 holds a choice of the model that it rests on. -/
def Obligations.PredicatesAndCopiesSetTheirLanes : Prop :=
  (
  ∀ (s : State) (e : Fin 96) (d a b : Fin 8) (v : BitVec 16) (x y : Fin 32) (m : Mask) (cc : Cmp) (w : Word),
    issues s e = true →
    Completes (.pand e d a b) s (PredSet e d (preg s e a &&& preg s e b) s) ∧
    Completes (.por e d a b) s (PredSet e d (preg s e a ||| preg s e b) s) ∧
    Completes (.pxor e d a b) s (PredSet e d (preg s e a ^^^ preg s e b) s) ∧
    Completes (.pandn e d a b) s (PredSet e d (preg s e a &&& ~~~(preg s e b)) s) ∧
    Completes (.pset e d v) s (PredSet e d v s) ∧
    Completes (.pmovp e d x) s (PredSet e d ((sreg s e x).truncate 16) s) ∧
    (∃ v : BitVec 16, Completes (.fcmp e cc m d x y) s (PredSet e d v s) ∧ ∀ l : Fin 16, v.getLsbD l =
      if (maskOf s e m).getLsbD l then cmpHolds cc (vreg s e x l) (vreg s e y l) else (preg s e d).getLsbD l) ∧
    (∃ v : BitVec 16, Completes (.fcmpI e cc m d x w) s (PredSet e d v s) ∧ ∀ l : Fin 16, v.getLsbD l =
      if (maskOf s e m).getLsbD l then cmpHolds cc (vreg s e x l) w else (preg s e d).getLsbD l)) ∧
  (
  ∀ (s : State) (e : Fin 96) (m : Mask) (d a b : Fin 32) (c : Fin 8) (w : Word) (l : Fin 16), issues s e = true →
    Completes (.vmov e m d a) s (VectorCopied e m d (fun l => vreg s e a l) s) ∧
    Completes (.vmovI e m d w) s (VectorCopied e m d (fun _ => w) s) ∧
    Completes (.sel e m d a b c) s
      (VectorCopied e m d (fun l => if (preg s e c).getLsbD l then vreg s e a l else vreg s e b l) s) ∧
    Completes (.vbc e m d a) s (VectorCopied e m d (fun _ => sreg s e a) s) ∧
    Completes (.pmovs e d c) s (ScalarSet e d ((preg s e c).zeroExtend 32) s) ∧
    Completes (.vext e d a l) s (ScalarSet e d (vreg s e a l) s))

/-- The floating-point instructions compute in the enabled lanes alone; NaN results set sticky bits there, and nothing else changes
(R122, R124, R126, R127).
Log entries 11 and 90 hold choices of the model that it rests on. -/
def Obligations.ArithmeticComputesEnabledLanes : Prop :=
  ∀ (s : State) (e : Fin 96) (m : Mask) (d a b : Fin 32) (c : VSrc), issues s e = true →
    Completes (.fadd e m d a c) s (VectorComputed e m d (fun l => Fp.add (vreg s e a l) (vsrc s e c l)) s) ∧
    Completes (.fsub e m d a c) s (VectorComputed e m d (fun l => Fp.sub (vreg s e a l) (vsrc s e c l)) s) ∧
    Completes (.fmul e m d a c) s (VectorComputed e m d (fun l => Fp.mul (vreg s e a l) (vsrc s e c l)) s) ∧
    Completes (.fma e m d a b c) s (VectorComputed e m d (fun l => Fp.fma (vreg s e a l) (vreg s e b l) (vsrc s e c l)) s) ∧
    Completes (.fms e m d a b c) s (VectorComputed e m d (fun l => Fp.fms (vreg s e a l) (vreg s e b l) (vsrc s e c l)) s) ∧
    Completes (.fmin e m d a c) s (VectorComputed e m d (fun l => Fp.min (vreg s e a l) (vsrc s e c l)) s) ∧
    Completes (.fmax e m d a c) s (VectorComputed e m d (fun l => Fp.max (vreg s e a l) (vsrc s e c l)) s) ∧
    Completes (.fclamp e m d a b c) s (VectorComputed e m d (fun l => Fp.clamp (vreg s e a l) (vreg s e b l) (vsrc s e c l)) s) ∧
    Completes (.fabs e m d a) s (VectorComputed e m d (fun l => Fp.abs (vreg s e a l)) s) ∧
    Completes (.fneg e m d a) s (VectorComputed e m d (fun l => Fp.negate (vreg s e a l)) s) ∧
    Completes (.frcp e m d a) s (VectorComputed e m d (fun l => Fp.rcp (vreg s e a l)) s) ∧
    Completes (.frsq e m d a) s (VectorComputed e m d (fun l => Fp.rsq (vreg s e a l)) s) ∧
    Completes (.vidx e m d) s (VectorComputed e m d (fun l => Fp.ofNat (16 * (engOf s e).gb + l)) s)

/-- NOP, GRP, GNEXT and BR change the engine's sequencing alone: where execution continues, and the group; END ends the frame program, with the cycle it took
in ENG_CYC, whose maximum never falls (R117, R123, R135 to R137).
Log entry 11 holds a choice of the model that it rests on. -/
def Obligations.FlowInstructionsMoveOneEngine : Prop :=
  (
  ∀ (s : State) (e : Fin 96) (c : BrCond) (target : BitVec 12), issues s e = true →
    let only (x : Eng) (t : State) : Prop := t = { s with eng := { s.eng with engs := t.eng.engs } } ∧
      ∀ k, engOf t k = if k = e.val then x else engOf s k
    let x := { engOf s e with cycle := (engOf s e).cycle + 1 }
    Completes (.nop e) s (only { x with pc := x.pc + 1 }) ∧
    Completes (.grp e) s (only { x with gb := 0, inBody := true, grpPc := x.pc + 1, pc := x.pc + 1 }) ∧
    (x.gb < 6 → Completes (.gnext e) s (only { x with gb := x.gb + 1, pc := x.grpPc })) ∧
    (6 ≤ x.gb → Completes (.gnext e) s (only { x with gb := 0, inBody := false, pc := x.pc + 1 })) ∧
    Completes (.br e c target) s (only { x with pc := if branchTaken s e c then target.toNat else x.pc + 1 })) ∧
  (
  ∀ (s : State) (e : Fin 96), issues s e = true → Completes (.end_ e) s fun t =>
    (∀ k, engOf t k = if k = e.val then { engOf s e with active := false, cycle := (engOf s e).cycle + 1 } else engOf s k) ∧
    (∀ a, a ≠ A.engCyc e → rd t a = rd s a) ∧
    ((engOf s e).cycle + 1 < 2 ^ 16 → fld t (A.engCyc e) 15 0 = (engOf s e).cycle + 1 ∧
      fld t (A.engCyc e) 31 16 = max ((engOf s e).cycle + 1) (fld s (A.engCyc e) 31 16)) ∧
    t = { s with regs := t.regs, eng := { s.eng with engs := t.eng.engs } })

/-- LD copies the LSM word of the current group into the enabled lanes of Vd; LDS and TLD copy one word into Sd; a TLD outside the auxiliary region, or at an
address that is no multiple of 4, gives 0 and an event (R105, R122, R125, R133, R134).
Log entry 11 holds a choice of the model that it rests on. -/
def Obligations.LoadsReadTheMemoriesWords : Prop :=
  (
  ∀ (s : State) (e : Fin 96) (m : Mask) (d : Fin 32) (w : Fin 128), issues s e = true →
    (∀ l : Fin 16, (maskOf s e m).getLsbD l = true → isBad s (groupWord s e l w) = false) →
    Completes (.ld e m d w) s fun t => Issued e 1 s t ∧ LanesSet e m d (fun l => readWord s.mem (groupWord s e l w)) s t ∧
      (∀ a, a ≠ A.engNanstk e → rd t a = rd s a) ∧ (∀ l : Fin 16, bit t (A.engNanstk e) l = bit s (A.engNanstk e) l) ∧
      t = { s with regs := t.regs, eng := { s.eng with vregs := t.eng.vregs, engs := t.eng.engs } }) ∧
  (
  ∀ (s : State) (e : Fin 96) (d a : Fin 32) (lane : Fin 16) (w : Fin 128) (ofs : Word), issues s e = true →
    (isBad s (groupWord s e lane w) = false →
      Completes (.lds e d lane w) s (ScalarSet e d (readWord s.mem (groupWord s e lane w)) s)) ∧
    let o := (sreg s e a + ofs).toNat
    (o % 4 = 0 → o < 129920 → isBad s (auxBase (e / 8) + o) = false → Completes (.tld e d a ofs) s fun t =>
      Issued e 2 s t ∧ (∀ (x : Fin 96) (r : Fin 32), sreg t x r = if x = e ∧ r = d then readWord s.mem (auxBase (e / 8) + o) else sreg s x r) ∧
      t = { s with eng := { s.eng with sregs := t.eng.sregs, engs := t.eng.engs } }) ∧
    (o % 4 ≠ 0 ∨ 129920 ≤ o → Completes (.tld e d a ofs) s fun t =>
      (∀ (x : Fin 96) (r : Fin 32), sreg t x r = if x = e ∧ r = d then 0#32 else sreg s x r) ∧
      (engOf t e).cycle = (engOf s e).cycle + 2 ∧
      ((engOf s e).evq.length < 32 → (engOf t e).evq.length = (engOf s e).evq.length + 1) ∧
      t = { s with eng := { s.eng with sregs := t.eng.sregs, engs := t.eng.engs } }))

/-- EVT queues one entry with its code, the mask's lanes and the group, unless the mask is 0; a full queue counts it instead (R138, Table
GI-8).
Log entry 11 holds a choice of the model that it rests on. -/
def Obligations.EvtQueuesOneEntry : Prop :=
  ∀ (s : State) (e : Fin 96) (m : Mask) (code : BitVec 16), issues s e = true →
    (maskOf s e m = 0#16 → Completes (.evt e m code) s fun t =>
      Issued e 1 s t ∧ t = { s with eng := { s.eng with engs := t.eng.engs } }) ∧
    (maskOf s e m ≠ 0#16 → (engOf s e).evq.length < 32 → (engOf s e).gb < 7 → Completes (.evt e m code) s fun t =>
      (∃ x : BitVec 64, (engOf t e).evq = (engOf s e).evq ++ [x] ∧ x.extractLsb' 48 16 = code ∧
        x.extractLsb' 32 16 = maskOf s e m ∧ (x.extractLsb' 29 3).toNat = (engOf s e).gb) ∧
      (engOf t e).dropped = 0 ∧ (engOf t e).pc = (engOf s e).pc + 1 ∧ t = { s with eng := { s.eng with engs := t.eng.engs } }) ∧
    (maskOf s e m ≠ 0#16 → 32 ≤ (engOf s e).evq.length → Completes (.evt e m code) s fun t =>
      (engOf t e).evq = (engOf s e).evq ∧ (engOf t e).dropped = (engOf s e).dropped + 1 ∧
      t = { s with eng := { s.eng with engs := t.eng.engs } })

/-- IN.MON gives the enabled lanes the current group's samples, and flags where it asks; OUT.DRV fills the enabled lanes' drives and marks the group done; an
accepted TONE keeps its updates for the next drives (R74, R99, R100, R139 to R141).
Log entry 11 holds a choice of the model that it rests on. -/
def Obligations.MonitorsDrivesAndTonesTakeTheGroup : Prop :=
  (
  ∀ (s : State) (e : Fin 96) (m : Mask) (d : Fin 32) (point volts : Bool) (p : Fin 8) (f : FlagSel), issues s e = true →
    let x (l : Nat) : Sample := sampleOf s (elemAt s e l) point.toNat
    Completes (.inMon e m d point volts none) s (VectorCopied e m d (fun l => sampleValue volts (x l)) s) ∧
    Completes (.inMon e m d point volts (some (p, f))) s fun t =>
      Issued e 1 s t ∧ LanesSet e m d (fun l => sampleValue volts (x l)) s t ∧
      (∀ (y : Fin 96) (q : Fin 8) (l : Fin 16), (preg t y q).getLsbD l =
        if y = e ∧ q = p ∧ (maskOf s e m).getLsbD l then flagged f (x l) else (preg s y q).getLsbD l) ∧
      t = { s with eng := { s.eng with vregs := t.eng.vregs, pregs := t.eng.pregs, engs := t.eng.engs } }) ∧
  (
  ∀ (s : State) (e : Fin 96) (m : Mask) (a : Fin 32), issues s e = true → (engOf s e).gb < 7 →
    (∀ l : Fin 16, (maskOf s e m).getLsbD l = true → Fp.isNan (vreg s e a l) = false) →
    Completes (.outDrv e m a) s fun t =>
      (∀ n, sget (fun _ => .park) t.eng.drvFill n =
        if 112 * e.val + 16 * (engOf s e).gb ≤ n ∧ n < 112 * e.val + 16 * (engOf s e).gb + 16 ∧
            (maskOf s e m).getLsbD (n - (112 * e.val + 16 * (engOf s e).gb))
          then .volts (vreg s e a (n - (112 * e.val + 16 * (engOf s e).gb))) else sget (fun _ => .park) s.eng.drvFill n) ∧
      (engOf t e).done.getLsbD (engOf s e).gb = true ∧ (engOf t e).pc = (engOf s e).pc + 1 ∧ (∀ x, x ≠ e.val → engOf t x = engOf s x) ∧
      t = { s with eng := { s.eng with drvFill := t.eng.drvFill, engs := t.eng.engs } }) ∧
  (
  ∀ (s : State) (e : Fin 96) (m : Mask) (f : ToneFreq) (wa wp : Bool) (vf vamp vph : Fin 32), issues s e = true →
    (∀ l : Fin 16, (maskOf s e m).getLsbD l = true →
      (∃ x, toneFreq s (elemAt s e l) (vreg s e vf l) f = some x ∧ toneBand s (tonePilot f) x = true) ∧
      (wa = true → nonNegative (vreg s e vamp l) = true) ∧ (wp = true → Fp.finite (vreg s e vph l) = true)) →
    Completes (.tone e m f wa wp vf vamp vph) s fun t =>
      Issued e 1 s t ∧ t = { s with eng := { s.eng with tonePend := t.eng.tonePend, engs := t.eng.engs } } ∧
      ∀ l : Fin 16, (maskOf s e m).getLsbD l = true → ∃ u, sget (fun _ => none) t.eng.tonePend (elemAt s e l) = some u ∧
        u.pilot = tonePilot f ∧ (wa = true → u.amp = some (vreg s e vamp l)) ∧
        (wp = true → u.phase = some (phaseOf (vreg s e vph l))) ∧
        ∀ x, toneFreq s (elemAt s e l) (vreg s e vf l) f = some x → presentFreq t (elemAt s e l) = BitVec.ofNat 32 x)

/-- ST to words 0-103 stores the enabled lanes of Va in the LSM, each at its loop's address, and no other byte changes; an ST to words 104-127 stores nothing and
sets LSM_WPROT; a LUT gives the enabled lanes their table values, the canonical NaN while the table is not ready (R105, R106, R113, R133, R142).
Log entries 11 and 91 hold choices of the model that it rests on. -/
def Obligations.StoresAndLookupsKeepOtherLanes : Prop :=
  (
  ∀ (s : State) (e : Fin 96) (m : Mask) (a : Fin 32) (w : Fin 128), issues s e = true →
    (w.val < 104 → Completes (.st e m a w) s fun t =>
      (∀ l : Fin 16, (maskOf s e m).getLsbD l = true → readWord t.mem (lsmAddr e (loopAt s e l) w) = vreg s e a l) ∧
      (∀ k, (∀ l : Fin 16, (maskOf s e m).getLsbD l = true →
          k < lsmAddr e (loopAt s e l) w ∨ lsmAddr e (loopAt s e l) w + 4 ≤ k) →
        readByte memBlank t.mem k = readByte memBlank s.mem k) ∧
      Issued e 1 s t ∧ t = { s with mem := t.mem, memBad := t.memBad, eng := { s.eng with engs := t.eng.engs } }) ∧
    (104 ≤ w.val → Completes (.st e m a w) s fun t =>
      bit t (A.engEvt e) 5 = true ∧ (∀ k, k ≠ A.engEvt e → rd t k = rd s k) ∧
      Issued e 1 s t ∧ t = { s with regs := t.regs, eng := { s.eng with engs := t.eng.engs } })) ∧
  (
  ∀ (s : State) (e : Fin 96) (m : Mask) (d a : Fin 32), issues s e = true →
    ((∀ l : Fin 16, (maskOf s e m).getLsbD l = true → lutBad s (elemAt s e l) (vreg s e a l) = false) →
    Completes (.lut e m d a) s fun t => Issued e 2 s t ∧
      LanesSet e m d (fun l => lutValue s (elemAt s e l) (vreg s e a l)) s t ∧
      StickySet e m (fun l => lutValue s (elemAt s e l) (vreg s e a l)) s t ∧
      t = { s with regs := t.regs, eng := { s.eng with vregs := t.eng.vregs, engs := t.eng.engs } }) ∧
    (bit s (A.cluStat (e / 8)) 31 = false → (engOf s e).gb < 7 →
      Completes (.lut e m d a) s (LanesSet e m d (fun _ => 0x7FC00000#32) s)))

/-! ## Tiles, links and lanes -/

/-- A lane frame is counted, trims the frame grid against network time, and drives every enabled lane with 56 element codes and the
reference slots; before bring-up step 4 the scheduler does not run and no frame is counted, and before the frame before has run its length no
frame starts (R32, R34, R36, R257, R272).
Log entry 94 holds a choice of the model that it rests on. -/
def Obligations.LaneFrameCountsAndDrives : Prop :=
  ∀ (s : State) (sub : Fin 8) (samples : List RawSample),
    let phase := framePhase (countFrame.run s) sub
    (frameOver s sub = true → schedulerRuns s = true → Completes (.laneFrameStart sub samples) s fun t =>
      t.tim.frames = s.tim.frames + 1 ∧ t.tim.tick = s.tim.tick ∧ t.tim.anchor = s.tim.anchor ∧ t.tim.nA = s.tim.nA ∧
      t.lane.emitPrev = s.lane.emit ∧
      (s.tim.stepPend = none → s.pipe.stepFail = false →
        (domRuns s 39 = true → fld t A.frameErr 15 0 = unsigned 16 ((2 * phase + 1000) / 2000) ∧
          (bit t A.ptpStat 26 = true ↔ -6144 ≤ phase ∧ phase ≤ 6144)) ∧
        ∀ n : Fin 192, bit s (A.edlStat n) 0 = true → domRuns s (15 + n / 16) = true →
          ∃ c : List (BitVec 16), c.length = 56 ∧
            Out.lane n (c ++ [0x7000#16, 0x9000#16, 0#16, 0#16, 0#16, 0#16, 0#16, 0#16]) ∈ t.outs)) ∧
    (frameOver s sub = true → schedulerRuns s = false → Completes (.laneFrameStart sub samples) s fun t =>
      t.tim.frames = s.tim.frames ∧ t.lane.emit = s.lane.emit ∧ t.free = s.free ∧ t.fab = s.fab) ∧
    (frameOver s sub = false → exec (.laneFrameStart sub samples) s = .next s)

/-- An uplink frame without SYNCU ends the run of good frames, the second ends lock; a bad CRC is counted; a good frame brings the tile's status up to date; the
eighth without a good one ends lock and holds the tile; HOLD = 1 holds at once, HOLD = 0 only asks, FAB_HOLD falls only where every condition holds;
TILE_EN = 0 holds and starts the link afresh (R52, R53, R59, R61).
Log entry 86 holds a choice of the model that it rests on. -/
def Obligations.UplinksAndTileControlHoldTheTile : Prop :=
  (
  ∀ (s : State) (t : Fin 12) (f : BitVec 384), lclkRuns s t = true →
    (upSync f = false → Completes (.uplinkFrame t f) s fun u =>
      (tileLink u t).good = 0 ∧ (tileLink u t).syncMiss = (tileLink s t).syncMiss + 1 ∧
      (bit u (A.tileStat t) tsUpLock = true ↔ bit s (A.tileStat t) tsUpLock = true ∧ (tileLink s t).syncMiss = 0) ∧
      (∀ a, a ≠ A.tileStat t → rd u a = rd s a) ∧ u = { s with regs := u.regs, lane := { s.lane with tiles := u.lane.tiles } }) ∧
    (upSync f = true → upCrcOk f = false → Completes (.uplinkFrame t f) s fun u =>
      bit u (A.tileEvt t) 1 = true ∧
      fld u (A.fclCnt0 t) 31 16 = min (fld s (A.fclCnt0 t) 31 16 + 1) 65535 ∧
      rd u (A.tileUpstat t) = rd s (A.tileUpstat t) ∧ rd u (A.tileTemp t) = rd s (A.tileTemp t)) ∧
    (upSync f = true → upCrcOk f = true → Completes (.uplinkFrame t f) s fun u =>
      (rd u (A.tileUpstat t)).toNat = upField f 16 47 ∧ (rd u (A.tileTemp t)).toNat = upField f 288 303 ∧
      (rd u (A.tileId t)).toNat = upField f 16 47 % 2 ^ 16)) ∧
  (
  ∀ (s : State) (t : Fin 12),
    (8 ≤ (tileLink s t).missing → (tileLink s t).everLocked = true → lclkRuns s t = true → Completes (.upLossDetect t) s fun u =>
      bit u (A.tileStat t) tsCauseUploss = true ∧ bit u (A.tileStat t) tsHoldOut = true ∧ bit u (A.tileEvt t) 2 = true) ∧
    (releaseOk s t = true → ticksPerUs ≤ s.clk.mono - (tileLink s t).heldAt → Completes (.fabHoldRelease t) s fun u =>
      bit u (A.tileStat t) tsHoldOut = false ∧ (∀ i, i ≠ tsHoldOut → bit u (A.tileStat t) i = bit s (A.tileStat t) i) ∧
      (∀ a, a ≠ A.tileStat t → rd u a = rd s a) ∧ u = { s with regs := u.regs }) ∧
    (releaseOk s t = false ∨ s.clk.mono - (tileLink s t).heldAt < ticksPerUs → exec (.fabHoldRelease t) s = .next s)) ∧
  (
  ∀ (s : State) (t : Fin 12), writeTaken s (A.tileCtrl t) = true →
    Completes (.tileHoldWrite t true) s (fun u =>
      bit u (A.tileCtrl t) 0 = true ∧ bit u (A.tileStat t) tsCauseSw = true ∧ bit u (A.tileStat t) tsHoldOut = true ∧
      (∀ a, a ≠ A.tileCtrl t → a ≠ A.tileStat t → a ≠ A.dbgStat → rd u a = rd s a) ∧
      u = { s with regs := u.regs, dbg := u.dbg, lane := { s.lane with tiles := u.lane.tiles }, pipe := { s.pipe with wins := u.pipe.wins } } ∧
      u.pipe.wins = if bit s (A.tileStat t) tsHoldOut then s.pipe.wins
        else s.pipe.wins.map fun w => if outOnTile s t w.out then { w with parked := true } else w) ∧
    Completes (.tileHoldWrite t false) s (fun u =>
      (bit s (A.tileStat t) tsHoldOut = true → bit u (A.tileStat t) tsHoldOut = true) ∧
      (releaseOk ((Act.all [clrBit (A.tileCtrl t) 0, clrBit (A.tileStat t) tsCauseSw]).run s) t = true →
        bit u (A.tileCtrl t) 0 = false ∧ bit u (A.tileStat t) tsCauseSw = false ∧ rd u (A.tileEvt t) = rd s (A.tileEvt t)) ∧
      (releaseOk ((Act.all [clrBit (A.tileCtrl t) 0, clrBit (A.tileStat t) tsCauseSw]).run s) t = false →
        bit u (A.tileEvt t) 6 = true)) ∧
    Completes (.tileEnWrite t false) s (fun u =>
      bit u (A.tileCtrl t) 1 = false ∧ bit u (A.tileStat t) tsCauseDis = true ∧ bit u (A.tileStat t) tsHoldOut = true ∧
      bit u (A.tileStat t) tsUpLock = false ∧ (tileLink u t).queue = [] ∧ (tileLink u t).load = .idle ∧
      (∀ a, a ≠ A.tileCtrl t → a ≠ A.tileStat t → a ≠ A.parkCtrl t → a ≠ A.dbgStat → rd u a = rd s a)) ∧
    Completes (.tileEnWrite t true) s (fun u =>
      bit u (A.tileCtrl t) 1 = true ∧ bit u (A.tileStat t) tsCauseDis = false ∧
      bit u (A.tileStat t) tsHoldOut = bit s (A.tileStat t) tsHoldOut) ∧
    Completes (.tileCntClr t) s (fun u => rd u (A.fclCnt0 t) = 0#32 ∧ rd u (A.fclCnt1 t) = 0#32 ∧
      (∀ a, a ≠ A.fclCnt0 t → a ≠ A.fclCnt1 t → a ≠ A.dbgStat → rd u a = rd s a) ∧ u = { s with regs := u.regs, dbg := u.dbg }))

/-- A park store load sets PLOAD_BUSY and queues every PARK_DRIVE and PARK_TRIM message; its commit leaves PARK_CRC, an event and every slot valid; the delay sweep's
result goes into EML_DLY; the supervisors write HFLT by the element's fault flag and nothing else (R43, R50, R60, R63).
Log entry 85 holds a choice of the model that it rests on. -/
def Obligations.ParkStoreSweepAndFaultFlags : Prop :=
  (
  ∀ (s : State) (t : Fin 12),
    (bit s (A.tileStat t) tsUpLock = true → (tileLink s t).load = .idle →
      (bit s (A.tileStat t) tsPstore = false ∨ (tileLink s t).owed = true) →
      lclkRuns s t = true → s.nvm.park ≠ [] → (tileLink s t).sweepDue = false → Completes (.parkStoreLoad t) s fun u =>
      bit u (A.tileStat t) tsPload = true ∧ bit u (A.parkCtrl t) 0 = true ∧ (tileLink u t).load = .data ∧
      (tileLink u t).queue = (tileLink s t).queue.filter (!isParkMsg ·) ++ parkMsgs s t) ∧
    (writeTaken s (A.parkCtrl t) = true → lclkRuns s t = true → s.nvm.park ≠ [] → (tileLink s t).sweepDue = false →
      Completes (.parkStoreReload t) s fun u =>
      bit u (A.tileStat t) tsPload = true ∧ bit u (A.parkCtrl t) 0 = true ∧ (tileLink u t).load = .data ∧
      (tileLink u t).queue = (tileLink s t).queue.filter (!isParkMsg ·) ++ parkMsgs s t) ∧
    (writeTaken s (A.parkCtrl t) = true → lclkRuns s t = false ∨ s.nvm.park = [] ∨ (tileLink s t).sweepDue = true →
      Completes (.parkStoreReload t) s fun u =>
        (tileLink u t).owed = true ∧ (tileLink u t).load = (tileLink s t).load ∧ (tileLink u t).queue = (tileLink s t).queue) ∧
    ((tileLink s t).load = .acked → bit s (A.tileUpstat t) 29 = true → bit s (A.tileUpstat t) 21 = false → Completes (.parkStoreCommitted t) s fun u =>
      bit u (A.tileEvt t) 5 = true ∧ rd u (A.parkCrc t) = crc32c (parkStoreBytes s t) ∧ u.nvm.park = s.nvm.park ∧
      (tileLink u t).load = .idle ∧
      ∀ l : Fin 16, (laneOf u (16 * t + l)).mask =
        if (laneOf s (16 * t + l)).rchg.isSome then (laneOf s (16 * t + l)).mask else BitVec.allOnes 60)) ∧
  (
  ∀ (s : State) (t : Fin 12) (dly : Fin 24) (n : Fin 10752),
    (bit s (A.tileStat t) tsUpLock = true → bit s (A.emlStat (16 * t)) 31 = true → Completes (.emlDlySweep t dly) s fun u =>
      fld u (A.emlDly t) 4 0 = dly ∧ (∀ a, a ≠ A.emlDly t → rd u a = rd s a) ∧ (tileLink u t).sweepDue = false ∧
      u = { s with regs := u.regs, lane := { s.lane with tiles := u.lane.tiles } }) ∧
    (supvRuns s = true → bankRom s (engineOf n) (actBank s (engineOf n)) = true → Completes (.hfltWordWrite n) s (fun u =>
      elemWord u n 82 = (if (tileLink s (n / 896)).hflt.contains (n % 896) then 0x3F800000#32 else 0#32) ∧
      (∀ k, (k < lsmAddr (n / 112) (n % 112) 82 ∨ lsmAddr (n / 112) (n % 112) 82 + 4 ≤ k) →
        readByte memBlank u.mem k = readByte memBlank s.mem k) ∧ u = { s with mem := u.mem, memBad := u.memBad })))

/-- A range change follows Table CV-1: a write of RANGE_SEL that differs from RANGE_ACT starts it (or is refused where a park code would not fit),
the switch rescales the lane's tones, the settling ends by sending the old mask back, and a change that is not over in time holds the tile
(R67, R69-R71).
Log entry 50 holds a choice of the model that it rests on. -/
def Obligations.RangeChangeRunsInStages : Prop :=
  ∀ (s : State) (n : Fin 192) (v : Bool),
    (writeTaken s (A.edlCtrl n) = true → (laneOf s n).rchg = none → bit s (A.edlStat n) 1 ≠ v → Completes (.rangeSelWrite n v) s fun u =>
      bit u (A.edlCtrl n) 1 = v ∧
      (v = true ∨ parkTooWide s n = false →
        (laneOf u n).rchg = some { start := s.tim.frames + 1, target := v, prev := (laneOf s n).mask }) ∧
      (v = false → parkTooWide s n = true → bit u (A.edlStat n) 11 = true ∧ (laneOf u n).rchg = none)) ∧
    ∀ r : Rchg, (laneOf s n).rchg = some r →
      (r.cleared = true → r.switched = none → r.timedOut = false → r.clearedAt + 1 ≤ s.tim.frames → Completes (.rangeSwitch n) s fun u =>
        bit u (A.edlStat n) 1 = r.target ∧ fld u (A.edlStat n) 3 2 = 2 ∧
        (laneOf u n).rchg = some { r with switched := some (s.tim.frames + 1) } ∧
        ∀ k : Fin 56, toneOf u n k = { toneOf s n k with amp :=
          if r.target then ((toneOf s n k).amp + 1) / 2 else min 2048 (2 * (toneOf s n k).amp) }) ∧
      (∀ f, r.switched = some f → r.restoring = false → r.timedOut = false → f + 63 ≤ s.tim.frames → Completes (.rchgSettleEnd n) s fun u =>
        fld u (A.edlStat n) 3 2 = 3 ∧ (laneOf u n).mask = r.prev ∧ (laneOf u n).rchg = some { r with restoring := true } ∧
        (tileLink u (n / 16)).queue = (tileLink s (n / 16)).queue ++ [.slotValid (n % 16) r.prev]) ∧
      (r.restored = true → bit s (A.edlCtrl n) 1 = r.target → Completes (.rchgDone n) s fun u =>
        fld u (A.edlStat n) 3 2 = 0 ∧ bit u (A.edlStat n) 9 = true ∧ (laneOf u n).rchg = none) ∧
      (r.timedOut = false → r.start + 240 ≤ s.tim.frames → domInReset s 42 = false → inSafe s = false →
        srcFlag s (183 + 2 * (n / 16)) = false → Completes (.rchgTimeout n) s fun u =>
          bit u (A.tileStat (n / 16)) tsHoldOut = true ∧ ∀ x, (laneOf u n).rchg = some x → x.timedOut = true)

/-- FORCE_PARK, the counters' clear, the reference buffer, conversions and low-power mode do what their bits say, and LP_EN is refused while an element is not OFF
or PARK; REFBUF_RDY comes 8,000 frames after REFBUF_EN, samples settle after 1,025 converted frames, a slice leaves CAL_FAULT after 256 good ones (R80 to R83, R93, R94).
Log entries 51 and 59 hold choices of the model that it rests on. -/
def Obligations.LaneGroupsFollowTheirBitsAndSettle : Prop :=
  (
  ∀ (s : State) (n : Fin 192) (t : Fin 12) (v : Bool),
    (writeTaken s (A.edlCtrl n) = true →
      Completes (.forceParkWrite n v) s (fun u => bit u (A.edlCtrl n) 0 = v ∧
        (∀ i, i ≠ 0 → bit u (A.edlCtrl n) i = bit s (A.edlCtrl n) i) ∧ ∀ a, a ≠ A.edlCtrl n → a ≠ A.dbgStat → rd u a = rd s a) ∧
      Completes (.edlCntClr n) s (fun u => rd u (A.edlNancnt n) = 0#32 ∧ rd u (A.edlSatcnt n) = 0#32 ∧
        ∀ a, a ≠ A.edlNancnt n → a ≠ A.edlSatcnt n → a ≠ A.dbgStat → rd u a = rd s a)) ∧
    (writeTaken s (grpCtrl t) = true →
      (bit s (grpCtrl t) 19 = false → s.clk.noPark = false → Completes (.refbufEnWrite t true) s fun u =>
        bit u (grpCtrl t) 19 = true ∧ bit u (grpStat t) 31 = false ∧ (groupOf u t).refAt = s.tim.frames) ∧
      (bit s (grpCtrl t) 19 = false → s.clk.noPark = true → Completes (.refbufEnWrite t true) s fun u => bit u (grpCtrl t) 19 = false) ∧
      Completes (.refbufEnWrite t false) s (fun u => bit u (grpCtrl t) 19 = false ∧ bit u (grpCtrl t) 20 = false ∧
        bit u (grpStat t) 31 = false ∧ bit u (grpStat t) 30 = false) ∧
      Completes (.convEnWrite t v) s (fun u => bit u (grpCtrl t) 20 = v ∧ bit u (grpStat t) 30 = (v && bit s (grpStat t) 31) ∧
        (v = true → bit s (grpStat t) 31 = false → bit u (grpStat t) 7 = true)) ∧
      (bit s (grpStat t) 29 = false → (∀ i, i < 896 → offOrPark s (896 * t + i) = true) → Completes (.lpEnWrite t true) s fun u =>
        bit u (grpCtrl t) 21 = true ∧ bit u (grpStat t) 29 = true ∧ (groupOf u t).lpCount = 0) ∧
      (bit s (grpStat t) 29 = false → (∃ i, i < 896 ∧ offOrPark s (896 * t + i) = false) → Completes (.lpEnWrite t true) s fun u =>
        bit u (grpCtrl t) 21 = bit s (grpCtrl t) 21 ∧ bit u (grpStat t) 29 = false ∧ bit u (grpStat t) 6 = true) ∧
      (bit s (grpStat t) 29 = true → Completes (.lpEnWrite t true) s fun u =>
        (∀ a, a ≠ A.dbgStat → rd u a = rd s a) ∧ u = { s with regs := u.regs, dbg := u.dbg }) ∧
      (bit s (grpStat t) 29 = true → Completes (.lpEnWrite t false) s fun u =>
        bit u (grpCtrl t) 21 = false ∧ bit u (grpStat t) 29 = false ∧ (groupOf u t).resettle = 161))) ∧
  (
  ∀ (s : State) (n : Fin 192) (j : Fin 4) (t : Fin 12),
    (bit s (grpCtrl t) 19 = true → bit s (grpStat t) 31 = false → (groupOf s t).refAt + 8000 ≤ s.tim.frames →
      Completes (.refbufReady t) s fun u => bit u (grpStat t) 31 = true ∧
        bit u (grpStat t) 30 = (bit s (grpCtrl t) 20 || (groupOf s t).autoConv)) ∧
    (1025 ≤ (groupOf s t).conv → Completes (.calSettled t) s fun u =>
      (groupOf u t).settled = true ∧ u = { s with lane := { s.lane with groups := u.lane.groups } }) ∧
    ((groupOf s t).conv < 1025 → exec (.calSettled t) s = .next s) ∧
    (calFault s n j = true → 256 ≤ (sliceOf s n j).good → Completes (.calFaultExit n j) s fun u =>
      calFault u n j = false ∧ (sliceOf u n j).keptHigh = (sliceOf s n j).high ∧ (sliceOf u n j).keptLow = (sliceOf s n j).low ∧
      ∀ a, a ≠ A.emlStat n → rd u a = rd s a) ∧
    ((groupOf s t).resettle ≤ 1 → Completes (.lpResettleDone t) s fun u =>
      (groupOf u t).resettle = 0 ∧ u = { s with lane := { s.lane with groups := u.lane.groups } }) ∧
    (1 < (groupOf s t).resettle → exec (.lpResettleDone t) s = .next s))

/-- A bias channel takes a target, a range or an enable that the budget admits, and otherwise keeps what it has and sets BUDGET_REJ; in a microsecond its setpoint
moves by its slew at most, toward its goal or toward zero for a range change; compliance levels follow measurements that have held (R89 to R92). -/
def Obligations.BiasKeepsBudgetAndSlew : Prop :=
  (
  ∀ (s : State) (b : Fin 24) (v : BitVec 16) (r : Bool),
    (writeTaken s (A.bcoTarget b) = true →
      (budgetOk s b (bit s (A.bcoCtrl b) 0) (bit s (A.bcoCtrl b) 1, v.toNat) = true → Completes (.bcoTargetWrite b v) s fun u =>
        rd u (A.bcoTarget b) = v.zeroExtend 32 ∧ ∀ a, a ≠ A.bcoTarget b → a ≠ A.dbgStat → rd u a = rd s a) ∧
      (budgetOk s b (bit s (A.bcoCtrl b) 0) (bit s (A.bcoCtrl b) 1, v.toNat) = false → Completes (.bcoTargetWrite b v) s fun u =>
        rd u (A.bcoTarget b) = rd s (A.bcoTarget b) ∧ bit u (A.bcoStat b) 1 = true)) ∧
    (writeTaken s (A.bcoCtrl b) = true →
      (budgetOk s b (bit s (A.bcoCtrl b) 0) (r, fld s (A.bcoTarget b) 15 0) = true → Completes (.bcoRangeSelWrite b r) s fun u =>
        bit u (A.bcoCtrl b) 1 = r ∧ (bit s (A.bcoStat b) 30 ≠ r → (bcoOf u b).rchg = true)) ∧
      (budgetOk s b (bit s (A.bcoCtrl b) 0) (r, fld s (A.bcoTarget b) 15 0) = false → Completes (.bcoRangeSelWrite b r) s fun u =>
        rd u (A.bcoCtrl b) = rd s (A.bcoCtrl b) ∧ bit u (A.bcoStat b) 1 = true) ∧
      Completes (.bcoEnWrite b false) s (fun u => bit u (A.bcoCtrl b) 0 = false) ∧
      (budgetOk s b true (bit s (A.bcoCtrl b) 1, fld s (A.bcoTarget b) 15 0) = true → Completes (.bcoEnWrite b true) s fun u =>
        bit u (A.bcoCtrl b) 0 = true) ∧
      (budgetOk s b true (bit s (A.bcoCtrl b) 1, fld s (A.bcoTarget b) 15 0) = false → Completes (.bcoEnWrite b true) s fun u =>
        rd u (A.bcoCtrl b) = rd s (A.bcoCtrl b) ∧ bit u (A.bcoStat b) 1 = true))) ∧
  (
  ∀ (s : State) (b : Fin 24) (imeas : BitVec 16) (vmeas limit : BitVec 12),
    let cur := fld s (A.bcoOut b) 15 0
    let slew := max 1 (fld s (A.bcoSlew b) 15 0)
    let goal := bcoGoal s b
    let aim := if bit s (A.bcoStat b) 30 = goal.1 then goal.2 else 0
    (bcoDead s = false → (bit s (A.bcoCtrl b) 0 = true ∨ bcoParked s b = true) → Completes .bcoRampTick s fun u =>
      (cur ≤ aim → fld u (A.bcoOut b) 15 0 = min aim (cur + slew)) ∧ (aim ≤ cur → fld u (A.bcoOut b) 15 0 = max aim (cur - slew)) ∧
      bit u (A.bcoStat b) 29 = bcoParked s b) ∧
    (bcoDead s = true ∨ (bit s (A.bcoCtrl b) 0 = false ∧ bcoParked s b = false) → Completes .bcoRampTick s fun u =>
      rd u (A.bcoOut b) = 0#32 ∧ bit u (A.bcoStat b) 31 = false ∧ fld u (A.bcoStat b) 29 26 = 0) ∧
    Completes (.bcoComplDetect b imeas vmeas limit { compl := true, open_ := true }) s (fun u =>
      let near := decide (limit.toNat ≤ vmeas.toNat + 100)
      let open_ := bit s (A.bcoCtrl b) 2 && decide (656 ≤ cur) && near && decide (2 * imeas.toNat < cur)
      rd u (A.bcoImeas b) = imeas.zeroExtend 32 ∧ rd u (A.bcoVmeas b) = vmeas.zeroExtend 32 ∧ bit u (A.bcoStat b) 26 = open_ ∧
      bit u (A.bcoStat b) 27 = (near && !open_ && decide (65536 < 100 * (cur - imeas.toNat)))))

/-- A trigger starts the group's injected sequence at entry 0 with no result valid; a running one or a bad length refuses it; at the end INJ_BUSY falls and INJ_DONE
rises; PILOT_DEPTH takes 10 to 200 steps, and the supervisors set TONE_A of an input VOA to PILOT_DEPTH x VREF / G_NOM (R84, R87, R399).
Log entry 17 holds a choice of the model that it rests on. -/
def Obligations.SequencesRunAndPilotsScale : Prop :=
  (
  ∀ (s : State) (t : Fin 12),
    (writeTaken s (grpCtrl t) = true →
      (1 ≤ injLen s t → injLen s t ≤ 32 → bit s (grpStat t) 28 = false → Completes (.injGo t) s fun u =>
        bit u (grpStat t) 28 = true ∧ (groupOf u t).pos = 0 ∧ (groupOf u t).placed = [] ∧
        ∀ i : Fin 32, readWord u.mem (injResult t i) = readWord s.mem (injResult t i) &&& 0x7FFFFFFF#32) ∧
      (bit s (grpStat t) 28 = true → Completes (.injGo t) s fun u =>
        bit u (grpStat t) 4 = true ∧ u.mem = s.mem ∧ u.lane = s.lane) ∧
      (injLen s t = 0 ∨ 32 < injLen s t → Completes (.injGo t) s fun u => bit u (grpStat t) 5 = true ∧ u.mem = s.mem ∧ u.lane = s.lane)) ∧
    (∀ at_, (groupOf s t).timeTrig = some at_ → instantReached s at_ = true → 1 ≤ injLen s t → injLen s t ≤ 32 → bit s (grpStat t) 28 = false →
      bit s (grpCtrl t) 22 = true → Completes (.injTimeTrigger t) s fun u =>
        (groupOf u t).timeTrig = none ∧ bit u (grpStat t) 28 = true ∧ (groupOf u t).pos = 0) ∧
    (bit s (grpStat t) 28 = true → injLen s t ≤ (groupOf s t).pos → (groupOf s t).placed = [] → Completes (.injDone t) s fun u =>
      bit u (grpStat t) 28 = false ∧ bit u (grpStat t) 3 = true ∧ (∀ a, a ≠ grpStat t → rd u a = rd s a) ∧ u = { s with regs := u.regs })) ∧
  (
  ∀ (s : State) (v : Word) (p : Fin 1024),
    (writeTaken s A.pilotDepth = true →
      (10 ≤ v.toNat % 256 → v.toNat % 256 ≤ 200 → Completes (.pilotDepthWrite v) s fun u => fld u A.pilotDepth 7 0 = v.toNat % 256) ∧
      (v.toNat % 256 < 10 ∨ 200 < v.toNat % 256 → Completes (.pilotDepthWrite v) s fun u =>
        rd u A.pilotDepth = rd s A.pilotDepth ∧ bit u A.toneStat 2 = true)) ∧
    ∀ n, n < numElems → supvRuns s = true → portVoa s false p = some n → inputVoa s n = true → bankRom s (engineOf n) (actBank s (engineOf n)) = true →
      Fp.finite (elemWord s n wGNOM) = true → Fp.finite (elemWord s n wVREF) = true → Fp.mag (elemWord s n wGNOM) ≠ 0 →
      Completes (.pilotAmplitudeRecompute p) s fun u => elemWord u n wTONEA =
        Fp.ofRat (Fp.neg (elemWord s n wGNOM) != Fp.neg (elemWord s n wVREF)) (fld s A.pilotDepth 7 0 * Fp.mag (elemWord s n wVREF))
          (10000 * Fp.mag (elemWord s n wGNOM)))

/-! ## Engines: frames, controls, memories -/

/-- No block reset is configured as a reaction of the Umpire source n (R343). -/
def Sys2Proof.Machine.noBlockReset (s : State) (n : Nat) : Bool := !(evReact s n).testBit reBLK && !(sevReact s n).testBit reBLK

/-- The programs of one engine frame, and after them the windows of the engines `l` that were halted and are no longer. -/
def Sys2Proof.Machine.framePrograms (l : List Nat) : Act := .all [
  Act.upto 96 runFrame, Act.each l fun e => .whenS (fun s => supvRuns s && !engHalted s e) (rewriteWindows e)]

/-- Engine e is at the boundary of a frame that follows `s`: the rotation armed for the commit strobe and the program swap that is due have happened,
the start or stop that was asked for has taken effect, and a running engine begins at instruction 0 with no group done. -/
structure Sys2Proof.Machine.AtBoundary (s u : State) (e : Nat) : Prop where
  rotation : rotOf u e = if s.eng.strobe && bit s (A.engSpbank e) 2 && !engHalted s e then
    (rotOf s e + (if fld s (A.engSpbank e) 1 0 = 1 then 1 else if fld s (A.engSpbank e) 1 0 = 2 then 2 else 0)) % 3 else rotOf s e
  applied : s.eng.strobe = true → bit s (A.engSpbank e) 2 = true → engHalted s e = false →
    bit u (A.engSpbank e) 2 = false ∧ bit u (A.engStat e) 20 = false ∧ bit u (A.engEvt e) 2 = true
  bank : actBank u e = if engHalted s e then actBank s e else nextBank s e
  swapped : engHalted s e = false → (fld s (A.engSwap e) 1 0 = 1 ∨ fld s (A.engSwap e) 1 0 = 2 ∧ s.eng.strobe = true) →
    fld u (A.engSwap e) 1 0 = 0 ∧ bit u (A.engStat e) 21 = false ∧
    bit u (A.engEvt e) (if bankOk s e (1 - actBank s e) then 3 else 9) = true
  kept : (engOf s e).runReq = none → engRuns u e = engRuns s e
  stopped : (engOf s e).runReq = some false → engRuns u e = false ∧ engHalted u e = false ∧ (engOf u e).runReq = none
  started : (engOf s e).runReq = some true → engHalted s e = false →
    engRuns u e = bankOk s e (nextBank s e) ∧ (engOf u e).runReq = none
  begins : engRuns u e = true → (engOf u e).active = true ∧ (engOf u e).pc = 0 ∧ (engOf u e).cycle = 0 ∧ (engOf u e).done = 0#7

/-- Writes of RUN, ENG_SWAP, SEED and ARM ask, arm or are refused; an overrun ends the frame's program and counts, where END was not just due; a fetch error halts
the engine and records where (R101, R104, R108, R109, R111, R116). The reactions configured for the overrun must not reset the cluster.
Log entry 92 holds a choice of the model that it rests on. -/
def Obligations.EnginesArmStopAndRefuse : Prop :=
  (
  ∀ (s : State) (e : Fin 96) (v : Bool) (m : Fin 4),
    (writeTaken s (A.engCtrl e) = true →
      (v = true → bankOk s e (actBank s e) = false → Completes (.engineRunWrite e v) s fun t =>
        bit t (A.engEvt e) 9 = true ∧ t.eng = s.eng ∧ rd t (A.engCtrl e) = rd s (A.engCtrl e)) ∧
      (v = false ∨ bankOk s e (actBank s e) = true → Completes (.engineRunWrite e v) s fun t =>
        bit t (A.engCtrl e) 0 = v ∧
        (engOf t e).runReq = (if v = false then (if engRuns s e || engHalted s e then some false else none)
          else if engRuns s e || engHalted s e then (if (engOf s e).runReq.isSome then some true else none) else some true))) ∧
    (writeTaken s (A.engSwap e) = true →
      (m.val < 3 → Completes (.engSwapWrite e m) s fun t => fld t (A.engSwap e) 1 0 = m ∧ bit t (A.engStat e) 21 = decide (m ≠ 0)) ∧
      (m.val = 3 → Completes (.engSwapWrite e m) s fun t =>
        (∀ a, a ≠ A.dbgStat → rd t a = rd s a) ∧ t = { s with regs := t.regs, dbg := t.dbg })) ∧
    (writeTaken s (A.engSpbank e) = true →
      (bit s (A.engSpbank e) 2 = true ∨ engHalted s e = true ∨ bit s (A.engStat e) 24 = true → Completes (.seed e) s fun t =>
        bit t (A.engEvt e) 4 = true ∧ bit t (A.engStat e) 24 = bit s (A.engStat e) 24) ∧
      (bit s (A.engSpbank e) 2 = false → engHalted s e = false → bit s (A.engStat e) 24 = false → Completes (.seed e) s fun t => bit t (A.engStat e) 24 = true) ∧
      (engHalted s e = true → Completes (.spbankArmWrite e v m) s fun t =>
        bit t (A.engEvt e) 4 = true ∧ rd t (A.engSpbank e) = rd s (A.engSpbank e)) ∧
      (engHalted s e = false → Completes (.spbankArmWrite e v m) s fun t =>
        fld t (A.engSpbank e) 1 0 = m ∧ bit t (A.engSpbank e) 2 = v ∧ bit t (A.engStat e) 20 = v)) ∧
    (bit s (A.engStat e) 24 = true → Completes (.seedDone e) s fun t =>
      bit t (A.engStat e) 24 = false ∧ (∀ (i : Fin 112) (w : Fin 8), lsmWord t e i (112 + w) = lsmWord s e i (104 + w)) ∧
      (∀ a, a ≠ A.engStat e → rd t a = rd s a) ∧ t = { s with regs := t.regs, mem := t.mem, memBad := t.memBad })) ∧
  (
  ∀ (s : State) (e : Fin 96) (n : BitVec 12), engRuns s e = true →
    ((engOf s e).active = true → endDue s e = false → noBlockReset s (257 + 2 * (e / 8)) = true → Completes (.engineOverrun e) s fun t =>
      (engOf t e).active = false ∧ (engOf t e).overran = true ∧ bit t (A.engEvt e) 0 = true ∧
      fld t (A.engOvrcnt e) 15 0 = min (fld s (A.engOvrcnt e) 15 0 + 1) 65535 ∧
      fld t (A.engStat e) 14 8 = (~~~(engOf s e).done).toNat ∧ fld t (A.engCyc e) 15 0 = 0xFFFF) ∧
    ((engOf s e).active = true → endDue s e = true → Completes (.engineOverrun e) s fun t =>
      (engOf t e).active = false ∧ (engOf t e).overran = (engOf s e).overran ∧ t = { s with eng := { s.eng with engs := t.eng.engs } }) ∧
    (noBlockReset s (284 + 4 * (e / 8)) = true → Completes (.instrFetchUe e n) s fun t =>
      engRuns t e = false ∧ engHalted t e = true ∧ (engOf t e).active = false ∧ (engOf t e).haltedAt = s.tim.frames ∧
      isBad t (progAddr e (actBank s e) n.toNat) = true ∧ (rd t (A.engPmerr e)).toNat = 2 ^ 31 + actBank s e * 4096 + n.toNat))

/-- BAR2 writes of the engine and cluster memories: the program's words at any time, the windows only as R107 allows, an inactive program bank (which
loses its verification) unless programs must be signed, and of a table memory the auxiliary region alone (R107, R110, R371, R401).
Log entry 49 holds a choice of the model that it rests on. -/
def Obligations.ExternalWritesKeepTheirRules : Prop :=
  ∀ (s : State) (e : Fin 96) (i : Fin 112) (w : Fin 128) (b : Fin 2) (n : Fin 4096) (h : Fin 2) (c : Fin 12) (x : Fin 262144) (v : Word),
    (domUp s (e / 8) = true →
      (engRuns s e = false ∨ w.val < 104 ∨
          (112 ≤ w.val ∧ w.val < 120 ∧ bit s (A.engSpbank e) 2 = false ∧ bit s (A.engStat e) 24 = false) →
        Completes (.lsmExternalWrite e i w v) s fun t => lsmWord t e i w = v ∧
          (∀ k, k < lsmAddr e i (physWord (rotOf s e) w) ∨ lsmAddr e i (physWord (rotOf s e) w) + 4 ≤ k →
            readByte memBlank t.mem k = readByte memBlank s.mem k) ∧ t = { s with mem := t.mem, memBad := t.memBad }) ∧
      (engRuns s e = true → (104 ≤ w.val ∧ w.val < 112 ∨ 120 ≤ w.val) → Completes (.lsmExternalWrite e i w v) s fun t =>
        bit t (A.engEvt e) 5 = true ∧ t = { s with regs := t.regs }) ∧
      (engRuns s e = true → 112 ≤ w.val → w.val < 120 → (bit s (A.engSpbank e) 2 = true ∨ bit s (A.engStat e) 24 = true) →
        Completes (.lsmExternalWrite e i w v) s fun t => bit t (A.engEvt e) 4 = true ∧ t = { s with regs := t.regs }) ∧
      (enfProg s = true → engRuns s e = false ∨ b.val ≠ actBank s e → exec (.programBankWrite e b n h v) s = .next s) ∧
      (engRuns s e = true → b.val = actBank s e → Completes (.programBankWrite e b n h v) s fun t =>
        bit t (A.engEvt e) 8 = true ∧ t = { s with regs := t.regs }) ∧
      (enfProg s = false → engRuns s e = false ∨ b.val ≠ actBank s e → Completes (.programBankWrite e b n h v) s fun t =>
        readWord t.mem (progAddr e b n + 4 * h) = v ∧ bankOk t e b = false ∧ bankRom t e b = false)) ∧
    (domUp s c = true →
      (0xE0000 ≤ 4 * x.val → 4 * x.val < 0xFFB80 → Completes (.clusterTableWrite c x v) s fun t =>
        readWord t.mem (tableBase c + 4 * x) = v ∧ t = { s with mem := t.mem, memBad := t.memBad }) ∧
      (4 * x.val < 0xE0000 ∨ 0xFFB80 ≤ 4 * x.val → exec (.clusterTableWrite c x v) s = .next s))

/-- An engine frame has 383, 384 or 385 cycles by the net trim that has gathered, and swaps the sample-in buffers; at its boundary an armed rotation,
a due program swap and a start or stop take effect, then every running engine's program runs from instruction 0; the element table's mirror follows its master: a
reload asks for the slice, one that checks is ready with its CRC, one that does not is not; updates go to the shadow (R98, R99, R101, R104, R109, R111, R113, R114, R117, R138).
Log entry 16 holds a choice of the model that it rests on. -/
def Obligations.EngineFramesAndTablesFollowTheirSources : Prop :=
  (
  ∀ s : State,
    (schedulerRuns s = true → inSafe s = false → s.thm.tripped = false → Completes .engineFrameStart s fun t =>
      t.eng.frame = s.tim.frames + 1 ∧ t.eng.frameLen = (if s.eng.trim ≤ -4 then 383 else if 4 ≤ s.eng.trim then 385 else 384) ∧
      t.eng.trim = (if s.eng.trim ≤ -4 then s.eng.trim + 4 else if 4 ≤ s.eng.trim then s.eng.trim - 4 else s.eng.trim) ∧
      t.eng.smpFill = [] ∧ (∀ k, sget (fun _ => {}) t.eng.smpRead k = sget (fun _ => {}) s.eng.smpFill k ∨
        sget (fun _ => {}) t.eng.smpRead k = {}) ∧ t.eng.strobe = false ∧ t.tim = s.tim) ∧
    (schedulerRuns s = true → inSafe s = false → s.thm.tripped = false →
      (∀ k : Fin 96, engRuns s k = true → (engOf s k).active = false) →
      ∃ u, exec .engineFrameStart s = (framePrograms ((List.range 96).filter (engHalted s))).next u ∧
        ∀ e : Fin 96, domRuns s (e / 8) = true → AtBoundary s u e) ∧
    (∀ (e : Fin 96) (n : Nat) (op : GOp), engRuns s e = true → domRuns s (e / 8) = true → bankRom s e (actBank s e) = false →
      (runFrame e).run s = (runProgram e 386).run s ∧
      ((engOf s e).active = true → (engOf s e).cycle < s.eng.frameLen → isBad s (progAddr e (actBank s e) (engOf s e).pc) = false →
        nextOp s e = some op → (runProgram e (n + 1)).run s = (runProgram e n).run ((gop e op).run s))) ∧
    (schedulerRuns s = false ∨ inSafe s = true ∨ s.thm.tripped = true → exec .engineFrameStart s = .next s)) ∧
  (
  ∀ (s : State) (c : Fin 12) (n : Fin 10752) (e : Fin 96),
    (writeTaken s (A.cluCtrl c) = true →
      Completes (.ectReload c) s (fun t => bit t (A.cluCtrl c) 0 = true ∧ bit t (A.cluStat c) 31 = false) ∧
      Completes (.cluCntClr c) s (fun t => rd t (A.ectUpdcnt c) = 0#32 ∧ rd t (A.tblEcccnt c) = 0#32)) ∧
    (writeTaken s (A.engCtrl e) = true → Completes (.engCntClr e) s fun t =>
      rd t (A.engOvrcnt e) = 0#32 ∧ rd t (A.engEcccnt e) = 0#32 ∧ fld t (A.engCyc e) 31 16 = 0 ∧
      fld t (A.engCyc e) 15 0 = fld s (A.engCyc e) 15 0) ∧
    (domUp s c = true → supvRuns s = true → bit s A.nvmStat 31 = true →
      Completes (.ectMirrorLoad c true) s (fun t => bit t (A.cluStat c) 31 = true ∧ bit t (A.cluCtrl c) 0 = false ∧
        rd t (A.ectCrc c) = crc32c (readBytes memBlank t.mem (tableBase c) 0xE0000) ∧
        (∀ j : Fin 896, readBytes memBlank t.mem (ectBase c j) 1024 = masterTable s (896 * c + j)) ∧ ∀ m ∈ t.eng.ectWait, m / 896 ≠ c.val) ∧
      Completes (.ectMirrorLoad c false) s (fun t => bit t (A.cluStat c) 31 = false)) ∧
    (n.val ∈ s.eng.ectWait → bit s (A.cluStat (n / 896)) 30 = false → bit s (A.cluStat (n / 896)) 31 = true → domUp s (n / 896) = true →
      Completes (.ectElementUpdate n) s fun t =>
        sget (fun _ => none) t.eng.ect (n / 896) = some { elem := n, image := masterTable s n } ∧ n.val ∉ t.eng.ectWait ∧
        bit t (A.cluStat (n / 896)) 30 = true ∧ fld t (A.cluStat (n / 896)) 29 20 = n % 896) ∧
    (supvRuns s = true → Completes (.eventQueueDrain e) s fun t => (engOf t e).evq = [] ∧ (∀ k, k ≠ e.val → engOf t k = engOf s k) ∧
      (∀ k, (∀ m : Nat, k < lsmAddr (engineOf m) (loopOf m) wFPARK ∨ lsmAddr (engineOf m) (loopOf m) wFPARK + 4 ≤ k) →
        readByte memBlank t.mem k = readByte memBlank s.mem k) ∧
      (∀ a, (∀ m : Fin 12, a ≠ grpCtrl m ∧ a ≠ grpStat m) → rd t a = rd s a) ∧
      t = { s with
        regs := t.regs, host := t.host, hbm := t.hbm, mem := t.mem, memBad := t.memBad, lane := { s.lane with groups := t.lane.groups },
        eng := { s.eng with engs := t.eng.engs } }))

/-! ## The supervisors -/

namespace Sys2Proof.Machine

/-- The element's snapshot lets adaptive gain act on it (R159). -/
def adaptDue (s : State) (n : Nat) : Bool :=
  elemSlp s n && !elemVoa s n && Fp.lt f0 (elemWord s n wTONEA) && windowFull s n
/-- Heater offload steps the element's heater (R164). -/
def offloadDue (s : State) (n : Nat) : Bool :=
  elemSlp s n && !elemVoa s n && elemIs s n wSTATE stTRACK && windowFull s n && noSoftStart s n && (supOf s n).charact &&
    decide (3 * (headroomOf s n).2 < 10 * (headroomOf s n).1)
/-- The register of PARK_MASK that holds loop i's bit. -/
def parkMaskAt (e i : Nat) : Nat := [A.parkMask0 e, A.parkMask1 e, A.parkMask2 e, A.parkMask3 e].getD (i / 32) 0
/-- The listed elements are elements of the device, each once. -/
def ListedOnce (s : State) : Prop := (listedElems s).Nodup ∧ ∀ n ∈ listedElems s, n < 10752
/-- Of the engine memories, only word `w` of the elements of `l` changes. -/
def OnlyElemWords (s t : State) (p : Nat → Nat → Prop) : Prop :=
  ∀ n w, n < 10752 → w < 128 → ¬p n w → elemWord t n w = elemWord s n w

/-- The element is on the path of a connection of the map in force. -/
def OnPath (s : State) (n : Nat) : Prop := ∃ p ∈ s.fab.topo, ∃ r ∈ s.fab.map.conns, n ∈ pathElems p r
/-- Only parks changed: FPARK of SLP-1 elements of `p` or on the path of a connection, a register, or a lane group that leaves low-power mode. -/
def OnlyParks (s t : State) (p : Nat → Prop) : Prop :=
  OnlyElemWords s t (fun n w => w = wFPARK ∧ bankRom s (engineOf n) (actBank s (engineOf n)) = true ∧ (p n ∨ OnPath s n)) ∧
  t = { s with regs := t.regs, mem := t.mem, memBad := t.memBad, lane := { s.lane with groups := t.lane.groups } }

end Sys2Proof.Machine

/-- Adaptive gain writes RHO and LI_GAIN of exactly the MZI elements with a full snapshot, heater offload moves a trim by 4 codes toward centre, the Scoreboard scores
each element by its least subscore or 0; FPARK follows FAB_HOLD, and engines halted for HOLD_LIM frames are parked by POLICY; nothing happens while the
supervisors do not run (R159, R163, R164, R167).
Log entries 17 and 18 hold choices of the model that it rests on. -/
def Obligations.SupervisorsServeAndParkLoops : Prop :=
  (
  (∀ (s : State) (half : BitVec 32) (fit : CalFit) (t : Fin 12) (e : Fin 96) (p : Fin 1024) (n : Fin 10752), supvRuns s = false →
    ∀ c ∈ [Instr.adaptiveGainUpdate, .heaterOffload, .scoreboardUpdate, .characterisationStep half, .characterisationRecord fit,
      .fparkWrite t, .haltHoldLimit e, .pilotAmplitudeRecompute p, .hfltWordWrite n, .eventQueueDrain e], exec c s = .next s) ∧
  ∀ s : State, supvRuns s = true →
    (ListedOnce s → Completes .adaptiveGainUpdate s fun t =>
      t = { s with mem := t.mem, memBad := t.memBad, free := t.free, sup := { s.sup with elems := t.sup.elems } } ∧
      OnlyElemWords s t (fun n w => n ∈ listedElems s ∧ adaptDue s n = true ∧ (w = wRHO ∨ w = wLIGAIN)) ∧
      ∀ n ∈ listedElems s, adaptDue s n = true → Fp.finite (elemWord s n wSN1) = true → Fp.finite (elemWord s n wSN2) = true →
        let beta := Fp.isqrt (betaSq (Fp.mag (elemWord s n wSN1)) (Fp.mag (elemWord s n wSN2)) (Fp.mag (elemWord s n wSNN)) * fxOne)
        beta ≠ 0 → elemWord t n wLIGAIN = Fp.ofRat false (2 * fxOne * fxOne) (fxPi * beta) ∧
          elemWord t n wRHO = Fp.clamp (Fp.ofRat (Fp.neg (elemWord s n wGNOM))
            (Fp.mag (elemWord s n wGNOM) * (Fp.mag (elemWord s n wTONEA) * fxPi)) (2 ^ 298 * beta)) fHalf f2) ∧
    (ListedOnce s → Completes .heaterOffload s fun t =>
      t = { s with lane := { s.lane with trims := t.lane.trims }, sup := { s.sup with elems := t.sup.elems } } ∧
      ∀ n < 10752, runTrim t n = if n ∈ listedElems s ∧ offloadDue s n = true then
        (if (supOf s n).heatUp = driveHigh s n then min (runTrim s n + 4) 4095 else runTrim s n - 4) else runTrim s n) ∧
    Completes .scoreboardUpdate s (fun t =>
      t = { s with sup := { s.sup with elems := t.sup.elems, queue := t.sup.queue } } ∧
      (∀ n ∈ listedElems s, elemSlp s n = true → (scoreForced s n = true → (supOf t n).score = 0) ∧
        (scoreForced s n = false → (supOf t n).score =
          min (min (supOf t n).headroom (supOf t n).lock) (min (min (supOf t n).settle (supOf t n).drift) (ageScore s n))) ∧
        (supOf t n).score ≤ (supOf t n).headroom ∧ (supOf t n).score ≤ (supOf t n).lock ∧ (supOf t n).score ≤ (supOf t n).settle ∧
        (supOf t n).score ≤ (supOf t n).drift ∧ (supOf t n).score ≤ ageScore s n) ∧
      ∃ l, t.sup.queue = s.sup.queue ++ l ∧ ∀ p ∈ l, p.2 = none ∧ p.1 ∈ listedElems s ∧ elemVoa s p.1 = false ∧ ageScore s p.1 < 128 ∧
        elemLit s p.1 = false)) ∧
  (
  ∀ s : State, supvRuns s = true →
    (∀ t : Fin 12, Completes (.fparkWrite t) s fun u =>
      OnlyParks s u (fun n => n / 896 = t) ∧
      ∀ n < 10752, n / 896 = t → bankRom s (engineOf n) (actBank s (engineOf n)) = true →
        elemWord u n wFPARK = if bit s (A.tileStat t) tsHoldOut || parkWanted s n ||
          decide (s.tim.frames < (engOf s (engineOf n)).parkTo) then f1
          else if elemIs s n wFPARK f1 && lpWaits s n then elemWord s n wFPARK else f0) ∧
    ∀ e : Fin 96, (engHalted s e = false → exec (.haltHoldLimit e) s = .next s) ∧
      (engHalted s e = true → Completes (.haltHoldLimit e) s fun u =>
        OnlyParks s u (fun _ => False) ∧
        (∀ a, a ≠ A.parkMask0 e → a ≠ A.parkMask1 e → a ≠ A.parkMask2 e → a ≠ A.parkMask3 e →
          (∀ m : Fin 12, a ≠ grpCtrl m ∧ a ≠ grpStat m) → rd u a = rd s a) ∧
        ∀ i < 112, (bit u (parkMaskAt e i) (i % 32) = true ↔ bit s (parkMaskAt e i) (i % 32) = true ∨
          (elemIs s (112 * e + i) wPOLICY f1 = false ∧
            Fp.scaleRne (elemWord s (112 * e + i) wHOLDLIM) 1 1 ≤ Int.ofNat (s.tim.frames - (engOf s e).haltedAt)))))

/-- A characterisation takes the queue's first element that is still accepted through its dark step and its 1,024 sweep steps (and the Phase step of
an MZI element), each when its frames are counted; one that R166 no longer accepts is dropped; the record step ends it with the old bank where the fit fails, with the rescaled bank
where it holds, after the ECT record of an MZI element is written (R165, R166, Table SL-5).
Log entries 22, 23 and 80 hold choices of the model that it rests on. -/
def Obligations.CharacterisationRunsItsSteps : Prop :=
  ∀ s : State, supvRuns s = true →
    (∀ half : BitVec 32,
      (s.sup.run = none → s.sup.queue = [] → exec (.characterisationStep half) s = .next s) ∧
      (∀ e tag rest, s.sup.run = none → s.sup.queue = (e, tag) :: rest →
        (elemAssigned s e && elemSlp s e && calAccepted s e && (tag.isSome || s.pipe.calPath.isSome)) = false →
        Completes (.characterisationStep half) s fun t => t.sup.run = none ∧ t.sup.queue = rest ∧ t.pipe = s.pipe ∧ t.mem = s.mem) ∧
      (∀ e tag rest, s.sup.run = none → s.sup.queue = (e, tag) :: rest → elemAssigned s e = true → elemSlp s e = true →
        calAccepted s e = true → (tag.isSome = true ∨ s.pipe.calPath.isSome = true) →
        Completes (.characterisationStep half) s fun t =>
          (∃ r, t.sup.run = some r ∧ r.elem = e ∧ r.tag = tag ∧ r.stage = .enter ∧ r.mode = (s.fab.topo.map fun p => settingWord p s.fab.map e 1).getD f1 ∧ r.bank = elemWord s e wCBANK ∧
            t.pipe.waiting = s.pipe.waiting ++
              [{ id := s.pipe.nextId, by_ := .calEnter, owner := 64, ask := .cal e true f5 (elemWord s e wCBANK) r.conn, time := none }]) ∧
          t.sup.queue = s.sup.queue.filter (fun p => decide (p.1 ≠ e)) ∧
          t = { s with sup := { s.sup with queue := t.sup.queue, run := t.sup.run }, pipe := { s.pipe with nextId := t.pipe.nextId, waiting := t.pipe.waiting } }) ∧
      ∀ r, s.sup.run = some r →
        (calDone s r.elem = false → exec (.characterisationStep half) s = .next s) ∧
        (calDone s r.elem = true → Completes (.characterisationStep half) s fun t =>
          (r.stage ≠ .dark → t.regs = s.regs ∧ t.lane = s.lane) ∧
          t = { s with
            regs := t.regs, mem := t.mem, memBad := t.memBad, lane := { s.lane with groups := t.lane.groups },
            sup := { s.sup with run := t.sup.run } } ∧
          match r.stage with
          | .dark => elemWord t r.elem wCALV = sweepV s r.elem 0 ∧ elemWord t r.elem wCALCNT = 0x41000000#32 ∧
              t.sup.run = some { r with dk0 := calMean s r.elem wCALS0, dk1 := calMean s r.elem 75, stage := .sweep 0 }
          | .sweep k =>
              (k < 1023 → elemWord t r.elem wCALV = sweepV s r.elem (k + 1) ∧ t.sup.run.map (·.stage) = some (.sweep (k + 1))) ∧
              (1023 ≤ k → elemVoa s r.elem = true → t.sup.run.map (·.stage) = some .record ∧ t.mem = s.mem) ∧
              (1023 ≤ k → elemVoa s r.elem = false → elemWord t r.elem wCALV = half ∧ elemWord t r.elem wCALCNT = 0x45800000#32 ∧
                t.sup.run.map (·.stage) = some .phase)
          | .phase => t = { s with sup := { s.sup with run := some { r with stage := .record } } }
          | _ => t = s)) ∧
    ∀ (r : CalRun) (fit : CalFit), s.sup.run = some r → r.stage = .record → r.fit = none →
      let poor := r.usable * 100 < r.counted * 95 ∨ calWritable s r = false ∨ (elemVoa s r.elem = false ∧ Fp.lt 0x3CA3D70A#32 fit.rms = true) ∨
        Fp.mag (Fp.abs fit.gain) = 0
      let leave (b : Word) : Req :=
        { id := s.pipe.nextId, by_ := .calLeave, owner := 64, ask := .cal r.elem false r.mode b r.conn, time := none }
      (poor → Completes (.characterisationRecord fit) s fun t =>
        (supOf t r.elem).calFail = true ∧ (supOf t r.elem).score = 0 ∧ t.sup.run = some { r with stage := .leave } ∧
        t.pipe.waiting = s.pipe.waiting ++ [leave r.bank] ∧ t.nvm = s.nvm ∧ t.fab = s.fab ∧
        ∀ a, (∀ m : Fin 12, a ≠ grpCtrl m ∧ a ≠ grpStat m) → rd t a = rd s a) ∧
      (¬poor → elemVoa s r.elem = true → Completes (.characterisationRecord fit) s fun t =>
        (supOf t r.elem).calFail = false ∧ (supOf t r.elem).known = true ∧ t.sup.run = some { r with fit := some fit, stage := .leave } ∧
        elemWord t r.elem wGNOM = Fp.abs fit.gain ∧ elemWord t r.elem wVREF = r.best ∧
        elemWord t r.elem wSGN = (if Fp.neg fit.gain then fMinus1 else f1) ∧
        t.pipe.waiting = s.pipe.waiting ++ [leave (if Fp.lt r.bank fHalf then f1 else f0)] ∧ t.nvm = s.nvm ∧ t.fab = s.fab) ∧
      (¬poor → elemVoa s r.elem = false → Completes (.characterisationRecord fit) s fun t =>
        t.sup.run = some { r with fit := some fit } ∧ bit t A.nvmStat 30 = true ∧
        (∃ x, t.nvm.queue = s.nvm.queue ++ [x] ∧ x.after = .charact r.elem ∧ x.tag = none ∧ x.recs.length = 1) ∧
        t = { s with regs := t.regs, nvm := { s.nvm with queue := t.nvm.queue }, sup := { s.sup with run := t.sup.run } })

/-! ## The commit pipeline and Line Call -/

namespace Sys2Proof.Machine

/-- A command that held a tag ends with a status. -/
def CommandEnds (s t : State) (tag status : Nat) : Prop :=
  ∃ l, t.host.done = s.host.done ++ l ∧ ∃ d ∈ l, d.tag = tag ∧ d.status = status
/-- What holds of the commit in progress, which stays unless it is a group's. -/
def CurrentCommit (c : Commit) (t : State) (p : Commit → Prop) : Prop :=
  (c.group = none → t.pipe.cur.isSome = true) ∧ ∀ d, t.pipe.cur = some d → p d

end Sys2Proof.Machine

/-- A batch closes when the solver is free; its solution starts from the map the commit before it leaves and keeps acceptance order; a search past
its bound fails every request, at once or once the outcome before is final, but not on a table of class BENES; a solved commit is staged and
armed once no commit is in progress and its lane groups are out of low-power mode, and one whose every request failed, or that comes later than 1.0 us before T, is dropped; nothing
happens while the supervisors do not run (R83, R172, R173, R174, R177). Log entry 20 holds a choice of the model that it rests on.
Log entries 20 and 21 hold choices of the model that it rests on. -/
def Obligations.BatchesAreSolvedAndStaged : Prop :=
  (∀ (s : State) (answers : List RouteAnswer) (q : Fin 1024), supvRuns s = false →
    ∀ c ∈ [Instr.batchClose, .solveDone answers, .routeTimeout, .stageCommit answers, .revertStage, .pendingLightRelease q, .connBarrierComplete,
      .lcWindowOpen q, .lcWindowClose q, .lcEscalationDone q, .lcAudit], exec c s = .next s) ∧
  ∀ s : State, supvRuns s = true →
    (s.pipe.batch = none → s.pipe.next = none → closing s ≠ [] → Completes .batchClose s fun t =>
      t = { s with pipe := { s.pipe with
        batch := some (closing s), waiting := s.pipe.waiting.filter fun r => !(closing s).contains r } }) ∧
    (s.pipe.batch.isSome = true ∨ s.pipe.next.isSome = true ∨ closing s = [] → exec .batchClose s = .next s) ∧
    (∀ l answers, s.pipe.batch = some l →
      let c := makeCommit s (baseMap s) (answered l answers) (batchTime s l) (l.findSome? reqGroup)
      ((c.reqs.all fun x => !x.owed) = true → Completes (.solveDone answers) s fun t =>
        t.pipe.next = some c ∧ t.pipe.batch = none ∧ c.mapA = baseMap s ∧ c.time = batchTime s l ∧ c.stage = .solved ∧
        c.reqs.map (·.req) = l ∧ c.gated = gatedOuts s c.mapA c.mapB ∧ t.fab.map = s.fab.map ∧
        (s.pipe.edits = [] → t = { s with pipe := { s.pipe with batch := none, next := some c } })) ∧
      ((c.reqs.all fun x => !x.owed) = false → exec (.solveDone answers) s = .next s)) ∧
    (∀ l, s.pipe.batch = some l → s.fab.topo.any (·.benes) = false →
      (s.pipe.cur = none → Completes .routeTimeout s fun t =>
        t.pipe.batch = none ∧ t.pipe.next = s.pipe.next ∧ t.pipe.cur = none ∧ t.fab.map = s.fab.map ∧
        (s.pipe.edits = [] → (∀ r ∈ l, r.undo = []) → t.regs = s.regs ∧ t.fab = s.fab) ∧
        ∀ r ∈ l, ∀ tag, r.by_ = .command tag → CommandEnds s t tag St.routeTimeout) ∧
      (s.pipe.cur ≠ none → Completes .routeTimeout s fun t => ∃ c, c.reqs.map (·.req) = l ∧ (∀ x ∈ c.reqs, x.status = St.routeTimeout) ∧
        t = { s with pipe := { s.pipe with batch := none, next := some c } })) ∧
    (s.fab.topo.any (·.benes) = true → exec .routeTimeout s = .next s) ∧
    ∀ c again, s.pipe.cur = none → s.pipe.next = some c →
      (c.allFailed = true → (c.reqs.all fun x => !x.owed) = true → Completes (.stageCommit again) s fun t =>
        t.pipe.next = none ∧ t.pipe.cur = none ∧ t.fab.map = s.fab.map ∧
        ∀ x ∈ c.reqs, ∀ tag, x.req.by_ = .command tag → CommandEnds s t tag x.status) ∧
      (c.allFailed = false → mayArm s c = false → exec (.stageCommit again) s = .next s) ∧
      (c.allFailed = false → mayArm s c = true → lpGroups s c ≠ [] → Completes (.stageCommit again) s fun t =>
        (∀ g ∈ lpGroups s c, bit t (grpStat g) 29 = false) ∧ t = { s with regs := t.regs, lane := { s.lane with groups := t.lane.groups } }) ∧
      (c.allFailed = false → mayArm s c = true → lpGroups s c = [] → ((recheck s c again).reqs.all fun x => !x.owed) = true →
        Completes (.stageCommit again) s fun t =>
          t.pipe.next = none ∧ t.fab.map = s.fab.map ∧ t.eng.strobe = s.eng.strobe ∧
          ((recheck s c again).allFailed = true → t.pipe.cur = none) ∧
          ((recheck s c again).allFailed = false → dueIn s c.time 1000 < 0 → t.pipe.cur = none ∧
            ∀ x ∈ (recheck s c again).reqs, ∀ tag, x.req.by_ = .command tag → x.status = 0 → CommandEnds s t tag St.commitNotStaged) ∧
          ((recheck s c again).allFailed = false → 0 ≤ dueIn s c.time 1000 → t.fab = s.fab ∧
            ∃ d, t.pipe.cur = some d ∧ d.stage = .armed ∧ d.mapA = (recheck s c again).mapA ∧ d.mapB = (recheck s c again).mapB ∧
              (d.complete = true → ∀ e ∈ runEngines s, bit t (A.engSpbank e) 2 = true ∧ fld t (A.engSpbank e) 1 0 = 1)) ∧
          ∀ x ∈ (recheck s c again).reqs, ∀ tag, x.req.by_ = .command tag → x.status ≠ 0 → CommandEnds s t tag x.status) ∧
      (c.allFailed = false → mayArm s c = true → lpGroups s c = [] → ((recheck s c again).reqs.all fun x => !x.owed) = false →
        exec (.stageCommit again) s = .next s)

/-- At T the strobe falls and the commit settles, or is to be reverted where an engine with changed elements cannot take it; a commit not completely
staged 1.0 us before T leaves the pipeline and its requests end COMMIT_NOT_STAGED; once the settle set is resolved, map B is in force at
once for an empty gated set, else the light strobe is due at least 4 frames after the last element settled; the light strobe puts map B in
force; an unsettled element at engine frame j+28 makes the commit revert; no strobe falls in the safe state or after a THERMTRIP (R169, R182, R186, R187, R190, Table CM-5).
Log entry 19 holds a choice of the model that it rests on. -/
def Obligations.CommitsAreStruckSettledAndLit : Prop :=
  ∀ (s : State) (c : Commit), s.pipe.cur = some c →
    (mayStrobe s = true → s.pipe.stepFail = false → c.stage = .armed → c.complete = true → atInstant s c.time = true →
      (c.group.all fun id => (findHGroup s id).any (·.go)) = true →
      Completes .transitStrobe s fun t =>
        t.eng.strobe = true ∧ t.fab.map = s.fab.map ∧ CurrentCommit c t fun d => d.frame = frameNo s ∧ d.mapA = c.mapA ∧ d.mapB = c.mapB ∧
          if (c.changed.any fun n => !(runEngines s).contains (engineOf n) || !bit s (A.engSpbank (engineOf n)) 2) = true then
            d.stage = .reverting ∧ d.why = St.settleFailed else d.stage = .settling) ∧
    (atInstant s c.time = false → s.hdl.slots = [] → exec .transitStrobe s = .next s) ∧
    (supvRuns s = true → c.stage = .armed → s.pipe.stepFail = false → dueBy s c.time 1000 = true → stagingLacks s c = true →
      Completes .stagingDeadline s fun t => t.pipe.cur = none ∧ t.fab.map = s.fab.map ∧
        ∀ x ∈ c.reqs, ∀ tag, x.req.by_ = .command tag → x.status = 0 → CommandEnds s t tag St.commitNotStaged) ∧
    (supvRuns s = true → c.stage = .settling → resolved s c false = true → Completes .settleResolved s fun t =>
      (c.gated = [] → t.fab.map = c.mapB ∧ (c.group = none → t.pipe.cur = none)) ∧
      (c.gated ≠ [] → t.fab.map = s.fab.map ∧ CurrentCommit c t fun d => ∃ n, d.stage = .light n ∧ d.mapB = c.mapB ∧
        c.lastAt + 4 ≤ n ∧ (c.settle.all c.settled.contains = true → n = c.lastAt + 4))) ∧
    (supvRuns s = true → c.stage = .settling → c.frame + 28 ≤ s.tim.frames → Completes .settleDeadline s fun t =>
      (resolved s c true = false → t.fab.map = s.fab.map ∧ CurrentCommit c t fun d => d.stage = .reverting ∧ d.why = St.settleFailed) ∧
      (resolved s c true = true → c.gated = [] → t.fab.map = c.mapB) ∧
      (resolved s c true = true → c.gated ≠ [] → t.fab.map = s.fab.map ∧ CurrentCommit c t fun d => d.stage = .light (c.frame + 32))) ∧
    (∀ n, mayStrobe s = true → c.stage = .light n → n ≤ frameNo s → Completes .lightStrobe s fun t =>
      t.eng.strobe = true ∧ t.fab.map = c.mapB ∧ (c.group = none → t.pipe.cur = none) ∧
      ∀ d, t.pipe.cur = some d → d.stage = .applied) ∧
    (∀ n, c.stage = .light n → frameNo s < n → s.hdl.slots = [] → exec .lightStrobe s = .next s) ∧
    (mayStrobe s = false → s.hdl.slots = [] → exec .transitStrobe s = .next s ∧ exec .lightStrobe s = .next s)

/-- A commit that failed is staged back once no strobe is still to rotate its windows, in the engines that took part, struck to its dark image and then to map A, which is in force again, 4 frames after its settle set is
resolved and at the latest 32 after the first strobe; its requests end with the reason. A connection left dark reopens once every element it
waits for has settled, and a barrier ends once everything accepted before it has (R175, R187, R192, Table CM-3). -/
def Obligations.CommitsRevertToMapA : Prop :=
  (∀ (s : State) (c : Commit), s.pipe.cur = some c →
    (supvRuns s = true → c.stage = .reverting → s.eng.strobe = true → exec .revertStage s = .next s) ∧
    (supvRuns s = true → c.stage = .reverting → s.eng.strobe = false → Completes .revertStage s fun t =>
      t.fab = s.fab ∧ t.eng.strobe = s.eng.strobe ∧ (∃ d, t.pipe.cur = some d ∧ d.stage = .revArmed ∧ d.mapA = c.mapA) ∧
      ∀ e ∈ runEngines s, e ∉ c.missed → bit t (A.engSpbank e) 2 = true ∧ fld t (A.engSpbank e) 1 0 = if c.gated = [] then 2 else 1) ∧
    (mayStrobe s = true → c.stage = .revArmed → c.gated ≠ [] → c.stagedAt + 5 ≤ frameNo s → Completes .revertTransitStrobe s fun t =>
      t.eng.strobe = true ∧ t.regs = s.regs ∧ t.mem = s.mem ∧ t.fab = s.fab ∧
      ∃ d, t.pipe.cur = some d ∧ d.stage = .revSettling ∧ d.lastAt = frameNo s ∧ d.settled = [] ∧ d.mapA = c.mapA) ∧
    (frameNo s < c.stagedAt + 5 → exec .revertTransitStrobe s = .next s) ∧
    (mayStrobe s = true → ((c.stage = .revArmed ∧ c.gated = []) ∨ (c.stage = .revSettling ∧
        ((c.resolvedAt.any fun a => decide (a + 4 ≤ frameNo s)) = true ∨ c.revAt + 32 ≤ frameNo s))) →
      Completes .revertLightStrobe s fun t =>
        t.eng.strobe = true ∧ t.fab.map = c.mapA ∧ t.pipe.cur = none ∧ t.pipe.next = none ∧ t.pipe.batch = none ∧
        ∀ x ∈ c.reqs, ∀ tag, x.req.by_ = .command tag → x.status = 0 → CommandEnds s t tag c.why)) ∧
  ∀ s : State, supvRuns s = true →
    (∀ q : Fin 1024, (s.pipe.dark.any fun d => decide (d.out = q.val) && d.elems.all fun n => (supOf s n).settleT.isSome) = true →
      Completes (.pendingLightRelease q) s fun t =>
        t.pipe.dark = s.pipe.dark.filter (fun d => decide (d.out ≠ q.val)) ∧ t.fab = s.fab ∧
        (∀ a, (∀ m : Fin 12, a ≠ grpCtrl m ∧ a ≠ grpStat m) → rd t a = rd s a) ∧
        (∀ r, outConn s.fab.map q = some r → unverifiable s r.conn = false →
          ∃ w ∈ t.pipe.wins, w.out = q.val ∧ w.start = s.tim.frames + 16 ∧ w.open_ = false ∧ w.event = true)) ∧
    (∀ q : Fin 1024, (∀ d ∈ s.pipe.dark, d.out = q.val → (d.elems.all fun n => (supOf s n).settleT.isSome) = false) →
      exec (.pendingLightRelease q) s = .next s) ∧
    Completes .connBarrierComplete s fun t =>
      t.pipe.barriers = s.pipe.barriers.filter (fun b => openBefore s b.id) ∧
      (∀ b ∈ s.pipe.barriers, openBefore s b.id = false → CommandEnds s t b.tag St.success) ∧
      t = { s with pipe := { s.pipe with barriers := t.pipe.barriers }, host := { s.host with done := t.host.done } }

namespace Sys2Proof.Machine

/-- The window of output `q` ends with a result code: it is gone, the output's last result and every report that waits for it have the code, and
a misdelivery, or missing light where LC_BLOCK is set, blocks the output. -/
def WindowEnds (s t : State) (q code : Nat) : Prop :=
  winOf t q = none ∧ (∀ x, sget (fun _ => none) s.pipe.results q = some x → (sget (fun _ => none) t.pipe.results q).map (·.lc) = some (some code)) ∧
  (∀ q', q' ∈ t.pipe.blocked ↔ q' ∈ s.pipe.blocked ∨ (q' = q ∧ (code = 3 ∨ (code = 4 ∧ s.pipe.lcBlock = true)))) ∧
  t.regs = s.regs ∧ t.fab = s.fab ∧ t.pipe.cur = s.pipe.cur ∧ t.pipe.waiting = s.pipe.waiting

end Sys2Proof.Machine

/-- A Line Call window opens at its frame and, where no park of the output's tile has ended it, closes after 16,384 frames with the first of these
that holds: too many flagged samples, no light, the expected pilot; otherwise, where the recorder had frozen or the HBM is untrained, one more window, else the scan,
which ends with the strongest other pilot or none. Results 3, and 4 with LC_BLOCK, block the output; an audit opens a window on every
measurable connection (R194 to R199). Log entries 79 and 110 hold choices of the model that it rests on.
Log entry 79 holds a choice of the model that it rests on. -/
def Obligations.LineCallWindowsEndInAResult : Prop :=
  ∀ s : State, supvRuns s = true →
    (∀ (q : Fin 1024) (w : LcWin), winOf s q = some w →
      let flagged := (w.samples.filter (·.isNone)).length
      let d := lcSums s q w
      let expected := (outConn s.fab.map q).any fun r => lcPresent s d (lcPower s d r.conn.inp)
      (w.open_ = false → w.start ≤ s.tim.frames + 1 → Completes (.lcWindowOpen q) s fun t =>
        t = { s with pipe := { s.pipe with wins := t.pipe.wins } } ∧ winOf t q = some { w with open_ := true } ∧
        ∀ q', q' ≠ q.val → winOf t q' = winOf s q') ∧
      (w.open_ = true ∨ s.tim.frames + 1 < w.start → exec (.lcWindowOpen q) s = .next s) ∧
      (w.open_ = true → w.scanning = false → w.parked = true → Completes (.lcWindowClose q) s (WindowEnds s · q 5)) ∧
      (w.open_ = true → w.scanning = false → w.parked = false → 16384 ≤ w.samples.length →
        (16384 < flagged * 100 → Completes (.lcWindowClose q) s (WindowEnds s · q 5)) ∧
        (flagged * 100 ≤ 16384 → lcLit s d = false → Completes (.lcWindowClose q) s (WindowEnds s · q 2)) ∧
        (flagged * 100 ≤ 16384 → lcLit s d = true → expected = true → Completes (.lcWindowClose q) s (WindowEnds s · q 1)) ∧
        (flagged * 100 ≤ 16384 → lcLit s d = true → expected = false → Completes (.lcWindowClose q) s fun t =>
          winOf t q = some (if (bit s A.repStat repFrozen = true ∨ bit s A.hbmStat 31 = false) ∧ w.second = false then
            { w with open_ := false, second := true, start := s.tim.frames + 1, samples := [] } else { w with scanning := true }) ∧
          t = { s with pipe := { s.pipe with wins := t.pipe.wins } })) ∧
      (w.open_ = false ∨ w.scanning = true ∨ (w.parked = false ∧ w.samples.length < 16384) → exec (.lcWindowClose q) s = .next s) ∧
      (w.scanning = true →
        let found := lcStrongest s d (((outConn s.fab.map q).map (·.conn.inp)).getD 1024)
        (found.isSome = true → Completes (.lcEscalationDone q) s (WindowEnds s · q 3)) ∧
        (found = none → Completes (.lcEscalationDone q) s (WindowEnds s · q 4))) ∧
      (w.scanning = false → exec (.lcEscalationDone q) s = .next s)) ∧
    (s.pipe.lcAudit ≠ 0 → s.pipe.auditAt ≤ s.clk.mono → Completes .lcAudit s fun t =>
      t.pipe.auditAt = s.pipe.auditAt + s.pipe.lcAudit * 768000 ∧
      t = { s with pipe := { s.pipe with auditAt := t.pipe.auditAt, wins := t.pipe.wins } } ∧
      ∀ r ∈ s.fab.map.conns, unverifiable s r.conn = false →
        ∃ w, winOf t r.conn.out = some w ∧ (winOf s r.conn.out = none → w.start = s.tim.frames + 1 ∧ w.open_ = false)) ∧
    (s.pipe.lcAudit = 0 ∨ s.clk.mono < s.pipe.auditAt → exec .lcAudit s = .next s)

/-! ## Korotte links and Huddle -/

/-- A HELLO goes out on every enabled link whose FIFO is open with the device's address, its partition and the tick; a received one with the right domain and an address
other than the own one counts, the fourth in a row brings the link up, and any other takes it down; 300 µs without a good one, or a lane
whose FEC lost lock, take the link down and empty its replay buffer; links follow the EN of their lead lanes (R206, R207, R208, R212).
Log entry 74 holds a choice of the model that it rests on. -/
def Obligations.KorotteLinksFollowHellos : Prop :=
  ∀ (s : State) (n : Fin 8),
    (domRuns s 56 = true → fifoHeld s 56 = false → 0 < (kLink s n).lanes → Completes (.helloSend n) s fun t =>
      t.outs = s.outs ++ [.hello n (rd s A.klkAddr) (credInForce s n) s.tim.tick] ∧
      fld t (A.klkTxfrm n) 31 0 = min (fld s (A.klkTxfrm n) 31 0 + 1) (2 ^ 32 - 1) ∧
      (∀ a, a ≠ A.klkTxfrm n → rd t a = rd s a) ∧ t = { s with regs := t.regs, outs := t.outs }) ∧
    (domRuns s 56 = false ∨ fifoHeld s 56 = true ∨ (kLink s n).lanes = 0 → exec (.helloSend n) s = .next s) ∧
    (∀ domain addr cred rtt, domRuns s (48 + n) = true → 0 < (kLink s n).lanes →
      (∀ i < (kLink s n).lanes, fifoHeld s (48 + n + i) = false) → Completes (.helloReceive n domain addr cred rtt) s fun t =>
      (rd t (A.klkPeer n)).toNat = domain.toNat * 65536 + addr ∧ (∀ m, m ≠ n.val → kLink t m = kLink s m) ∧
      (domain.toNat ≠ ownDomain s ∨ addr.val = ownAddr s →
        klkUp t n = false ∧ (kLink t n).barred = true ∧ (kLink t n).good = 0 ∧ (kLink t n).unacked = [] ∧
        (domain.toNat ≠ ownDomain s → bit t A.klkEvt 4 = true) ∧ (addr.val = ownAddr s → bit t A.klkEvt 5 = true)) ∧
      (domain.toNat = ownDomain s → addr.val ≠ ownAddr s →
        (kLink t n).barred = false ∧ (kLink t n).good = min 4 ((kLink s n).good + 1) ∧ (kLink t n).lastHello = s.clk.mono ∧
        (kLink t n).peerCred = cred ∧ (klkUp t n = true ↔ klkUp s n = true ∨ 3 ≤ (kLink s n).good) ∧
        (klkUp s n = false → 3 ≤ (kLink s n).good → bit t A.klkEvt 2 = true ∧ (kLink t n).txSeq = 0 ∧ (kLink t n).rxSeq = 0 ∧
          (kLink t n).ownCred = credInForce s n ∧ ∀ c < 4, creditsOf (kLink t n) c = credOf cred c))) ∧
    (0 < (kLink s n).good → 230400 ≤ s.clk.mono - (kLink s n).lastHello → Completes (.helloTimeout n) s fun t =>
      klkUp t n = false ∧ (kLink t n).good = 0 ∧ (kLink t n).unacked = [] ∧ (kLink t n).queues = (kLink s n).queues ∧
      (klkUp s n = true → bit t A.klkEvt 3 = true ∧ bit t (A.klkLevt n) 1 = true) ∧ ∀ m, m ≠ n.val → kLink t m = kLink s m) ∧
    ((kLink s n).good = 0 ∨ s.clk.mono - (kLink s n).lastHello < 230400 → exec (.helloTimeout n) s = .next s) ∧
    Completes (.fecLockLoss n) s (fun t => (∀ l, klkLead s n = some l → klkUp t l = false ∧ (kLink t l).unacked = []) ∧
      (klkLead s n = none → bit t (A.klkLstat n) 3 = false ∧ (∀ a, a ≠ A.klkLstat n → rd t a = rd s a) ∧ t = { s with regs := t.regs })) ∧
    (∀ en bond, writeTaken s (A.klkLctrl n) = true → Completes (.klkLaneEnWrite n en bond) s fun t =>
      fld t (A.klkLctrl n) 2 0 = 2 * bond + en.toNat ∧
      (∀ l < 8, 0 < (kLink t l).lanes → laneEn t l = true) ∧
      ∀ l < 8, (klkLead t l).isSome = true ∨ coveredLane t l = true ∨ laneEn t l = false ∨ lanesFree t l (bondWidth t l) = false)

namespace Sys2Proof.Machine

/-- A frame that passed its checks, without link fields that say anything to the peer, on a link that is up. -/
def PlainFrame (s : State) (n : Fin 8) (b : List (List Byte)) (f : List Byte) : Prop :=
  0 < (kLink s n).lanes ∧ klkUp s n = true ∧ domRuns s (48 + n) = true ∧ klkCheck (laneJoin b) = .ok f ∧ beAt f 12 2 < 32768 ∧ frameType f ≠ 0

/-- A frame on the lanes of link `n`, in 64-byte units (R208). -/
def onLanes (s : State) (n : Nat) (b : List Byte) : List Out :=
  ((List.range (kLink s n).lanes).filter fun i => laneShare (kLink s n).lanes i b != []).map fun i =>
    .korotte (n + i) (laneShare (kLink s n).lanes i b)

end Sys2Proof.Machine

/-- A link sends a LINK frame with what it owes the peer first, then what is to be resent, then the first class with credits, each sealed with its
sequence number and striped over the lanes; the frame expected is accepted and acknowledged, one behind is acknowledged again, one ahead or
with a wrong CRC, or lost in the packet buffer, is answered by one NAK; 10 µs without progress resend everything, sixteen times at most; a tunnel datagram that fails the
checks is counted and a fragment or another port's is none; a next-hop entry takes the value written (R208 to R215). Log entry 34 holds
choices of the model that it rests on.
Log entry 34 holds a choice of the model that it rests on. -/
def Obligations.KorotteFramesAreSequenced : Prop :=
  ∀ (s : State) (n : Fin 8),
    (klkUp s n = false → exec (.korotteFrameSend n) s = .next s ∧ exec (.korotteRetryTimeout n) s = .next s ∧
      ∀ b cor unc, Completes (.korotteFrameReceive n b cor unc) s fun t => t.klk = s.klk ∧ t.hdl = s.hdl) ∧
    ((kLink s n).lanes = 0 ∨ domRuns s (48 + n) = false → ∀ b cor unc, exec (.korotteFrameReceive n b cor unc) s = .next s) ∧
    (klkUp s n = true → domRuns s 56 = true →
      let x := kLink s n
      let due := x.ackDue || x.nakDue || decide (0 < (credDue x).2)
      (due = true → Completes (.korotteFrameSend n) s fun t =>
        t.outs = s.outs ++ onLanes s n (klkSeal (klkFrame 0 0 (fld s (A.klkPeer n) 13 0) (ownAddr s) 32 []) 0 (lackOf x) ((credDue x).1 * 16384 + (credDue x).2)) ∧
        (kLink t n).ackDue = false ∧ (kLink t n).nakDue = false ∧ (kLink t n).sent = x.sent ∧ (kLink t n).unacked = x.unacked ∧
        (kLink t n).txSeq = x.txSeq) ∧
      (∀ q f, due = false → x.unacked[x.sent]? = some (q, f) → Completes (.korotteFrameSend n) s fun t =>
        t.outs = s.outs ++ onLanes s n (klkSeal f q 0 0) ∧ (kLink t n).sent = x.sent + 1 ∧ (kLink t n).unacked = x.unacked) ∧
      (∀ c f, due = false → x.unacked[x.sent]? = none → sendClass x = some c → (classQueue x c).head? = some f →
        Completes (.korotteFrameSend n) s fun t =>
          t.outs = s.outs ++ onLanes s n (klkSeal f x.txSeq 0 0) ∧ (kLink t n).txSeq = (x.txSeq + 1) % 4096 ∧
          (kLink t n).unacked = x.unacked ++ [(x.txSeq, f)] ∧ classQueue (kLink t n) c = (classQueue x c).tail ∧
          creditsOf (kLink t n) c = creditsOf x c - frameCredits f) ∧
      (due = false → x.unacked[x.sent]? = none → sendClass x = none → exec (.korotteFrameSend n) s = .next s)) ∧
    (klkUp s n = true → (kLink s n).unacked ≠ [] → 7680 ≤ s.clk.mono - (kLink s n).progress → Completes (.korotteRetryTimeout n) s fun t =>
      ((kLink s n).tries < 16 → (kLink t n).sent = 0 ∧ (kLink t n).tries = (kLink s n).tries + 1 ∧ (kLink t n).unacked = (kLink s n).unacked ∧
        t = { s with klk := t.klk }) ∧
      (16 ≤ (kLink s n).tries → klkUp t n = false ∧ bit t A.klkEvt 6 = true ∧ (kLink t n).unacked = [])) ∧
    (∀ b cor unc e, 0 < (kLink s n).lanes → domRuns s (48 + n) = true → unc.bufBad = false → klkCheck (laneJoin b) = .error e →
      Completes (.korotteFrameReceive n b cor unc) s fun t =>
      (kLink t n).nak = ((kLink s n).nak || (e && klkUp s n)) ∧ (kLink t n).rxSeq = (kLink s n).rxSeq ∧
      fld t (A.klkCrcerr n) 15 0 = min (fld s (A.klkCrcerr n) 15 0 + 1) 65535 ∧
      fld t (A.klkCrcerr n) 31 16 = (if e then min (fld s (A.klkCrcerr n) 31 16 + 1) 65535 else fld s (A.klkCrcerr n) 31 16) ∧
      t = { s with regs := t.regs, klk := t.klk }) ∧
    (∀ b cor unc, 0 < (kLink s n).lanes → domRuns s (48 + n) = true → unc.bufBad = true → Completes (.korotteFrameReceive n b cor unc) s fun t =>
      (kLink t n).rxSeq = (kLink s n).rxSeq ∧ t.hdl = s.hdl ∧
      fld t (A.klkCrcerr n) 15 0 = min (fld s (A.klkCrcerr n) 15 0 + 1) 65535 ∧ fld t (A.klkCrcerr n) 31 16 = fld s (A.klkCrcerr n) 31 16) ∧
    (∀ b f cor unc, PlainFrame s n b f → unc.bufBad = false → Completes (.korotteFrameReceive n b cor unc) s fun t =>
      let q := beAt f 10 2 % 4096
      let x := kLink s n
      (q = x.rxSeq → (kLink t n).rxSeq = (x.rxSeq + 1) % 4096 ∧ (kLink t n).ackDue = true ∧ (kLink t n).nak = false) ∧
      (q ≠ x.rxSeq → 2048 ≤ (q + 4096 - x.rxSeq) % 4096 → (kLink t n).rxSeq = x.rxSeq ∧ (kLink t n).ackDue = true ∧ (kLink t n).nak = x.nak) ∧
      (q ≠ x.rxSeq → (q + 4096 - x.rxSeq) % 4096 < 2048 → (kLink t n).rxSeq = x.rxSeq ∧ (kLink t n).nak = true)) ∧
    (∀ (k : Fin 16) prio port frag b, domRuns s 56 = true →
      (frag = true ∨ port.toNat ≠ fld s A.klkUdpCtrl 31 16 → Completes (.korotteUdpReceive k prio port frag b) s fun t =>
        t.klk = s.klk ∧ t.hdl = s.hdl ∧ rd t A.klkUdpcnt = rd s A.klkUdpcnt) ∧
      (∀ e, frag = false → port.toNat = fld s A.klkUdpCtrl 31 16 → klkCheck b = .error e →
        Completes (.korotteUdpReceive k prio port frag b) s fun t =>
          t.klk = s.klk ∧ t.hdl = s.hdl ∧ fld t A.klkUdpcnt 31 16 = min (fld s A.klkUdpcnt 31 16 + 1) 65535 ∧
          fld t A.klkUdpcnt 15 0 = fld s A.klkUdpcnt 15 0) ∧
      (∀ f, frag = false → port.toNat = fld s A.klkUdpCtrl 31 16 → klkCheck b = .ok f → bit s A.klkUdpCtrl (k / 8) = true →
        secureUp s k = true → typeClass (frameType f) = some (frameClass f) → Completes (.korotteUdpReceive k prio port frag b) s fun t =>
          fld t A.klkUdpcnt 31 16 = fld s A.klkUdpcnt 31 16 ∧ fld t A.klkUdpcnt 15 0 = min (fld s A.klkUdpcnt 15 0 + 1) 65535)) ∧
    (∀ v, writeTaken s A.klkNhData = true → Completes (.nextHopWrite v) s fun t =>
      rd t (A.nextHopOf (fld s A.klkNhSel 13 0)) = v &&& 0xC003FFFF#32 ∧
      (∀ a, a ≠ A.nextHopOf (fld s A.klkNhSel 13 0) → a ≠ A.dbgStat → rd t a = rd s a) ∧ t = { s with regs := t.regs, dbg := t.dbg }) ∧
    (writeTaken s A.klkCtrl = true → Completes .klkCntClr s fun t =>
      (∀ a ∈ [A.klkFwdcnt, A.klkDropcnt, A.klkUdpcnt, A.klkTxfrm n, A.klkRxfrm n, A.klkRetry n, A.klkCrcerr n, A.klkFeccor n, A.klkFecunc n,
        A.klkStall n, A.klkLdrop n], rd t a = 0#32) ∧
      rd t A.klkCtrl = rd s A.klkCtrl ∧ rd t A.klkStat = rd s A.klkStat ∧ rd t A.klkEvt = rd s A.klkEvt ∧
      (∀ m, kLink t m = { kLink s m with stallAt := (kLink t m).stallAt }) ∧ t = { s with regs := t.regs, dbg := t.dbg, klk := t.klk })

namespace Sys2Proof.Machine

/-- The pipeline stays, but for Line Call windows that a park of an event's reactions ends. -/
def SamePipe (s t : State) : Prop := t.pipe = { s.pipe with wins := t.pipe.wins }
/-- The group is no longer open, and its end is on record. -/
def GroupClosed (t : State) (id : Nat) : Prop := findHGroup t id = none ∧ ∃ c ∈ t.hdl.closed, c.id = id
/-- A message of an open group from the member it names, in a state that by itself moves nothing. -/
def Heeded (s : State) (h : HdlHead) (g : Group_) : Prop :=
  supvRuns s = true ∧ findHGroup s h.group.toNat = some g ∧ g.time = h.time.toNat ∧ senderOf h g = some h.sender.val ∧
  h.state.val ≠ 6 ∧ h.state.val ≠ 9 ∧ g.state ≠ 5 ∧ g.state ≠ 7
/-- The group in a slot is the one its number names. -/
def InSlot (s : State) (slot : Fin 64) (g : Group_) : Prop := supvRuns s = true ∧ slotGroup s slot = some g ∧ findHGroup s g.id = some g

end Sys2Proof.Machine

/-- A PREPARE opens a group where a slot is free and HDL_EN is set, and its first fragment is otherwise refused with an event and a NO vote; the member votes once, and a
YES puts the group's changes into the pipeline; the first NO at the initiator, or a vote missing at T - G - HDL_LAT, aborts the group and
ends its command; an abort closes a member that has not been told to go, a commit is taken until T - G (R217, R221, R222, R223, R224).
Log entry 41 holds a choice of the model that it rests on. -/
def Obligations.HuddleVotesAndDecides : Prop :=
  (∀ (s : State) (h : HdlHead) (f : PrepFrag), supvRuns s = true → findHGroup s h.group.toNat = none → closedRec s h.group.toNat = none →
    (match f with
      | .params _ _ _ _ _ _ _ m => (m.any fun a => decide (a.val = ownAddr s)) = true
      | .entries .. => True) →
    (∀ k, freeSlot s = some k → bit s A.hdlCtrl 0 = true → Completes (.hdlPrepare h f) s fun t =>
      t.pipe = s.pipe ∧ t.fab = s.fab ∧ t.klk = s.klk ∧
      ∃ g, slotGroup t k = some g ∧ g.id = h.group.toNat ∧ g.time = h.time.toNat ∧ g.state = 1 ∧ g.voted = none) ∧
    (freeSlot s = none ∨ bit s A.hdlCtrl 0 = false → tellsIndex f = false → exec (.hdlPrepare h f) s = .next s) ∧
    (freeSlot s = none ∨ bit s A.hdlCtrl 0 = false → tellsIndex f = true → Completes (.hdlPrepare h f) s fun t =>
      bit t A.hdlEvt 1 = true ∧ t.hdl.slots = s.hdl.slots ∧ SamePipe s t ∧ ∃ c ∈ t.hdl.closed, c.id = h.group.toNat)) ∧
  (∀ (s : State) (h : HdlHead) (f : PrepFrag) (g : Group_), supvRuns s = true → findHGroup s h.group.toNat = some g → fragClash s h f g = true →
    exec (.hdlPrepare h f) s = .next { s with hdl := { s.hdl with dropped := s.hdl.dropped + 1 } }) ∧
  (∀ (s : State) (slot : Fin 64) (ans : RouteAnswer) (g : Group_), InSlot s slot g →
    (g.state ≠ 1 ∨ g.ready = false ∨ g.voted.isSome = true ∨ voteOwed s g ans = true → exec (.huddleVoteSend slot ans) s = .next s) ∧
    (g.state = 1 → g.ready = true → g.voted = none →
      (voteOf s g ans = 0 → Completes (.huddleVoteSend slot ans) s fun t =>
        t.pipe.nextId = s.pipe.nextId + 1 ∧ t.fab.map = s.fab.map ∧
        (g.index ≠ 0 → t.pipe.waiting = s.pipe.waiting ++ [{ id := s.pipe.nextId, by_ := .group g.id, owner := groupOwner s g, ask := .changes (ownChanges g), time := some g.time }] ∧
          ∃ u, findHGroup t g.id = some u ∧ u.voted = some 0 ∧ u.state = 2)) ∧
      (voteOf s g ans ≠ 0 → voteOwed s g ans = false → (g.index = 0 → g.decide_ = none ∧ g.members ≠ []) → Completes (.huddleVoteSend slot ans) s fun t =>
        t.pipe.nextId = s.pipe.nextId ∧ t.fab.map = s.fab.map ∧ GroupClosed t g.id))) ∧
  (∀ (s : State) (h : HdlHead) (g : Group_), Heeded s h g →
    (∀ reason : BitVec 16, g.index = 0 → g.decide_ = none → reason ≠ 0#16 → Completes (.hdlVote h reason) s fun t =>
      GroupClosed t g.id ∧ t.fab.map = s.fab.map ∧ ∀ tag, g.tag = some tag → g.forced = false → CommandEnds s t tag St.huddleVoteNo) ∧
    (h.sender.val = 0 → g.go = false → Completes (.hdlDecide h false) s fun t => GroupClosed t g.id ∧ t.fab.map = s.fab.map) ∧
    (h.sender.val = 0 → g.go = false → g.fail = none → g.decide_ = none → g.checked = false → 0 ≤ dueIn s g.time (1000 * g.g) →
      Completes (.hdlDecide h true) s fun t => SamePipe s t ∧ t.fab = s.fab ∧ ∃ u, findHGroup t g.id = some u ∧ u.decide_ = some true)) ∧
  ∀ (s : State) (slot : Fin 64) (g : Group_), InSlot s slot g →
    (g.index = 0 → g.decide_ = none → dueBy s g.time (1000 * (g.g + g.lat)) = true → Completes (.huddleVoteDeadline slot) s fun t =>
      GroupClosed t g.id ∧ t.fab.map = s.fab.map ∧ ∀ tag, g.tag = some tag → g.forced = false → CommandEnds s t tag St.huddleAborted) ∧
    (g.index ≠ 0 ∨ g.decide_.isSome = true ∨ dueBy s g.time (1000 * (g.g + g.lat)) = false →
      exec (.huddleVoteDeadline slot) s = .next s) ∧
    (g.voted = some 0 → g.checked = false → g.fail = none → dueBy s g.time (1000 * g.g) = true → Completes (.huddleDecideCheck slot) s fun t =>
      t.fab.map = s.fab.map ∧
      (g.decide_ = some true → t.pipe = s.pipe ∧
        ∃ u, findHGroup t g.id = some u ∧ u.go = true ∧ u.checked = true ∧ u.state = shown g 3 ∧ u.outs = crossOuts s g) ∧
      (g.decide_ ≠ some true → (∀ r ∈ t.pipe.waiting, reqGroup r ≠ some g.id) ∧
        ∀ u, findHGroup t g.id = some u → u.go = g.go ∧ u.checked = true))

/-- After T: an acknowledgement, an outcome, FINAL, REVERTED and REPAIR are kept as Table HD-8 states; resending changes no group; without FINAL at
T + W a revert is due at T + 2W; a FINAL_HELD member at T + 2W is in doubt, which is reported; at T_REV a member whose fabric holds map A
closes and one with B strikes back; the five parameters change only together with their constraints (R219, R225 to R231).
Log entry 41 holds a choice of the model that it rests on. -/
def Obligations.HuddleOutcomesAndReverts : Prop :=
  (∀ (s : State) (h : HdlHead) (g : Group_), Heeded s h g →
    (∀ msg : Fin 9, Completes (.hdlAck h msg) s fun t => t.fab.map = s.fab.map ∧
      (g.go = false → g.fail = none → (findHGroup t g.id).isSome = true) ∧
      ∀ u, findHGroup t g.id = some u → (msg.val = 3 → (heardOf u h.sender).decideAcked = true) ∧
        (msg.val = 7 → (heardOf u h.sender).revertedAcked = true) ∧ (msg.val = 8 → (heardOf u h.sender).repairAcked = true)) ∧
    (∀ (result : Fin 5) (status : BitVec 16), h.sender.val ≠ g.index → Completes (.hdlOutcome h result status) s fun t => t.fab.map = s.fab.map ∧
      ∀ u, findHGroup t g.id = some u → (heardOf u h.sender).outcome = some (result.val, status.toNat) ∧
        (g.index = 0 → g.final = false → g.repair = none → (result.val = 2 ∨ result.val = 3) → u.tRev.isSome = true ∧ bit t A.hdlEvt 2 = true)) ∧
    (g.state = 4 → g.applied = true → g.outcome.isSome = true → g.fail = none → 0 < dueIn s (g.time + perMs * g.w) 0 → h.sender.val = 0 →
      Completes (.hdlFinal h) s fun t => t.fab.map = s.fab.map ∧ ((∃ u, findHGroup t g.id = some u ∧ u.state = 5) ∨ GroupClosed t g.id)) ∧
    (∀ tRev : BitVec 64, Completes (.hdlReverted h tRev) s fun t => t.fab.map = s.fab.map ∧ ∀ u, findHGroup t g.id = some u → u.tRev.isSome = true) ∧
    (∀ tRev : BitVec 64, 0 ≤ dueIn s tRev.toNat 20000 → Completes (.hdlRepair h tRev) s fun t => t.fab.map = s.fab.map ∧
      ∀ u, findHGroup t g.id = some u → ∃ x, u.tRev = some x ∧ x ≤ tRev.toNat)) ∧
  (∀ (s : State) (group : BitVec 32),
    (supvRuns s = false → exec (.huddleResend group) s = .next s) ∧
    (supvRuns s = true → Completes (.huddleResend group) s fun t =>
      SamePipe s t ∧ t.fab = s.fab ∧ t.hdl = { s.hdl with slots := t.hdl.slots, tails := t.hdl.tails } ∧
      ∀ g, findHGroup s group.toNat = some g → reached s g.resendAt = true →
        findHGroup t group.toNat = some { g with resendAt := nowNs s + 1000 * g.rtx } ∧
        ∀ o i dst n, g.outcome = some o → i ∈ others g → (heardOf g i).outcomeAcked = false → g.members[i]? = some dst →
          klkRoute s (dst % 16384) = some (.link n) →
          klkFrame 0 1 dst (ownAddr s) 32 (natBe 1 5 ++ natBe 1 g.state ++ natBe 2 g.index ++ natBe 4 g.id ++ natBe 8 g.time ++ outcomeBody o) ∈
            classQueue (kLink t n) 0)) ∧
  (∀ (s : State) (slot : Fin 64) (g : Group_), InSlot s slot g →
    (dueBy s (g.time + perMs * g.w) 0 = true → g.tRev = none → (g.state = 2 ∨ g.state = 3 ∨ g.state = 4 ∨ g.state = 10) →
      Completes (.huddleNoFinalExpiry slot) s fun t => SamePipe s t ∧ t.fab = s.fab ∧
        ∃ u, findHGroup t g.id = some u ∧ u.tRev = some (g.time + 2 * perMs * g.w) ∧ u.state = 6) ∧
    (dueBy s (g.time + perMs * g.w) 0 = false ∨ g.tRev.isSome = true → exec (.huddleNoFinalExpiry slot) s = .next s) ∧
    (dueBy s (g.time + 2 * perMs * g.w) 0 = true → g.state = 5 → Completes (.inDoubt slot) s fun t => SamePipe s t ∧ t.fab = s.fab ∧
      bit t A.hdlEvt 4 = true ∧ ∃ u, findHGroup t g.id = some u ∧ u.state = 7 ∧ u.split = true ∧
        u.missing = (others g).filter fun i => !(heardOf g i).confirmed) ∧
    (dueBy s (g.time + 2 * perMs * g.w) 0 = false → exec (.inDoubt slot) s = .next s) ∧
    (∀ x, g.tRev = some x → g.leaving = false →
      (s.pipe.cur = none → dueBy s x 0 = true → Completes (.huddleRevertAtTRev slot) s fun t => GroupClosed t g.id ∧ t.fab.map = s.fab.map) ∧
      (s.pipe.cur = none → dueBy s x 0 = false → exec (.huddleRevertAtTRev slot) s = .next s) ∧
      (∀ c, s.pipe.cur = some c → c.group = some g.id → c.stage = .applied → revertDue s x = true → Completes (.huddleRevertAtTRev slot) s fun t =>
        t.eng.strobe = true ∧ (c.gated = [] → t.fab.map = c.mapA ∧ t.pipe.cur = none) ∧
        (c.gated ≠ [] → t.fab = s.fab ∧ t.pipe.cur.map (·.stage) = some .reverting)))) ∧
  (∀ (s : State) (i : Fin 5) (v : BitVec 32), writeTaken s ([A.hdlG, A.hdlW, A.hdlLat, A.hdlRtx, A.hdlMinlead].getD i 0) = true →
    let f (k a hi : Nat) : Nat := if i.val = k then v.toNat % 2 ^ (hi + 1) else fld s a hi 0
    let holds_ := paramsHold (f 0 A.hdlG 6) (f 1 A.hdlW 9) (f 2 A.hdlLat 9) (f 3 A.hdlRtx 9) (f 4 A.hdlMinlead 19)
    Completes (.hdlParamWrite i v) s fun t =>
      (holds_ = true → fld t A.hdlG 6 0 = f 0 A.hdlG 6 ∧ fld t A.hdlW 9 0 = f 1 A.hdlW 9 ∧ fld t A.hdlLat 9 0 = f 2 A.hdlLat 9 ∧
        fld t A.hdlRtx 9 0 = f 3 A.hdlRtx 9 ∧ fld t A.hdlMinlead 19 0 = f 4 A.hdlMinlead 19 ∧ t = { s with regs := t.regs, dbg := t.dbg }) ∧
      (holds_ = false → bit t A.hdlEvt 0 = true ∧ ∀ a ∈ [A.hdlG, A.hdlW, A.hdlLat, A.hdlRtx, A.hdlMinlead], rd t a = rd s a)) ∧
  ∀ s : State, writeTaken s A.hdlCtrl = true → Completes .hdlCntClr s fun t =>
    t = { s with regs := t.regs, dbg := t.dbg, hdl := { s.hdl with dropped := 0 } } ∧ ∀ a, a ≠ A.dbgStat → rd t a = rd s a

/-! ## Queues and commands -/

namespace Sys2Proof.Machine

/-- Nothing but the trace buffer differs. -/
def OnlyTraced (s u : State) : Prop := u = { s with regs := u.regs, dbg := u.dbg } ∧ ∀ a, a ≠ A.dbgStat → rd u a = rd s a
/-- The write is traced, and then an event is all that happens. -/
def OnlyEvent (s t : State) (a i src : Nat) (master : Nat := 255) (detail : Nat := 0) : Prop :=
  ∃ u, OnlyTraced s u ∧ t = (event a i src master detail).run u
/-- A fetched command as it holds its tag; one with an unknown opcode is over. -/
def fetched (s : State) (q tag : Nat) (e : Entry) : Cmd :=
  { tag := tag, queue := q, num := s.host.accepted, entry := e, started := !opcodes.contains e.opcode.toNat }

end Sys2Proof.Machine

/-- A doorbell below its queue's size is taken and any other is an event; CMD_CTRL.EN makes and ends the admin pair; the device fetches from the
admin queue first and else round-robin, gives the command the lowest free tag, and ends one with an unknown opcode; a completion that can be
posted goes to its queue and frees its tag; a deleted queue goes with its last tag; an EVENT_WAIT ends with what waits (R237 to R242,
R249, R250).
Log entries 24 and 84 hold choices of the model that it rests on. -/
def Obligations.QueuesFetchAndComplete : Prop :=
  (∀ (s : State) (q : Fin 65) (v : BitVec 32),
    (writeTaken s (A.sqTail q) = true →
      (∀ p, pairOf s q = some p → v.toNat % 4096 < p.sqSize → Completes (.sqDoorbell q v) s fun t =>
        (rd t (A.sqTail q)).toNat = v.toNat % 4096 ∧ (∀ a, a ≠ A.sqTail q → a ≠ A.dbgStat → rd t a = rd s a) ∧
        t = { s with regs := t.regs, dbg := t.dbg }) ∧
      ((∀ p, pairOf s q = some p → p.sqSize ≤ v.toNat % 4096) → Completes (.sqDoorbell q v) s (OnlyEvent s · A.cmdEvt 1 350 104))) ∧
    (writeTaken s (A.cqHead q) = true →
      (∀ p, pairOf s q = some p → v.toNat % 4096 < p.cqSize → Completes (.cqDoorbell q v) s fun t =>
        (rd t (A.cqHead q)).toNat = v.toNat % 4096 ∧ (∀ a, a ≠ A.cqHead q → a ≠ A.dbgStat → rd t a = rd s a) ∧
        t = { s with regs := t.regs, dbg := t.dbg }) ∧
      ((∀ p, pairOf s q = some p → p.cqSize ≤ v.toNat % 4096) → Completes (.cqDoorbell q v) s (OnlyEvent s · A.cmdEvt 1 350 104)))) ∧
  (∀ s : State, writeTaken s A.cmdCtrl = true →
    (bit s A.cmdCtrl 0 = false → Completes (.adminQueueEnable true) s fun t => bit t A.cmdCtrl 0 = true ∧
      bit t A.qExist0 0 = true ∧ ∃ p, pairOf t 0 = some p ∧ p.sqSize = fld s A.aqSize 11 0 + 1 ∧ p.cqSize = fld s A.aqSize 27 16 + 1 ∧
      p.sqBase = rdPair s A.asqBaseLo A.asqBaseHi ∧ p.cqBase = rdPair s A.acqBaseLo A.acqBaseHi ∧ p.vec = 0 ∧ p.sqHead = 0 ∧ p.cqTail = 0) ∧
    (bit s A.cmdCtrl 0 = true → Completes (.adminQueueEnable false) s fun t =>
      bit t A.cmdCtrl 0 = false ∧ bit t A.qExist0 0 = false ∧ pairOf t 0 = none) ∧
    Completes .cmdCntClr s fun t => rd t A.cmdCnt = 0#32 ∧ rd t A.dgramCnt = 0#32 ∧ rd t A.pciErrcnt = 0#32 ∧
      rd t A.cmdCtrl = rd s A.cmdCtrl ∧ rd t A.cmdStat = rd s A.cmdStat ∧ t = { s with regs := t.regs, dbg := t.dbg }) ∧
  (∀ (s : State) (e : Entry), bit s A.cmdStat 31 = true → pcieUp s = true → supvRuns s = true →
    (nextQueue s = none → exec (.commandFetch e) s = .next s) ∧
    ∀ q, nextQueue s = some q → (mayFetch s 0 = true → q = 0) ∧ Completes (.commandFetch e) s fun t =>
      ∃ tag, freeTag s q = some tag ∧ t.host.cmds = s.host.cmds ++ [fetched s q tag e] ∧
      (opcodes.contains e.opcode.toNat = false → CommandEnds s t tag St.opcodeInvalid) ∧
      (opcodes.contains e.opcode.toNat = true → t.host.done = s.host.done) ∧
      (pairOf t q).map (·.sqHead) = (pairOf s q).map (fun p => (p.sqHead + 1) % p.sqSize) ∧
      (∀ p, pairOf s q = some p → Out.hostRead (p.sqBase + 64 * p.sqHead) 64 ∈ t.outs) ∧
      (∀ a, a ≠ A.cmdStat → rd t a = rd s a) ∧ fld t A.cmdStat 12 0 = t.host.cmds.length % 8192 ∧
      t = { s with regs := t.regs, host := t.host, outs := t.outs }) ∧
  (∀ s : State, bit s A.cmdStat 31 = false ∨ pcieUp s = false ∨ supvRuns s = false → ∀ e, exec (.commandFetch e) s = .next s) ∧
  (∀ s : State, domInReset s 58 = false →
    (s.host.done.find? (postable s) = none → exec .completionPost s = .next s) ∧
    ∀ d c, s.host.done.find? (postable s) = some d → cmdOf s d.tag = some c → Completes .completionPost s fun t =>
      t.host.cmds = s.host.cmds.filter (fun x => decide (x.tag ≠ c.tag)) ∧ t.host.done = s.host.done.filter (fun x => decide (x ≠ d)) ∧
      (∀ p, c.dgram = none → pairOf s c.queue = some p → pcieUp s = true → c.dropped = false →
        Out.completion c.queue (p.cqBase + 16 * p.cqTail) (completionBytes c d p.sqHead p.phase) ∈ t.outs ∧
        (pairOf t c.queue).map (·.cqTail) = some ((p.cqTail + 1) % p.cqSize) ∧
        (d.data ≠ [] → Out.response d.tag c.entry.respAddr.toNat (d.data.take c.entry.respLen.toNat) ∈ t.outs)) ∧
      (c.dgram = none → pcieUp s = false ∨ c.dropped = true → t.host.pairs = s.host.pairs ∧ t.outs = s.outs) ∧
      ∀ b seq src, c.dgram = some (b, seq, src) → sget (fun _ => []) t.host.seqs b =
        (sget (fun _ => []) s.host.seqs b).map fun x => if x.seq = seq then { x with response := some (responseBytes c d seq) } else x) ∧
  (∀ (s : State) (q : Fin 65),
    (∀ tag, (pairOf s q).bind (·.deleting) = some tag → heldBy s q = 0 → Completes (.queueDeleteDone q) s fun t =>
      pairOf t q = none ∧ CommandEnds s t tag St.success ∧ t.host.cmds = s.host.cmds ∧ t.fab = s.fab) ∧
    ((pairOf s q).bind (·.deleting) = none ∨ heldBy s q ≠ 0 → exec (.queueDeleteDone q) s = .next s)) ∧
  ∀ s : State, supvRuns s = true →
    let ready (w : EvWait) : Bool := !(sget (fun _ => []) s.host.evq w.queue).isEmpty
    (s.host.waits.find? ready = none → exec .eventWaitComplete s = .next s) ∧
    ∀ w, s.host.waits.find? ready = some w → Completes .eventWaitComplete s fun t =>
      t.host.waits = s.host.waits.filter (fun x => decide (x.tag ≠ w.tag)) ∧ CommandEnds s t w.tag St.success ∧
      sget (fun _ => []) t.host.evq w.queue = (sget (fun _ => []) s.host.evq w.queue).drop w.count ∧
      t = { s with host := { s.host with evq := t.host.evq, evDrop := t.host.evDrop, waits := t.host.waits, done := t.host.done } }

/-- A datagram without a binding is dropped and counted; one whose SEQ its binding has not accepted, and which is above the highest or within 64 of
it, takes a tag and is remembered, or where no tag is free changes nothing of the record; one accepted within the last 64, or older, is not run; the PCIe link's changes and errors are recorded and reported (R243, R244, R249, R256).
Log entry 82 holds a choice of the model that it rests on. -/
def Obligations.DatagramsRunOnce : Prop :=
  (∀ (s : State) (src : Source) (f : DgramFrame) (l : List (BitVec 8)),
    (supvRuns s = false → exec (.datagramReceive src f l) s = .next s) ∧
    (supvRuns s = true → bit s A.cmdStat 31 = false ∨ sourceSecure s src = false → Completes (.datagramReceive src f l) s fun t =>
      t.host = s.host ∧ t.pipe = s.pipe ∧ t.fab = s.fab) ∧
    (supvRuns s = true → bit s A.cmdStat 31 = true → sourceSecure s src = true →
      (findBinding s src = none → Completes (.datagramReceive src f l) s fun t =>
        t.host.cmds = s.host.cmds ∧ t.host.seqs = s.host.seqs ∧ t.host.done = s.host.done) ∧
      ∀ b, findBinding s src = some b → 72 ≤ l.length → leAt l 0 2 = 0x4B43 → leAt l 2 2 = 0 →
        let seq := leAt l 4 4
        let q := bindingQueue s b
        let e := entryOf ((l.drop 8).take 64)
        let seen := sget (fun _ => []) s.host.seqs b
        let h := (rd s (A.bindingOf b 3)).toNat
        let d := seqAhead seq h
        let old := seen ≠ [] ∧ (d ≤ -64 ∨ d ≤ 0 ∧ (seen.any fun x => x.seq == seq) = true)
        let same (t : State) : Prop := t.host.cmds = s.host.cmds ∧ t.host.seqs = s.host.seqs ∧ t.host.done = s.host.done ∧
          rd t (A.bindingOf b 3) = rd s (A.bindingOf b 3)
        (old → Completes (.datagramReceive src f l) s same) ∧
        (polMode (polParam s b 0) = 0 → ¬ old →
          (freeTag s q = none → Completes (.datagramReceive src f l) s same) ∧
          ∀ tag, freeTag s q = some tag → Completes (.datagramReceive src f l) s fun t =>
            (rd t (A.bindingOf b 3)).toNat = (if seen = [] ∨ 0 < d then seq else h) ∧
            (∃ c, t.host.cmds = s.host.cmds ++ [c] ∧ c.tag = tag ∧ c.queue = q ∧ c.entry = e ∧ c.dgram = some (b, seq, src)) ∧
            (opcodes.contains e.opcode.toNat = false → CommandEnds s t tag St.opcodeInvalid) ∧
            sget (fun _ => []) t.host.seqs b = noteSeq seen seq (if seen = [] ∨ 0 < d then seq else h)))) ∧
  ∀ s : State,
    (pcieUp s = true → exec .pcieLinkLoss s = .next ((event A.pciEvt 2 355 104).run ((setFld A.pciLstat 8 0 0).run s))) ∧
    (pcieUp s = false → exec .pcieLinkLoss s = .next s) ∧
    (∀ width speed, let may := bit s A.optStat 31 && !domInReset s 57 && !domInReset s 58 && !fifoHeld s 57 && !fifoHeld s 58
      (may = true → Completes (.pcieLinkUp width speed) s fun t =>
        bit t A.pciLstat 8 = true ∧ fld t A.pciLstat 7 4 = width ∧ fld t A.pciLstat 3 0 = speed ∧
        (∀ a, a ≠ A.pciLstat → rd t a = rd s a) ∧ t = { s with regs := t.regs }) ∧
      (may = false → exec (.pcieLinkUp width speed) s = .next s)) ∧
    (domInReset s 58 = false →
      exec (.pcieAerError true) s = .next ((event A.pciEvt 1 354 104).run ((bump A.pciErrcnt 31 16).run s)) ∧
      exec (.pcieAerError false) s = .next ((event A.pciEvt 0 353 104).run ((bump A.pciErrcnt 15 0).run s))) ∧
    (domInReset s 58 = true → ∀ x, exec (.pcieAerError x) s = .next s)

namespace Sys2Proof.Machine

/-- What Tables CS-5 and CS-8 to CS-15 say of a command: its opcode, who may send it and how, its list, its lengths and its PARAMs; with
the tag it runs under and the data that its fetch brings. -/
def commandOf : Instr → Option (CmdSpec × Fin 4096 × Dma)
  | .identify tag => some ({ op := 0x0101, tenant := true, resp := fun _ => 256 }, tag, (.bytes []))
  | .queueCreate tag => some ({ op := 0x0102, dgram := false, masks := [0x7F, 0x0FFF0FFF, 0x7F], bad := paramIn 0 1 64 }, tag, (.bytes []))
  | .queueDelete tag => some ({ op := 0x0103, dgram := false, masks := [0xFFFFFFFF], bad := paramIn 0 1 64 }, tag, (.bytes []))
  | .bufWrite tag => some ({
      op := 0x0104, tenant := true, pcie := false, count := some (1, 8888), len := lenCount, maxLen := 8888, masks := [0xFFFFFFFF] },
      tag, (.bytes []))
  | .eventWait tag => some ({ op := 0x0105, tenant := true, count := some (0, 64), resp := lenTimes 32 }, tag, (.bytes []))
  | .eventLogRead tag => some ({ op := 0x0106, masks := [0xFFFFFFFF] }, tag, (.bytes []))
  | .faultLogRead tag => some ({
      op := 0x0107, masks := [0xFFFFFFFF], bad := fun e => if e.p0.toNat % 64 = 0 then none else some 48 }, tag, (.bytes []))
  | .optionWrite tag dma => some ({ op := 0x0108, count := some (4096, 4096), len := lenCount, maxLen := 4096 }, tag, dma)
  | .chipReset tag => some ({ op := 0x0109, masks := [0xFFFFFFFF], bad := paramIn 0 0x0C0FFEE0 0x0C0FFEE0 }, tag, (.bytes []))
  | .parkTableWrite tag dma => some ({ op := 0x010A, count := some (46240, 46240), len := lenCount, maxLen := 46240 }, tag, dma)
  | .topologyLoad tag dma => some ({ op := 0x0201, count := some (1, 204864), len := lenCount, maxLen := 204864 }, tag, dma)
  | .topologyRead tag => some ({ op := 0x0202, tenant := true }, tag, (.bytes []))
  | .connChange tag dma => some ({
      op := 0x0203, tenant := true, timed := true, count := some (0, 1024), len := lenTimes 8, maxLen := 8192, empty := true,
      resp := lenTimes 8 }, tag, dma)
  | .mapReplace tag dma => some ({
      op := 0x0204, tenant := true, timed := true, count := some (0, 1024), len := fun e => 16 + 8 * e.count.toNat, maxLen := 8208,
      empty := true, resp := lenTimes 8 }, tag, dma)
  | .mapStore tag dma => some ({
      op := 0x0205, count := some (0, 1024), len := fun e => 16 + 8 * e.count.toNat, maxLen := 8208, empty := true, masks := [0x87FF],
      bad := slotBad }, tag, dma)
  | .mapRecall tag => some ({ op := 0x0206, masks := [0x87FF], bad := slotBad }, tag, (.bytes []))
  | .mapRead tag => some ({ op := 0x0207, tenant := true }, tag, (.bytes []))
  | .lcRelease tag dma => some ({ op := 0x0208, count := some (1, 1024), len := lenTimes 2, maxLen := 2048 }, tag, dma)
  | .paramSet tag dma => some ({ op := 0x0209, count := some (1, 5), len := lenTimes 8, maxLen := 40 }, tag, dma)
  | .paramGet tag => some ({ op := 0x020A, resp := fun _ => 40 }, tag, (.bytes []))
  | .calPathSet tag => some ({ op := 0x020B, masks := [0x83FF03FF] }, tag, (.bytes []))
  | .progLoad tag dma => some ({
      op := 0x0301, force := true, count := some (1, 4096), len := fun e => 8 * e.count.toNat + e.p3.toNat, maxLen := 40960,
      masks := [0xFF, 1, 0, 0xFFFFFFFF], bad := fun e => (engineBad e).or (paramIn 3 0 8192 e) }, tag, dma)
  | .progLoadRom tag => some ({ op := 0x0302, masks := [0xFF, 1], bad := engineBad }, tag, (.bytes []))
  | .engineCtrl tag dma => some ({ op := 0x0303, count := some (1, 96), len := lenTimes 4, maxLen := 384 }, tag, dma)
  | .elemMode tag dma => some ({ op := 0x0304, timed := true, count := some (1, 10752), len := lenTimes 4, maxLen := 43008 }, tag, dma)
  | .coefWrite tag dma => some ({ op := 0x0305, count := some (1, 10752), len := lenTimes 24, maxLen := 258048 }, tag, dma)
  | .elemParam tag dma => some ({ op := 0x0306, count := some (1, 10752), len := lenTimes 8, maxLen := 86016 }, tag, dma)
  | .elemResume tag dma => some ({ op := 0x0307, count := some (1, 10752), len := lenTimes 2, maxLen := 21504 }, tag, dma)
  | .elemRead tag dma => some ({ op := 0x0308, tenant := true, count := some (1, 1024), len := lenTimes 4, maxLen := 4096 }, tag, dma)
  | .calRequest tag dma => some ({ op := 0x0309, count := some (1, 1024), len := lenTimes 2, maxLen := 2048, resp := lenTimes 4 }, tag, dma)
  | .ectWrite tag dma => some ({
      op := 0x030A, count := some (1, 64), len := fun e => 1028 * e.count.toNat + e.p3.toNat, maxLen := 73984, masks := [0, 0, 0,
      0xFFFFFFFF], bad := paramIn 3 0 8192 }, tag, dma)
  | .ectRead tag dma => some ({ op := 0x030B, count := some (1, 64), len := lenTimes 2, maxLen := 128, resp := lenTimes 1024 }, tag, dma)
  | .progVerify tag => some ({
      op := 0x030C, force := true, masks := [0xFF, 1, 0xFFFFFFFF], bad := fun e => (paramIn 0 0 95 e).or (paramIn 2 1 4096 e) }, tag,
      (.bytes []))
  | .portAssign tag dma => some ({ op := 0x0401, count := some (1, 2048), len := lenTimes 4, maxLen := 8192 }, tag, dma)
  | .rightsSet tag dma => some ({ op := 0x0402, count := some (1, 64), len := lenTimes 8, maxLen := 512 }, tag, dma)
  | .sourceBind tag dma => some ({ op := 0x0403, count := some (1, 256), len := lenTimes 16, maxLen := 4096 }, tag, dma)
  | .tenantRead tag => some ({ op := 0x0404, tenant := true, masks := [0x3F], resp := fun _ => 272 }, tag, (.bytes []))
  | .timeRead tag => some ({ op := 0x0501, tenant := true, resp := fun _ => 32 }, tag, (.bytes []))
  | .timeTrigger tag dma => some ({ op := 0x0502, count := some (1, 12), len := lenTimes 8, maxLen := 96 }, tag, dma)
  | .timeAsym tag => some ({ op := 0x0503, masks := [1, 0xFFFFFFFF] }, tag, (.bytes []))
  | .subCreate tag dma => some ({
      op := 0x0601, tenant := true, count := some (1, 64), len := lenTimes 64, maxLen := 4096, resp := lenTimes 4 }, tag, dma)
  | .subDelete tag dma => some ({ op := 0x0602, tenant := true, count := some (1, 1024), len := lenTimes 4, maxLen := 4096 }, tag, dma)
  | .subRead tag => some ({ op := 0x0603, tenant := true }, tag, (.bytes []))
  | .replayFreeze tag => some ({ op := 0x0604 }, tag, (.bytes []))
  | .replayRead tag => some ({ op := 0x0605, masks := [0xFFFFFFFF] }, tag, (.bytes []))
  | .replayRelease tag => some ({ op := 0x0606 }, tag, (.bytes []))
  | .echo tag dma => some ({
      op := 0x0701, tenant := true, count := some (1, 8888), len := lenCount, maxLen := 8888, resp := fun e => e.length.toNat }, tag, dma)
  | .regRead tag dma => some ({ op := 0x0702, count := some (1, 1024), len := lenTimes 4, maxLen := 4096, resp := lenTimes 4 }, tag, dma)
  | .regWrite tag dma => some ({ op := 0x0703, count := some (1, 1024), len := lenTimes 8, maxLen := 8192 }, tag, dma)
  | .injTrigger tag => some ({ op := 0x0704, masks := [0xF], bad := paramIn 0 0 11 }, tag, (.bytes []))
  | .memRead tag => some ({
      op := 0x0705, masks := [0xFFFFFFFF], bad := fun e => if e.p0.toNat % 4 = 0 then none else some 48 }, tag, (.bytes []))
  | .huddleCommit tag dma => some ({
      op := 0x0801, tenant := true, timed := true, count := some (0, 130048), len := fun e => 8 * e.p0.toNat + 8 * e.count.toNat,
      maxLen := 1048576, empty := true, masks := [0xFFFFFFFF], resp := fun e => if e.p0 = 0#32 then 0 else 4 }, tag, dma)
  | .huddleResolve tag => some ({ op := 0x0802, masks := [0xFFFFFFFF, 1] }, tag, (.bytes []))
  | .huddleStatus tag => some ({ op := 0x0803, tenant := true, masks := [0xFFFFFFFF], resp := fun _ => 516 }, tag, (.bytes []))
  | .attest tag dma => some ({ op := 0x0901, tenant := true, count := some (32, 32), len := lenCount, maxLen := 32 }, tag, dma)
  | .patchLoad tag dma => some ({ op := 0x0902, count := some (1, 1048576), tooMany := St.nvmFull, len := lenCount, maxLen := 1048576 }, tag, dma)
  | .keyEnrol tag dma => some ({
      op := 0x0903, count := some (1, 8192), tooMany := St.payloadInvalid, len := lenCount, maxLen := 8192, empty := true }, tag, dma)
  | .enforceSet tag dma => some ({
      op := 0x0904, count := some (0, 8192), len := lenCount, maxLen := 8192, empty := true, masks := [3] }, tag, dma)
  | .jtagChallenge tag => some ({ op := 0x0905, resp := fun _ => 32 }, tag, (.bytes []))
  | .jtagUnlock tag dma => some ({ op := 0x0906, count := some (1, 8192), len := lenCount, maxLen := 8192 }, tag, dma)
  | _ => none

/-- The command that holds the tag names this opcode and may start. -/
def CmdStarts (s : State) (k : CmdSpec) (tag : Fin 4096) (c : Cmd) : Prop :=
  supvRuns s = true ∧ cmdOf s tag = some c ∧ c.entry.opcode.toNat = k.op ∧ c.started = false ∧ mayStart s c = true
/-- The commands that take turns behind an MRAM transaction of their kind have theirs, a new challenge is due, loads and enforcement follow each
other in acceptance order, and no earlier command still has words of the same elements to write (R240, R370, R372). -/
def turnCome (s : State) : Instr → Bool
  | .optionWrite .. | .attest .. | .patchLoad .. | .keyEnrol .. | .jtagUnlock .. => !imageTxnPending s
  | .enforceSet tag _ => !imageTxnPending s && !loadDue s tag
  | .progLoad tag _ | .progVerify tag => !enforceDue s tag
  | .ectWrite tag dma => !enforceDue s tag && !elemsWait s tag dma
  | .progLoadRom tag => !elemsWait s tag (.bytes [])
  | .elemMode tag dma | .coefWrite tag dma | .elemParam tag dma | .elemResume tag dma | .calRequest tag dma => !elemsWait s tag dma
  | .jtagChallenge _ => !imageTxnPending s && s.sec.failedAt.all fun t => decide (1000000 ≤ usSince s t)
  | _ => true
/-- A list without entries, where the opcode gives it no meaning. -/
def emptyList (k : CmdSpec) (c : Cmd) : Bool := decide (c.entry.count = 0#32) && k.count.isSome && !k.empty
/-- The state with the command of a tag marked as started. -/
def begun (s : State) (tag : Fin 4096) : State :=
  { s with host := { s.host with cmds := s.host.cmds.map fun d => if d.tag = tag.val then { d with started := true } else d } }
/-- The state with a completion that waits to be posted. -/
def finish (u : State) (tag : Fin 4096) (st r0 : Nat) (data : List Byte) : State :=
  { u with host := { u.host with done := u.host.done ++ [{ tag := tag, status := st, r0 := r0, data := data }] } }
/-- The payload of a command: a datagram's own, or what its fetch brought, cut to LENGTH. -/
def PayloadIs (c : Cmd) (dma : Dma) (l : List Byte) : Prop :=
  if c.dgram.isSome = true ∨ c.entry.length.toNat = 0 then c.bad = none ∧ c.entry.length.toNat ≤ c.payload.length ∧ l = slice c.payload 0 c.entry.length.toNat
  else ∃ b, dma = .bytes b ∧ l = slice b 0 c.entry.length.toNat
/-- What a command's body starts from: it is marked as started, and the fetch of its payload has left (R241). -/
def fetching (s : State) (tag : Fin 4096) (c : Cmd) : State :=
  if c.dgram.isSome = true ∨ c.entry.length.toNat = 0 then begun s tag
  else { begun s tag with outs := s.outs ++ [.hostRead c.entry.dataAddr.toNat c.entry.length.toNat] }
/-- Command `i` runs as `c` with payload `l`: it starts, passes every check, and has its payload. -/
def Admitted (s : State) (i : Instr) (c : Cmd) (l : List Byte) : Prop := ∃ k tag dma, commandOf i = some (k, tag, dma) ∧ turnCome s i = true ∧
  CmdStarts s k tag c ∧ checkCmd c k = none ∧ emptyList k c = false ∧ PayloadIs c dma l
/-- It is answered at once with a status and a first result word, and does nothing else. -/
def Answered (s : State) (i : Instr) (tag : Fin 4096) (st r0 : Nat) : Prop := exec i s = .next (finish (begun s tag) tag st r0 [])
/-- Once its payload is there, it is answered at once with a status, a first result word and data, and does nothing else. -/
def Gives (s : State) (i : Instr) (tag : Fin 4096) (c : Cmd) (st r0 : Nat) (data : List Byte) : Prop :=
  exec i s = .next (finish (fetching s tag c) tag st r0 data)

end Sys2Proof.Machine

/-- Every one of the 60 commands acts only while the supervisors run and the command that holds its tag names its opcode and may start; then the
checks of Table CS-5 come in order and the first that fails is its answer, an empty list succeeds at once where the table gives it no
meaning, and a payload that cannot be fetched ends it with DMA_ERROR; in all these cases it has no other effect (R240, R246, R247).
Log entry 25 holds a choice of the model that it rests on. -/
def Obligations.CommandsAreCheckedBeforeTheyAct : Prop :=
  ∀ (s : State) (i : Instr) (k : CmdSpec) (tag : Fin 4096) (dma : Dma), commandOf i = some (k, tag, dma) →
    ((∀ c, ¬CmdStarts s k tag c) ∨ turnCome s i = false → exec i s = .next s) ∧
    ∀ c, CmdStarts s k tag c → turnCome s i = true →
      (∀ st r0, checkCmd c k = some (st, r0) → Answered s i tag st r0) ∧
      (checkCmd c k = none → emptyList k c = true → Answered s i tag St.success 0) ∧
      (checkCmd c k = none → emptyList k c = false →
        (∀ o, (c.dgram.isSome = true ∨ c.entry.length.toNat = 0) → c.bad = some o → Answered s i tag St.dmaError o) ∧
        ((c.dgram.isSome = true ∨ c.entry.length.toNat = 0) → c.bad = none → c.payload.length < c.entry.length.toNat →
          Answered s i tag St.dmaError c.payload.length) ∧
        (∀ o, c.dgram = none → c.entry.length.toNat ≠ 0 → dma = .error o → Completes i s fun t =>
          CommandEnds s t tag St.dmaError ∧ t.fab = s.fab ∧ SamePipe s t ∧ Out.hostRead c.entry.dataAddr.toNat c.entry.length.toNat ∈ t.outs ∧ t.sup = s.sup ∧ t.mram = s.mram ∧ t.sec = s.sec ∧ t.hdl = s.hdl))

/-- IDENTIFY answers what the device is; QUEUE_CREATE makes a pair that does not exist, with sizes of 2 entries or more, aligned bases and a
vector up to 64; QUEUE_DELETE stops it and aborts what has not started; BUF_WRITE fills the binding's staging buffer; up to 16 EVENT_WAITs
wait on a queue; the logs are read; an Option Area or Park Table image that passes its checks becomes one transaction; CHIP_RESET posts its
completion and asks for the reset (Table CS-8, R245, R249, R250, R319, R321, R336).
Log entry 26 holds a choice of the model that it rests on. -/
def Obligations.AdminCommandsDoWhatTheyName : Prop :=
  ∀ (s : State) (tag : Fin 4096) (dma : Dma) (c : Cmd) (l : List Byte),
    (Admitted s (.identify tag) c l → Gives s (.identify tag) tag c St.success 0 (identifyData s c)) ∧
    (Admitted s (.queueCreate tag) c l →
      let q := c.entry.p0.toNat
      let p : QPair := { sqSize := bits c.entry.p1 11 0 + 1, cqSize := bits c.entry.p1 27 16 + 1, sqBase := c.entry.dataAddr.toNat,
                         cqBase := c.entry.respAddr.toNat, vec := c.entry.p2.toNat }
      let good := pairOf s q = none ∧ 2 ≤ p.sqSize ∧ 2 ≤ p.cqSize ∧ p.sqBase % 4096 = 0 ∧ p.cqBase % 4096 = 0 ∧ p.vec ≤ 64
      (good → Completes (.queueCreate tag) s fun t => pairOf t q = some p ∧ CommandEnds s t tag St.success ∧
        rd t (A.sqTail q) = 0#32 ∧ rd t (A.cqHead q) = 0#32 ∧ (∀ q', q' ≠ q → pairOf t q' = pairOf s q')) ∧
      (¬good → Gives s (.queueCreate tag) tag c St.queueInvalid 0 [])) ∧
    (Admitted s (.queueDelete tag) c l →
      let q := c.entry.p0.toNat
      ((∀ p, pairOf s q = some p → p.deleting.isSome = true) → Gives s (.queueDelete tag) tag c St.queueInvalid 0 []) ∧
      (∀ p, pairOf s q = some p → p.deleting = none → Completes (.queueDelete tag) s fun t =>
        pairOf t q = some { p with deleting := some tag.val } ∧
        t = { s with host := { s.host with pairs := t.host.pairs, cmds := t.host.cmds, done := t.host.done } } ∧
        ∀ x ∈ s.host.cmds, x.queue = q → x.started = false → x.dgram = none → x.tag ≠ tag.val → CommandEnds s t x.tag St.aborted)) ∧
    (Admitted s (.bufWrite tag) c l → ∀ b r, c.dgram = some (b, r) →
      let o := c.entry.p0.toNat
      (bit s A.hbmStat 31 = false → Gives s (.bufWrite tag) tag c St.notReady 0 []) ∧
      (bit s A.hbmStat 31 = true → 1048576 < o + l.length → Gives s (.bufWrite tag) tag c St.bufferRange 0 []) ∧
      (bit s A.hbmStat 31 = true → o + l.length ≤ 1048576 → Completes (.bufWrite tag) s fun t =>
        t = finish { begun s tag with hbm := t.hbm } tag St.success 0 [] ∧
        (∀ i < l.length, readByte blank t.hbm (stagingOf b + o + i) = l.getD i 0#8) ∧
        ∀ a, (a < stagingOf b + o ∨ stagingOf b + o + l.length ≤ a) → readByte blank t.hbm a = readByte blank s.hbm a)) ∧
    (Admitted s (.eventWait tag) c l →
      let n := (s.host.waits.filter fun w => w.queue == c.queue).length
      (16 ≤ n → Gives s (.eventWait tag) tag c St.busy 0 []) ∧
      (n < 16 → Completes (.eventWait tag) s fun t => t = { begun s tag with host := { (begun s tag).host with
        waits := s.host.waits ++ [{ tag := tag, queue := c.queue, count := c.entry.count.toNat }] } })) ∧
    (Admitted s (.eventLogRead tag) c l →
      let i := c.entry.p0.toNat
      let at_ (k : Nat) : Nat := eventLogBase + 32 * ((i + k) % eventLogLen)
      (bit s A.hbmStat 31 = false → Gives s (.eventLogRead tag) tag c St.notReady 0 []) ∧
      (bit s A.hbmStat 31 = true → s.host.logNext ≤ i ∨ i + eventLogLen < s.host.logNext →
        Gives s (.eventLogRead tag) tag c St.logRange 0 []) ∧
      (bit s A.hbmStat 31 = true → i < s.host.logNext → s.host.logNext ≤ i + eventLogLen → Gives s (.eventLogRead tag) tag c St.success 0
        (((List.range (s.host.logNext - i)).filter fun k => !s.hbmBad.contains (at_ k / 64)).flatMap fun k => hbmAt s (at_ k) 32))) ∧
    (Admitted s (.faultLogRead tag) c l →
      let o := c.entry.p0.toNat
      let bad := mramSpanBad s (0x100000 + o) (min (0x100000 - o) c.entry.respLen.toNat)
      (bit s A.nvmStat 31 = false → Gives s (.faultLogRead tag) tag c St.notReady 0 []) ∧
      (bit s A.nvmStat 31 = true → 0x100000 < o → Gives s (.faultLogRead tag) tag c St.logRange 0 []) ∧
      (bit s A.nvmStat 31 = true → o ≤ 0x100000 → bad = false → Gives s (.faultLogRead tag) tag c St.success 0
        (mramAt s (0x100000 + o) (0x100000 - o))) ∧
      (bit s A.nvmStat 31 = true → o ≤ 0x100000 → bad = true → Completes (.faultLogRead tag) s fun t =>
        CommandEnds s t tag St.nvmUncorr ∧ bit t A.nvmEvt 1 = true ∧ t.mram = s.mram ∧ t.fab = s.fab)) ∧
    (Admitted s (.optionWrite tag dma) c l →
      let old := (optChoose s).1
      let cleared := enforceBits old &&& (3 - enforceBits l) ≠ 0
      (∀ o, optError l = some o → Gives s (.optionWrite tag dma) tag c St.payloadInvalid o []) ∧
      (optError l = none → cleared → Gives s (.optionWrite tag dma) tag c St.sigRequired 0 []) ∧
      (optError l = none → ¬cleared → mramStatus s ≠ 0 → Gives s (.optionWrite tag dma) tag c (mramStatus s) 0 []) ∧
      (optError l = none → ¬cleared → mramStatus s = 0 → Completes (.optionWrite tag dma) s fun t =>
        t = { fetching s tag c with regs := t.regs, nvm := { s.nvm with queue := t.nvm.queue } } ∧ bit t A.nvmStat 30 = true ∧
        ∃ x, t.nvm.queue = s.nvm.queue ++ [x] ∧ x.options = some (optSeal l (leAt old 8 4 + 1)) ∧ x.recs = [] ∧ x.tag = some tag.val)) ∧
    (Admitted s (.chipReset tag) c l → Completes (.chipReset tag) s fun t =>
      t.clk.req = true ∧ bit t A.rstCause 3 = true ∧ t.fab = s.fab ∧ SamePipe s t ∧
      ∀ p, c.dgram = none → pairOf s c.queue = some p → c.dropped = false → pcieUp s = true → cqFull s c.queue p = false →
        (∀ d ∈ s.host.done, d.tag ≠ tag.val) →
        Out.completion c.queue (p.cqBase + 16 * p.cqTail) (completionBytes c { tag := tag, status := St.success } p.sqHead p.phase) ∈ t.outs) ∧
    (Admitted s (.parkTableWrite tag dma) c l →
      (bit s A.nvmStat 31 = false → Gives s (.parkTableWrite tag dma) tag c St.notReady 0 []) ∧
      (bit s A.nvmStat 31 = true → bit s A.nvmStat 29 = true → Gives s (.parkTableWrite tag dma) tag c St.opBusy 0 []) ∧
      (bit s A.nvmStat 31 = true → bit s A.nvmStat 29 = false →
        (∀ o, parkError l (parkActive s l) = some o → Completes (.parkTableWrite tag dma) s fun t =>
          t = finish { fetching s tag c with regs := t.regs } tag St.payloadInvalid o [] ∧
          rd t A.nvmResult = BitVec.ofNat 32 St.payloadInvalid ∧ rd t A.nvmPtErrofs = BitVec.ofNat 32 o ∧
          ∀ a, a ≠ A.nvmResult → a ≠ A.nvmPtErrofs → rd t a = rd s a) ∧
        (parkError l (parkActive s l) = none → Completes (.parkTableWrite tag dma) s fun t =>
          t = { fetching s tag c with regs := t.regs, nvm := { s.nvm with queue := t.nvm.queue } } ∧ bit t A.nvmStat 29 = true ∧
          ∃ x, t.nvm.queue = s.nvm.queue ++ [x] ∧ x.recs.map (·.payload) = [l] ∧ x.after = .park l ∧ x.tag = some tag.val)))

namespace Sys2Proof.Machine

/-- The request joins the pipeline in acceptance order, unless a check on it, or on its instant, refuses it. -/
def Submitted (s : State) (i : Instr) (tag : Fin 4096) (c : Cmd) (st : Nat × Nat) (ask : Ask) : Prop :=
  (st.1 ≠ 0 → Gives s i tag c st.1 st.2 []) ∧
  (st.1 = 0 → timedStatus s c ≠ 0 → Gives s i tag c (timedStatus s c) 0 []) ∧
  (st.1 = 0 → timedStatus s c = 0 → exec i s = .next { fetching s tag c with pipe := { s.pipe with
    nextId := s.pipe.nextId + 1,
    waiting := s.pipe.waiting ++ [{ id := s.pipe.nextId, by_ := .command tag, owner := c.party, ask := ask, time := timedOf c.entry }] } })
/-- The parameter of PARAM_SET with this code takes the last value that the list gives it. -/
def lastParam (ws : List Nat) (code : Nat) : Option Nat := ((ws.filter fun w => decide (cut w 63 48 = code)).getLast?).map (· % 2 ^ 32)

end Sys2Proof.Machine

/-- A topology that passes its checks is loaded where the map is empty and the pipeline idle; changes, replacements and recalled maps that are the
sender's own join the pipeline whole or not at all, and CONN_CHANGE without entries is a barrier; a map is stored twice in HBM or as one
record (R19, R22, R23, R25, R27, R170, R172, R175, R252, R309).
Log entry 75 holds a choice of the model that it rests on. -/
def Obligations.FabricCommandsSubmitRequests : Prop :=
  ∀ (s : State) (tag : Fin 4096) (dma : Dma) (c : Cmd) (l : List Byte),
    (Admitted s (.topologyLoad tag dma) c l →
      (∀ o, topoError l = some o → Gives s (.topologyLoad tag dma) tag c St.topologyInvalid o []) ∧
      (topoError l = none → s.fab.map.conns ≠ [] ∨ pipeIdle s = false → Gives s (.topologyLoad tag dma) tag c St.topologyInUse 0 []) ∧
      (topoError l = none → s.fab.map.conns = [] → pipeIdle s = true → Completes (.topologyLoad tag dma) s fun t =>
        t.fab = { s.fab with topo := some (topoOf l), map := { s.fab.map with cells := [] } } ∧ CommandEnds s t tag St.success ∧
        SamePipe s t ∧ t.mram = s.mram)) ∧
    (Admitted s (.topologyRead tag) c l →
      (∀ t, s.fab.topo = some t → Gives s (.topologyRead tag) tag c St.success 0 t.image) ∧
      (s.fab.topo = none → Gives s (.topologyRead tag) tag c St.topologyAbsent 0 [])) ∧
    (Admitted s (.connChange tag dma) c l →
      let ws := words64 l
      let cs := ws.map changeOf
      let form := badIndex (fun w => decide (cut w 33 32 = 0) || (changeOf w).del) ws
      (ws = [] → exec (.connChange tag dma) s = .next { begun s tag with pipe := { s.pipe with
        barriers := s.pipe.barriers ++ [{ tag := tag, id := s.pipe.nextId }], nextId := s.pipe.nextId + 1 } }) ∧
      (∀ i, s.fab.topo.isSome = true → form = some i → Gives s (.connChange tag dma) tag c St.mapInvalid i []) ∧
      (ws ≠ [] → s.fab.topo = none ∨ form = none →
        Submitted s (.connChange tag dma) tag c (firstFailing (askChecks s c.party (.changes cs))) (.changes cs))) ∧
    (Admitted s (.mapReplace tag dma) c l →
      (leAt l 4 2 ≠ c.entry.count.toNat → Gives s (.mapReplace tag dma) tag c St.payloadInvalid 4 []) ∧
      (leAt l 4 2 = c.entry.count.toNat → Submitted s (.mapReplace tag dma) tag c
        (if mapFormStatus s l ≠ 0 then (mapFormStatus s l, 0) else firstFailing (askChecks s c.party (.replace (mapConns l)))) (.replace (mapConns l)))) ∧
    (Admitted s (.mapStore tag dma) c l →
      let i := bits c.entry.p0 10 0
      let valid := (s.fab.topo.any fun t => mapValid t (mapConns l)) = true ∨ mapConns l = []
      (leAt l 4 2 ≠ c.entry.count.toNat → Gives s (.mapStore tag dma) tag c St.payloadInvalid 4 []) ∧
      (leAt l 4 2 = c.entry.count.toNat → mapFormOk l = false → Gives s (.mapStore tag dma) tag c St.mapInvalid 0 []) ∧
      (leAt l 4 2 = c.entry.count.toNat → mapFormOk l = true → ¬valid → Gives s (.mapStore tag dma) tag c St.mapInvalid
        (firstFail (fun m => s.fab.topo.any fun t => mapValid t m) (mapConns l)) []) ∧
      (leAt l 4 2 = c.entry.count.toNat → mapFormOk l = true → valid →
        (c.entry.p0.getLsbD 15 = true → mramStatus s = 0 → Completes (.mapStore tag dma) s fun t => bit t A.nvmStat 30 = true ∧ t.hbm = s.hbm ∧
          ∃ x, t.nvm.queue = s.nvm.queue ++ [x] ∧ x.recs.map (fun r => (r.region, r.index, r.payload)) = [(6, i, l)] ∧ x.tag = some tag.val) ∧
        (c.entry.p0.getLsbD 15 = true → mramStatus s ≠ 0 → Gives s (.mapStore tag dma) tag c (mramStatus s) 0 []) ∧
        (c.entry.p0.getLsbD 15 = false → bit s A.hbmStat 31 = false → Gives s (.mapStore tag dma) tag c St.notReady 0 []) ∧
        (c.entry.p0.getLsbD 15 = false → bit s A.hbmStat 31 = true → Completes (.mapStore tag dma) s fun t =>
          t = finish { fetching s tag c with hbm := t.hbm } tag St.success 0 [] ∧
          ∀ k < 2, ∀ j < l.length, readByte blank t.hbm (mapSlot i k + j) = l.getD j 0#8))) ∧
    (Admitted s (.mapRecall tag) c l →
      let i := bits c.entry.p0 10 0
      let mram := c.entry.p0.getLsbD 15
      let img := if mram then recValue s 6 i else (hbmMap s i 0).or (hbmMap s i 1)
      ((mram = false ∧ bit s A.hbmStat 31 = false) ∨ (mram = true ∧ bit s A.nvmStat 31 = false) →
        Gives s (.mapRecall tag) tag c St.notReady 0 []) ∧
      ((if mram then bit s A.nvmStat 31 else bit s A.hbmStat 31) = true →
        (mram = true → recUnreadable s 6 i = true → Completes (.mapRecall tag) s fun t =>
          CommandEnds s t tag St.nvmUncorr ∧ SamePipe s t ∧ t.fab = s.fab) ∧
        ((mram = true → recUnreadable s 6 i = false) →
          (img = none → Gives s (.mapRecall tag) tag c St.nvmSlotEmpty 0 []) ∧
          ∀ m, img = some m → Submitted s (.mapRecall tag) tag c
            (if mapFormStatus s m ≠ 0 then (mapFormStatus s m, 0) else firstFailing (askChecks s c.party (.replace (mapConns m)))) (.replace (mapConns m)))))

/-- MAP_READ answers the map in force, of a tenant its own connections; LC_RELEASE ends blocks; PARAM_SET takes a list only whole, and PARAM_GET
answers what stands; CAL_PATH_SET takes ports that no one owns or uses (R166, R198, R253, Table CM-7).
Log entry 29 holds a choice of the model that it rests on. -/
def Obligations.FabricCommandsReadAndSet : Prop :=
  ∀ (s : State) (tag : Fin 4096) (dma : Dma) (c : Cmd) (l : List Byte),
    (Admitted s (.mapRead tag) c l →
      let m := s.fab.map.conns.filter fun r => decide (c.party = 64) || decide (connOwner s r.conn = c.party)
      Gives s (.mapRead tag) tag c St.success 0 (mapImage ((s.fab.topo.map (·.id)).getD 0) (m.map (·.conn)) ++
        m.flatMap fun r => natLe 8 (resWord s (resultOf s r)))) ∧
    (Admitted s (.lcRelease tag dma) c l →
      (∀ i, badIndex (fun w => decide (w < 1024)) (entriesOf 2 l) = some i → Gives s (.lcRelease tag dma) tag c St.payloadInvalid i []) ∧
      (badIndex (fun w => decide (w < 1024)) (entriesOf 2 l) = none → Completes (.lcRelease tag dma) s fun t =>
        t.pipe = { s.pipe with blocked := s.pipe.blocked.filter (fun q => !(entriesOf 2 l).contains q), wins := t.pipe.wins } ∧
        CommandEnds s t tag St.success ∧ (∀ a, (∀ m : Fin 12, a ≠ grpCtrl m ∧ a ≠ grpStat m) → rd t a = rd s a) ∧ t.fab = s.fab)) ∧
    (Admitted s (.paramSet tag dma) c l →
      (∀ i, badIndex paramOk (words64 l) = some i → Gives s (.paramSet tag dma) tag c St.payloadInvalid i []) ∧
      (badIndex paramOk (words64 l) = none → Completes (.paramSet tag dma) s fun t =>
        let last (code old : Nat) : Nat := (lastParam (words64 l) code).getD old
        t.pipe.scoreAvoid = last 1 s.pipe.scoreAvoid ∧ t.pipe.lcPresent.toNat = last 2 s.pipe.lcPresent.toNat ∧
        t.pipe.lcLightMin.toNat = last 3 s.pipe.lcLightMin.toNat ∧ t.pipe.lcBlock.toNat = last 4 s.pipe.lcBlock.toNat ∧
        t.pipe.lcAudit = last 5 s.pipe.lcAudit ∧
        t = finish { fetching s tag c with pipe := { s.pipe with
          scoreAvoid := t.pipe.scoreAvoid, lcPresent := t.pipe.lcPresent, lcLightMin := t.pipe.lcLightMin, lcBlock := t.pipe.lcBlock,
          lcAudit := t.pipe.lcAudit, auditAt := t.pipe.auditAt } } tag St.success 0 [])) ∧
    (Admitted s (.paramGet tag) c l → Gives s (.paramGet tag) tag c St.success 0
      (natLe 8 (1 * 2 ^ 48 + s.pipe.scoreAvoid) ++ natLe 8 (2 * 2 ^ 48 + s.pipe.lcPresent.toNat) ++
        natLe 8 (3 * 2 ^ 48 + s.pipe.lcLightMin.toNat) ++ natLe 8 (4 * 2 ^ 48 + s.pipe.lcBlock.toNat) ++ natLe 8 (5 * 2 ^ 48 + s.pipe.lcAudit))) ∧
    (Admitted s (.calPathSet tag) c l →
      let i := bits c.entry.p0 25 16
      let o := bits c.entry.p0 9 0
      let used := inOwner s i ≠ 64 ∨ outOwner s o ≠ 64 ∨ portUsed s false i = true ∨ portUsed s true o = true
      let set_ (v : Option (Nat × Nat)) := exec (.calPathSet tag) s =
        .next (finish { begun s tag with pipe := { s.pipe with calPath := v } } tag St.success 0 [])
      (c.entry.p0.getLsbD 31 = false → set_ none) ∧ (c.entry.p0.getLsbD 31 = true → used → Gives s (.calPathSet tag) tag c St.portInUse 0 []) ∧
      (c.entry.p0.getLsbD 31 = true → ¬used → set_ (some (i, o))))

namespace Sys2Proof.Machine

/-- A list command refuses the first entry that a check refuses, with its index; where every entry passes, `go` holds. -/
def Checked {α : Type} (s : State) (i : Instr) (tag : Fin 4096) (c : Cmd) (f : α → Nat) (l : List α) (go : Prop) : Prop :=
  (∀ j x, l[j]? = some x → f x ≠ 0 → (∀ k y, k < j → l[k]? = some y → f y = 0) → Gives s i tag c (f x) j []) ∧ ((∀ x ∈ l, f x = 0) → go)
/-- Window words join the pipeline as one commit; without any the command ends. -/
def WordsSubmitted (s : State) (i : Instr) (tag : Fin 4096) (c : Cmd) (l : List (Nat × Word)) : Prop :=
  (l = [] → Gives s i tag c St.success 0 []) ∧ (l ≠ [] → Submitted s i tag c (0, 0) (.words l))

end Sys2Proof.Machine

/-- A program goes into every target bank or none: it must pass the static checks, fit the budget or be forced, be signed where that is enforced, and
no target bank may be in use; SLP-1 comes from ROM with its own CRC; PROG_VERIFY checks the words that stand in a bank; ENGINE_CTRL sets
swap modes and asks engines to run or stop (R101, R103, R110, R111, R143, R146, R371, Table CS-10).
Log entries 29 and 78 hold choices of the model that it rests on. -/
def Obligations.ProgramsLoadWholeOrNotAtAll : Prop :=
  ∀ (s : State) (tag : Fin 4096) (dma : Dma) (c : Cmd) (l : List Byte),
    (Admitted s (.progLoad tag dma) c l →
      let n := c.entry.count.toNat
      let prog := l.take (8 * n)
      let ws := programWords prog
      let b := c.entry.p1.toNat
      let es := engineList s c.entry.p0.toNat
      let sig := loadSig s (enfProg s) 2 prog (l.drop (8 * n))
      let overBudget := 384 < staticCount ws ∧ c.entry.flags.getLsbD 2 = false
      (∀ i, programFault ws = some i → Gives s (.progLoad tag dma) tag c St.progInvalid i []) ∧
      (programFault ws = none → overBudget → Gives s (.progLoad tag dma) tag c St.progOverBudget (staticCount ws) []) ∧
      let readable := loadRecords (l.drop (8 * n)) = [] ∨ recUnreadable s 2 1 = false
      (programFault ws = none → ¬overBudget → ¬readable → Completes (.progLoad tag dma) s fun t =>
        CommandEnds s t tag St.nvmUncorr ∧ SamePipe s t ∧ t.fab = s.fab ∧ t.mram = s.mram ∧
        ∀ (e : Fin 96) (b : Fin 2) (n : Fin 4096), readWord t.mem (progAddr e b n) = readWord s.mem (progAddr e b n)) ∧
      (programFault ws = none → ¬overBudget → readable →
        (sig ≠ 0 → Completes (.progLoad tag dma) s fun t => CommandEnds s t tag sig ∧ t.sec = s.sec) ∧
        (sig = 0 → (∃ e ∈ es, domUp s (e / 8) = false) → Completes (.progLoad tag dma) s fun t =>
          CommandEnds s t tag St.notReady ∧ t.mem = s.mem ∧ t.eng = s.eng) ∧
        (sig = 0 → (∀ e ∈ es, domUp s (e / 8) = true) → (∃ e ∈ es, bankBusy s e b = true) → Completes (.progLoad tag dma) s fun t =>
          CommandEnds s t tag St.bankActive ∧ t.mem = s.mem ∧ t.eng = s.eng) ∧
        (sig = 0 → (∀ e ∈ es, domUp s (e / 8) = true) → (∀ e ∈ es, bankBusy s e b = false) → Completes (.progLoad tag dma) s fun t =>
          CommandEnds s t tag St.success ∧ ∀ e ∈ es, bankOk t e b = true ∧ bankRom t e b = false ∧
            rd t (if b = 0 then A.engBankcrc0 e else A.engBankcrc1 e) = crc32c prog ∧
            readBytes memBlank t.mem (progAddr e b 0) prog.length = prog))) ∧
    (Admitted s (.progLoadRom tag) c l →
      let b := c.entry.p1.toNat
      let es := engineList s c.entry.p0.toNat
      ((∃ e ∈ es, domUp s (e / 8) = false) → Gives s (.progLoadRom tag) tag c St.notReady 0 []) ∧
      ((∀ e ∈ es, domUp s (e / 8) = true) → (∃ e ∈ es, bankBusy s e b = true) → Gives s (.progLoadRom tag) tag c St.bankActive 0 []) ∧
      ((∀ e ∈ es, domUp s (e / 8) = true) → (∀ e ∈ es, bankBusy s e b = false) → Completes (.progLoadRom tag) s fun t =>
        CommandEnds s t tag St.success ∧ ∀ e ∈ es, bankOk t e b = true ∧ bankRom t e b = true ∧
          rd t (if b = 0 then A.engBankcrc0 e else A.engBankcrc1 e) = 0x3E71C5A9#32)) ∧
    (Admitted s (.progVerify tag) c l →
      let e := c.entry.p0.toNat
      let b := c.entry.p1.toNat
      let img := bankBytes s e b c.entry.p2.toNat
      let overBudget := 384 < staticCount (programWords img) ∧ c.entry.flags.getLsbD 2 = false
      (enfProg s = true → Gives s (.progVerify tag) tag c St.sigRequired 0 []) ∧
      (enfProg s = false → bankBusy s e b = true → Gives s (.progVerify tag) tag c St.bankActive 0 []) ∧
      (enfProg s = false → bankBusy s e b = false →
        (∀ i, programFault (programWords img) = some i → Gives s (.progVerify tag) tag c St.progInvalid i []) ∧
        (programFault (programWords img) = none → overBudget →
          Gives s (.progVerify tag) tag c St.progOverBudget (staticCount (programWords img)) []) ∧
        (programFault (programWords img) = none → ¬overBudget → Completes (.progVerify tag) s fun t =>
          CommandEnds s t tag St.success ∧ bankOk t e b = true ∧
          rd t (if b = 0 then A.engBankcrc0 e else A.engBankcrc1 e) = crc32c img ∧ t.mem = s.mem))) ∧
    (Admitted s (.engineCtrl tag dma) c l →
      let vs := entriesOf 4 l
      let ok (v : Nat) : Bool := decide (cut v 31 24 < 96) && decide (cut v 23 4 = 0) && decide (cut v 1 0 ≠ 3)
      (∀ i, badIndex ok vs = some i → Gives s (.engineCtrl tag dma) tag c St.payloadInvalid i []) ∧
      (badIndex ok vs = none → Completes (.engineCtrl tag dma) s fun t => CommandEnds s t tag St.success ∧
        ((vs.map fun v => cut v 31 24).Nodup → ∀ v ∈ vs,
          let e := cut v 31 24
          (cut v 3 2 < 3 → fld t (A.engSwap e) 1 0 = cut v 3 2) ∧ (cut v 3 2 = 3 → fld t (A.engSwap e) 1 0 = fld s (A.engSwap e) 1 0) ∧
          (cut v 1 0 = 0 → rd t (A.engCtrl e) = rd s (A.engCtrl e)) ∧ (cut v 1 0 = 2 → bit t (A.engCtrl e) 0 = false) ∧
          (cut v 1 0 = 1 → bankOk s e (actBank s e) = true → bit t (A.engCtrl e) 0 = true) ∧
          (cut v 1 0 = 1 → bankOk s e (actBank s e) = false → bit t (A.engEvt e) 9 = true ∧ rd t (A.engCtrl e) = rd s (A.engCtrl e)))))

/-- Element commands take their list only whole, for assigned elements of engines that run SLP-1 with their tables ready: modes and bank choices
become window words of one commit; coefficients need bounds, a loop gain below 1 and a bank that no window names; other words are written
at once, the static ones only in OFF, PARK or CAL; PLATCH clears; characterisations queue; ECT records become one transaction (R114, R147,
R157, R165, R166, R190, R322).
Log entries 29 and 76 hold choices of the model that it rests on. -/
def Obligations.ElementCommandsAreCheckedWhole : Prop :=
  ∀ (s : State) (tag : Fin 4096) (dma : Dma) (c : Cmd) (l : List Byte),
    (Admitted s (.elemMode tag dma) c l →
      let elem (v : Nat) : Nat := cut v 31 18
      let mode (v : Nat) : Nat := cut v 17 15
      Checked s (.elemMode tag dma) tag c (fun v =>
        if cut v 14 0 ≠ 0 ∨ ¬(mode v < 4 ∨ mode v = 5) then St.payloadInvalid
        else if elemStatus s (elem v) ≠ 0 then elemStatus s (elem v)
        else if (mode v < 2 ∨ mode v = 5) ∧ cellOnPath s (elem v) then St.stateConflict
        else if mode v = 5 ∧ ¬calAccepted s (elem v) then St.calRefused else 0) (entriesOf 4 l)
        (WordsSubmitted s (.elemMode tag dma) tag c ((entriesOf 4 l).map fun v => (8 * elem v + 1, modeWord (mode v))))) ∧
    (Admitted s (.coefWrite tag dma) c l →
      let elem (x : List Byte) : Nat := leAt x 0 2
      let bank (x : List Byte) : Nat := leAt x 2 1
      Checked s (.coefWrite tag dma) tag c (fun x =>
        if 2 ≤ bank x ∨ 2 ≤ leAt x 3 1 then St.payloadInvalid
        else if elemStatus s (elem x) ≠ 0 then elemStatus s (elem x)
        else if !coefOk (elemWord s (elem x) wGNOM) (wordAt x 4) (wordAt x 8) (wordAt x 12) (wordAt x 16) (wordAt x 20) then St.coefInvalid
        else if !bankFree s (elem x) (bank x) then St.stateConflict else 0) (chunks 24 10752 l)
        (Completes (.coefWrite tag dma) s fun t => t.regs = s.regs ∧ t.fab = s.fab ∧
          (((chunks 24 10752 l).map fun x => (elem x, bank x)).Nodup → ∀ x ∈ chunks 24 10752 l, ∀ k < 5,
            elemWord t (elem x) ((if bank x = 0 then wBANKA else wBANKB) + k) = wordAt x (4 + 4 * k)) ∧
          ((chunks 24 10752 l).all (fun x => decide (leAt x 3 1 = 0)) = true → CommandEnds s t tag St.success ∧ t.pipe = s.pipe) ∧
          ((chunks 24 10752 l).any (fun x => decide (leAt x 3 1 = 1)) = true → timedStatus s c = 0 →
            t.pipe.waiting.length = s.pipe.waiting.length + 1 ∧ t.host.done = s.host.done))) ∧
    (Admitted s (.elemParam tag dma) c l →
      let elem (v : Nat) : Nat := cut v 63 50
      let word (v : Nat) : Nat := cut v 49 43
      let val (v : Nat) : Word := BitVec.ofNat 32 v
      Checked s (.elemParam tag dma) tag c (fun v =>
        if cut v 42 32 ≠ 0 ∨ ¬elemParamOk (word v) (val v) then St.payloadInvalid
        else if elemStatus s (elem v) ≠ 0 then elemStatus s (elem v)
        else if idleWords.contains (word v) && !elemIdle s (elem v) then St.stateConflict else 0) (words64 l)
        (Completes (.elemParam tag dma) s fun t => t.fab = s.fab ∧
          (((words64 l).map fun v => (elem v, word v)).Nodup → ∀ v ∈ words64 l, word v < 104 →
            (word v = wTONEA → inputVoa s (elem v) = false) → elemWord t (elem v) (word v) = val v) ∧
          ((∀ v ∈ words64 l, word v < 104) → CommandEnds s t tag St.success ∧ SamePipe s t) ∧
          ((∃ v ∈ words64 l, 104 ≤ word v) → timedStatus s c = 0 → t.pipe.waiting.length = s.pipe.waiting.length + 1))) ∧
    (Admitted s (.elemResume tag dma) c l → Checked s (.elemResume tag dma) tag c (elemStatus s) (entriesOf 2 l)
      (Completes (.elemResume tag dma) s fun t => 
        t = finish { fetching s tag c with
          regs := t.regs, mem := t.mem, memBad := t.memBad, lane := { s.lane with groups := t.lane.groups } } tag St.success 0 [] ∧
        (∀ a, (∀ m : Fin 12, a ≠ grpCtrl m ∧ a ≠ grpStat m) → rd t a = rd s a) ∧
        (∀ n ∈ entriesOf 2 l, elemWord t n wPLATCH = f0) ∧
        ∀ k, (∀ n : Nat, k < lsmAddr (engineOf n) (loopOf n) wFPARK ∨ lsmAddr (engineOf n) (loopOf n) wFPARK + 4 ≤ k) →
          (∀ n ∈ entriesOf 2 l, k < lsmAddr (engineOf n) (loopOf n) wPLATCH ∨ lsmAddr (engineOf n) (loopOf n) wPLATCH + 4 ≤ k) →
          readByte memBlank t.mem k = readByte memBlank s.mem k)) ∧
    (Admitted s (.elemRead tag dma) c l →
      let elem (v : Nat) : Nat := cut v 31 18
      Checked s (.elemRead tag dma) tag c (fun v =>
        if cut v 3 0 ≠ 0 ∨ 128 < cut v 17 11 + cut v 10 4 + 1 then St.payloadInvalid
        else if elemStatus s (elem v) ≠ 0 then elemStatus s (elem v)
        else if !mayObserve s c.party (elem v) then St.rightMissing else 0) (entriesOf 4 l)
        (Gives s (.elemRead tag dma) tag c St.success 0 ((entriesOf 4 l).flatMap fun v => (List.range (cut v 10 4 + 1)).flatMap fun k =>
          natLe 4 (elemWord s (elem v) (cut v 17 11 + k)).toNat))) ∧
    (Admitted s (.calRequest tag dma) c l → Checked s (.calRequest tag dma) tag c
      (fun n => if elemStatus s n ≠ 0 then elemStatus s n else if calAccepted s n then 0 else St.calRefused) (entriesOf 2 l)
      (exec (.calRequest tag dma) s = .next { fetching s tag c with sup := { s.sup with
        queue := s.sup.queue ++ (entriesOf 2 l).eraseDups.map fun n => (n, some tag.val),
        jobs := s.sup.jobs ++ [{ tag := tag, elems := entriesOf 2 l, left := (entriesOf 2 l).eraseDups }] } })) ∧
    (Admitted s (.ectWrite tag dma) c l →
      let n := 1028 * c.entry.count.toNat
      let recs := chunks 1028 64 (l.take n)
      let sig := loadSig s (s.sec.enf.getLsbD 1) 3 (l.take n) (l.drop n)
      let readable := loadRecords (l.drop n) = [] ∨ recUnreadable s 2 1 = false
      Checked s (.ectWrite tag dma) tag c (fun x => if leAt x 2 2 ≠ 0 then St.payloadInvalid else elemStatus s (leAt x 0 2)) recs
        ((¬readable → Completes (.ectWrite tag dma) s fun t => CommandEnds s t tag St.nvmUncorr ∧ t.mram = s.mram ∧ t.nvm.queue = s.nvm.queue) ∧
         (readable → sig ≠ 0 → Completes (.ectWrite tag dma) s fun t => CommandEnds s t tag sig ∧ t.mram = s.mram) ∧
         (readable → sig = 0 → mramStatus s ≠ 0 → Completes (.ectWrite tag dma) s fun t => CommandEnds s t tag (mramStatus s) ∧ t.nvm = s.nvm) ∧
         (readable → sig = 0 → mramStatus s = 0 → Completes (.ectWrite tag dma) s fun t => t.mem = s.mem ∧ t.mram = s.mram ∧ bit t A.nvmStat 30 = true ∧
           ∃ x, t.nvm.queue = s.nvm.queue ++ [x] ∧ x.tag = some tag.val ∧
             x.recs.map (fun r => (r.region, r.index, r.payload)) = recs.map fun y => (7, leAt y 0 2, y.drop 4)))) ∧
    (Admitted s (.ectRead tag dma) c l →
      (bit s A.nvmStat 31 = false → Gives s (.ectRead tag dma) tag c St.notReady 0 []) ∧
      (bit s A.nvmStat 31 = true → Checked s (.ectRead tag dma) tag c (elemStatus s) (entriesOf 2 l)
        (((∀ n ∈ entriesOf 2 l, recUnreadable s 7 n = false) →
            Gives s (.ectRead tag dma) tag c St.success 0 ((entriesOf 2 l).flatMap (masterTable s))) ∧
          Completes (.ectRead tag dma) s fun t => t.mram = s.mram ∧ SamePipe s t ∧ t.fab = s.fab ∧
            ∃ d ∈ t.host.done, d.tag = tag.val ∧ d.status = St.success ∧ d.data = (entriesOf 2 l).flatMap (masterTable s))))

namespace Sys2Proof.Machine

/-- A change of ports, rights or bindings waits while a batch is being solved or a commit is staged, settling or awaiting its outcome; else it
takes effect at once, after the changes that wait. -/
def Edits (s : State) (i : Instr) (tag : Fin 4096) (c : Cmd) (kind : Fin 3) (entries : List Nat) (effect : State → Prop) : Prop :=
  let u : State := { fetching s tag c with pipe := { s.pipe with edits := s.pipe.edits ++ [{ tag := tag, kind := kind, entries := entries }] } }
  (s.pipe.batch.isSome = true ∨ s.pipe.cur.isSome = true → exec i s = .next u) ∧
  (s.pipe.batch = none → s.pipe.cur = none → exec i s = .next (betweenBatches.run u) ∧
    (s.pipe.edits = [] → Completes i s fun t => CommandEnds s t tag St.success ∧ t.pipe = s.pipe ∧ effect t))

end Sys2Proof.Machine

/-- TENANT and TIME commands: ports in use keep their owner, rights words and quotas are written, a new source binding starts with no SEQ seen,
these three between two batches;
TENANT_READ answers a tenant only about itself; TIME_READ answers time, tick, frame and state; TIME_TRIGGER arms instants of idle lane
groups; TIME_ASYM corrects a port and ends its PATH_HOLD (R28, R30, R84, R244, R252, R267, R271).
Log entries 26 and 30 hold choices of the model that it rests on. -/
def Obligations.TenantAndTimeCommandsDoWhatTheyName : Prop :=
  ∀ (s : State) (tag : Fin 4096) (dma : Dma) (c : Cmd) (l : List Byte),
    (Admitted s (.portAssign tag dma) c l →
      let out (v : Nat) : Bool := decide (cut v 31 31 = 1)
      let port (v : Nat) : Nat := cut v 30 21
      let owner (v : Nat) : Nat := cut v 20 14
      Checked s (.portAssign tag dma) tag c (fun v =>
        if cut v 13 0 ≠ 0 ∨ 64 < owner v then St.payloadInvalid
        else if portUsed s (out v) (port v) = true ∧ (if out v then outOwner s (port v) else inOwner s (port v)) ≠ owner v
        then St.portInUse else 0) (entriesOf 4 l)
        (Edits s (.portAssign tag dma) tag c 0 (entriesOf 4 l) fun t =>
          t = finish { fetching s tag c with fab := { s.fab with inOwner := t.fab.inOwner, outOwner := t.fab.outOwner } } tag St.success 0 [] ∧
          (((entriesOf 4 l).map fun v => (out v, port v)).Nodup → ∀ v ∈ entriesOf 4 l,
            (if out v then outOwner t (port v) else inOwner t (port v)) = owner v) ∧
          (∀ p, (∀ v ∈ entriesOf 4 l, out v = true → port v ≠ p) → outOwner t p = outOwner s p) ∧
          ∀ p, (∀ v ∈ entriesOf 4 l, out v = false → port v ≠ p) → inOwner t p = inOwner s p)) ∧
    (Admitted s (.rightsSet tag dma) c l →
      let ws := words64 l
      Checked s (.rightsSet tag dma) tag c
        (fun v => if cut v 57 48 ≠ 0 ∨ cut v 47 38 ≠ 0 ∨ cut v 31 11 ≠ 0 ∨ 1024 < cut v 10 0 then St.payloadInvalid else 0) ws
        (Edits s (.rightsSet tag dma) tag c 1 ws fun t => t = finish { fetching s tag c with regs := t.regs } tag St.success 0 [] ∧
          ((ws.map fun v => cut v 63 58).Nodup → ∀ v ∈ ws,
            rd t (A.tenantOf (cut v 63 58) 0) = BitVec.ofNat 32 (cut v 47 32) ∧ quotaOf t (cut v 63 58) = cut v 10 0) ∧
          ∀ a, (∀ v ∈ ws, a ≠ A.tenantOf (cut v 63 58) 0 ∧ a ≠ A.tenantOf (cut v 63 58) 1) → rd t a = rd s a)) ∧
    (Admitted s (.sourceBind tag dma) c l →
      let bs := entriesOf 16 l
      let n (v : Nat) : Nat := cut v 127 120
      Checked s (.sourceBind tag dma) tag c
        (fun v => if cut v 108 64 ≠ 0 ∨ 64 < cut v 118 112 ∨ 2 ≤ cut v 111 110 then St.payloadInvalid else 0) bs
        (Edits s (.sourceBind tag dma) tag c 2 bs fun t => t.fab = s.fab ∧
          ((bs.map n).Nodup → ∀ v ∈ bs,
            bit t (A.bindingOf (n v) 0) 31 = decide (cut v 119 119 = 1) ∧ fld t (A.bindingOf (n v) 0) 30 24 = cut v 118 112 ∧
            fld t (A.bindingOf (n v) 0) 23 22 = cut v 111 110 ∧ bit t (A.bindingOf (n v) 0) 21 = decide (cut v 109 109 = 1) ∧
            rdPair t (A.bindingOf (n v) 1) (A.bindingOf (n v) 2) = (if cut v 111 110 = 1 then cut v 13 0 else cut v 63 0) ∧
            sget (fun _ => []) t.host.seqs (n v) = [] ∧ rd t (A.bindingOf (n v) 4) = rd s (A.bindingOf (n v) 4)))) ∧
    (Admitted s (.tenantRead tag) c l →
      let p := c.entry.p0.toNat
      (c.party < 64 → c.party ≠ p → Gives s (.tenantRead tag) tag c St.rightMissing 0 []) ∧
      (64 ≤ c.party ∨ c.party = p → Gives s (.tenantRead tag) tag c St.success 0
        (natLe 4 (rd s (A.tenantOf p 0)).toNat ++ natLe 4 (rd s (A.tenantOf p 1)).toNat ++
          natLe 4 (protCount s (s.fab.map.conns.map (·.conn)) p) ++ natLe 4 (rd s (A.tenantOf p 2)).toNat ++
          portMap (fun i => decide (inOwner s i = p)) ++ portMap fun i => decide (outOwner s i = p)))) ∧
    (Admitted s (.timeRead tag) c l → Gives s (.timeRead tag) tag c St.success 0
      (natLe 8 (nowNs s) ++ natLe 8 s.tim.tick ++ natLe 8 (netFrame s) ++ natLe 8 (timeState s))) ∧
    (Admitted s (.timeTrigger tag dma) c l →
      let group (v : Nat) : Nat := cut v 59 56
      Checked s (.timeTrigger tag dma) tag c (fun x : Nat × Nat =>
        if cut x.1 63 60 ≠ 0 ∨ 12 ≤ group x.1 then St.payloadInvalid
        else if timeSync s = false then St.timeUnsync
        else if timeStatus s (cut x.1 55 0) (leadNs s + 40000) St.commitTNear ≠ 0 then
          timeStatus s (cut x.1 55 0) (leadNs s + 40000) St.commitTNear
        else if (groupOf s (group x.1)).timeTrig.isSome = true ∨ group x.1 ∈ ((words64 l).take x.2).map group then St.triggerBusy
        else 0) (words64 l).zipIdx
        (Completes (.timeTrigger tag dma) s fun t =>
          t = finish { fetching s tag c with lane := { s.lane with groups := t.lane.groups } } tag St.success 0 [] ∧
          (∀ v ∈ words64 l, groupOf t (group v) = { groupOf s (group v) with timeTrig := some (cut v 55 0) }) ∧
          ∀ k, k ∉ (words64 l).map group → groupOf t k = groupOf s k)) ∧
    (Admitted s (.timeAsym tag) c l → Completes (.timeAsym tag) s fun t =>
      let p := bits c.entry.p0 0 0
      CommandEnds s t tag St.success ∧ rd t (A.ppAsym p) = c.entry.p1 ∧ rd t (A.ppAsym (1 - p)) = rd s (A.ppAsym (1 - p)) ∧
      (servoState s = 4 → p = ptpSource s → servoState t = 2 ∧ t.tim.heldAt = none) ∧
      (servoState s ≠ 4 ∨ p ≠ ptpSource s → servoState t = servoState s ∧ t.tim = s.tim) ∧
      (p = s.tim.pathPort → bit t A.ptpStat 25 = false) ∧ (p ≠ s.tim.pathPort → bit t A.ptpStat 25 = bit s A.ptpStat 25))

/-- TELEMETRY and recorder commands: subscriptions are created whole or not at all, the first refused one named, each starting with the first free
number; a party deletes and reads its own, the admin any; a trigger posts POST_FRAMES more frames; only a frozen recording is read or
released (R289, R303, Table CS-13).
Log entry 96 holds a choice of the model that it rests on. -/
def Obligations.TelemetryCommandsKeepSubscriptions : Prop :=
  ∀ (s : State) (tag : Fin 4096) (dma : Dma) (c : Cmd) (l : List Byte),
    (Admitted s (.subCreate tag dma) c l →
      let ds := descriptors l
      let free := ((List.range 1024).filter fun i => (sget (fun _ => none) s.net.subs i).isNone).take ds.length
      let before (x : List Byte × Nat) : Nat :=
        ((ds.take x.2).filter fun d => !subInvalid s d && decide (subLoad s d = subLoad s x.1)).foldl (fun y d => y + subRate s d) 0
      (1024 < (subsInUse s).length + ds.length → Gives s (.subCreate tag dma) tag c St.subFull 0 []) ∧
      ((subsInUse s).length + ds.length ≤ 1024 → hasRight s c.party rtObserve = false → Gives s (.subCreate tag dma) tag c St.rightMissing 0 []) ∧
      ((subsInUse s).length + ds.length ≤ 1024 → hasRight s c.party rtObserve = true →
        Checked s (.subCreate tag dma) tag c (fun x => if subInvalid s x.1 then St.subInvalid
          else if loadLimit s (subLoad s x.1) < loadNow s (subLoad s x.1) + before x + subRate s x.1 then St.capacity else 0) ds.zipIdx
          (Completes (.subCreate tag dma) s fun t =>
            t = finish { fetching s tag c with regs := t.regs, net := { s.net with subs := t.net.subs } } tag St.success 0 (free.flatMap (natLe 4)) ∧
            (∀ i d, (i, d) ∈ free.zip ds → sget (fun _ => none) t.net.subs i = some (newSub s c.party d)) ∧
            (∀ i, i ∉ free → sget (fun _ => none) t.net.subs i = sget (fun _ => none) s.net.subs i) ∧
            fld t A.tshStat 10 0 = (subsInUse t).length % 2048))) ∧
    (Admitted s (.subDelete tag dma) c l →
      Checked s (.subDelete tag dma) tag c (fun i => if ownSub s c.party i then 0 else St.subNotFound) (entriesOf 4 l)
        (Completes (.subDelete tag dma) s fun t =>
          t = finish { fetching s tag c with regs := t.regs, net := { s.net with subs := t.net.subs } } tag St.success 0 [] ∧
          (∀ i ∈ entriesOf 4 l, sget (fun _ => none) t.net.subs i = none) ∧
          (∀ i, i ∉ entriesOf 4 l → sget (fun _ => none) t.net.subs i = sget (fun _ => none) s.net.subs i) ∧
          fld t A.tshStat 10 0 = (subsInUse t).length % 2048)) ∧
    (Admitted s (.subRead tag) c l → Gives s (.subRead tag) tag c St.success 0
      (((subsInUse s).filter fun u => ownSub s c.party u.1).flatMap fun u => u.2.image)) ∧
    (Admitted s (.replayFreeze tag) c l →
      (bit s A.repStat repFrozen = true → Gives s (.replayFreeze tag) tag c St.replayState 0 []) ∧
      (bit s A.repStat repFrozen = false → bit s A.repStat repPosting = true → Completes (.replayFreeze tag) s fun t =>
        t = finish { fetching s tag c with rep := { s.rep with ignored := s.rep.ignored + 1 } } tag St.success 0 []) ∧
      (bit s A.repStat repFrozen = false → bit s A.repStat repPosting = false → fld s A.repCtrl 31 16 ≠ 0 →
        Completes (.replayFreeze tag) s fun t =>
          t = finish { fetching s tag c with regs := t.regs, rep := { s.rep with left := fld s A.repCtrl 31 16 } } tag St.success 0 [] ∧
          bit t A.repStat repPosting = true ∧ rd t A.repCause = 1#32 ∧ rdPair t A.repTrigLo A.repTrigHi = netFrame s % 2 ^ 64)) ∧
    (Admitted s (.replayRead tag) c l →
      let cap := max 1 (fld s A.repStat 18 0)
      let size := match s.rep.oldest, s.rep.newest with
        | some a, some b => 37696 * (b + 1 - a)
        | _, _ => 0
      let o := 64 * c.entry.p0.toNat
      (bit s A.repStat repFrozen = false → Gives s (.replayRead tag) tag c St.replayState 0 []) ∧
      (bit s A.repStat repFrozen = true → size < o → Gives s (.replayRead tag) tag c St.logRange 0 []) ∧
      (bit s A.repStat repFrozen = true → o ≤ size → ∃ data, Gives s (.replayRead tag) tag c St.success 0 data ∧
        data = (List.range (size - o)).flatMap fun i => hbmAt s ((37696 * (s.rep.oldest.getD 0 % cap) + o + i) % (37696 * cap)) 1)) ∧
    (Admitted s (.replayRelease tag) c l →
      (bit s A.repStat repFrozen = false → Gives s (.replayRelease tag) tag c St.replayState 0 []) ∧
      (bit s A.repStat repFrozen = true → Completes (.replayRelease tag) s fun t =>
        t = finish { fetching s tag c with regs := t.regs } tag St.success 0 [] ∧ (∀ a, a ≠ A.repStat → rd t a = rd s a) ∧
        bit t A.repStat repFrozen = false ∧ bit t A.repStat repKept = false))

/-- A telemetry record is taken once for each due frame of a subscription: every slice counts its skipped frames as lost, takes the record of its
elements, and leaves as a packet when its batch is full; a recording whose last frame is written freezes (R290, R291, R293, R294, R303).
Log entry 72 holds a choice of the model that it rests on. -/
def Obligations.TelemetryRecordsFillSlices : Prop :=
  ∀ s : State,
    (∀ (id : Fin 1024) (missed : Bool),
      let n := netFrame s - 1
      (∀ u, sget (fun _ => none) s.net.subs id = some u →
        let due := u.start ≤ n ∧ (n - u.start) % subDecim u.image = 0 ∧ ∀ m, u.last = some m → m.2 ≠ s.tim.frames
        (¬due → exec (.telemetryRecord id missed) s = .next s) ∧
        (due → Completes (.telemetryRecord id missed) s fun t => t.fab = s.fab ∧ t.mram = s.mram ∧ SamePipe s t ∧
          ∃ v, sget (fun _ => none) t.net.subs id = some v ∧ v.last = some (n, s.tim.frames) ∧ v.image = u.image ∧
            ∀ x i, (x, i) ∈ (sliceList (subElems u.image) u.sliceLen).zipIdx →
              let old := sget (fun _ => ({} : TelSlice)) u.slices i
              let new := sget (fun _ => ({} : TelSlice)) v.slices i
              (old.recs.length + 1 < u.batch → new.recs = old.recs ++ [sliceRecord s u missed x.1 x.2] ∧ new.seq = old.seq) ∧
              (u.batch ≤ old.recs.length + 1 → new.recs = [] ∧ new.seq = old.seq + 1))) ∧
      (sget (fun _ => none) s.net.subs id = none → exec (.telemetryRecord id missed) s = .next s)) ∧
    (bit s A.repStat repPosting = true → s.rep.left = 0 → Completes .replayPostDone s fun t =>
      t = (event A.tshEvt 1 381).run ((setBit A.repStat repFrozen).run ((clrBit A.repStat repPosting).run s)) ∧
      (srcFlag s 381 = true → srcSevere s 381 = true → t = { s with regs := t.regs } ∧
        bit t A.repStat repPosting = false ∧ bit t A.repStat repFrozen = true ∧ bit t A.tshEvt 1 = true)) ∧
    (bit s A.repStat repPosting = false ∨ s.rep.left ≠ 0 → exec .replayPostDone s = .next s)

namespace Sys2Proof.Machine

/-- Register writes by the host, one after the other. -/
def HostWrites : List (Fin 16777216 × Word) → State → State → Prop
  | [], s, t => t = s
  | (w, v) :: l, s, t => ∃ u, exec (.registerWrite .host w v) s = .next u ∧ HostWrites l u t
/-- The command waits for a transaction, the last in the queue, of these records. -/
def Queued (s t : State) (tag : Fin 4096) (c : Cmd) (recs : List (Nat × Nat × List Byte)) (p : NvmTxn → Prop) : Prop :=
  t = { fetching s tag c with regs := t.regs, nvm := t.nvm } ∧ bit t A.nvmStat 30 = true ∧
  ∃ x, t.nvm.queue = s.nvm.queue ++ [x] ∧ x.tag = some tag.val ∧ x.recs.map (fun r => (r.region, r.index, r.payload)) = recs ∧ p x

/-- None of these NVM records is uncorrectable. -/
def readable (s : State) (l : List (Nat × Nat)) : Bool := !l.any fun x => recUnreadable s x.1 x.2
/-- A record that the command is judged by is uncorrectable: it ends so, and does nothing else but record the error. -/
def Uncorrectable (s : State) (i : Instr) (tag : Nat) : Prop := Completes i s fun t =>
  CommandEnds s t tag St.nvmUncorr ∧ t.sec = s.sec ∧ t.nvm.queue = s.nvm.queue ∧ t.mram = s.mram

end Sys2Proof.Machine

/-- DIAG commands: ECHO returns its payload; REG_READ and REG_WRITE act as the host's own accesses do, in order; INJ_TRIGGER starts a loaded sequence
that is not running; MEM_READ answers bytes of BAR2 (R84, R376, R377, Table CS-14). -/
def Obligations.DiagCommandsActAsTheHost : Prop :=
  ∀ (s : State) (tag : Fin 4096) (dma : Dma) (c : Cmd) (l : List Byte),
    (Admitted s (.echo tag dma) c l → Gives s (.echo tag dma) tag c St.success 0 l) ∧
    (Admitted s (.regRead tag dma) c l →
      let as := entriesOf 4 l
      let u := fetching s tag c
      Checked s (.regRead tag dma) tag c (fun a => if a % 4 = 0 ∧ a < 0x4000000 then 0 else St.payloadInvalid) as
        (exec (.regRead tag dma) s = .next ((readAll as fun d => complete tag St.success 0 0 d).run u) ∧
         (bit s A.dbgCtrl 0 = false → (∀ a ∈ as, regMapped a = true ∧ latchedBy u (reqIx .host) a = []) →
          Gives s (.regRead tag dma) tag c St.success 0 (as.flatMap fun a => natLe 4 (regRead u (reqIx .host) a).toNat)))) ∧
    (Admitted s (.regWrite tag dma) c l →
      let ws := words64 l
      Checked s (.regWrite tag dma) tag c (fun v => if cut v 63 32 % 4 = 0 ∧ cut v 63 32 < 0x4000000 then 0 else St.payloadInvalid) ws
        (Completes (.regWrite tag dma) s fun t => ∃ u,
          HostWrites (ws.map fun v => (Fin.ofNat 16777216 (cut v 63 34), BitVec.ofNat 32 v)) (fetching s tag c) u ∧ t = finish u tag St.success 0 [])) ∧
    (Admitted s (.injTrigger tag) c l → Completes (.injTrigger tag) s fun t =>
      let k := bits c.entry.p0 3 0
      CommandEnds s t tag St.success ∧ t.fab = s.fab ∧
      (injLen s k = 0 ∨ 32 < injLen s k → bit t (grpStat k) 5 = true ∧ t.lane = s.lane ∧ t.mem = s.mem) ∧
      (1 ≤ injLen s k → injLen s k ≤ 32 → bit s (grpStat k) 28 = true → bit t (grpStat k) 4 = true ∧ t.lane = s.lane ∧ t.mem = s.mem) ∧
      (1 ≤ injLen s k → injLen s k ≤ 32 → bit s (grpStat k) 28 = false → bit t (grpStat k) 28 = true ∧ fld t (grpStat k) 27 23 = 0 ∧
        (groupOf t k).pos = 0 ∧ ∀ i < 32, (readWord t.mem (injResult k i)).getLsbD 31 = false)) ∧
    (Admitted s (.memRead tag) c l →
      let o := c.entry.p0.toNat
      let n := min 1048576 c.entry.respLen.toNat
      Completes (.memRead tag) s fun t =>
        t = finish { fetching s tag c with regs := t.regs, free := s.free + 1 } tag St.success 0 ((List.range n).map fun i => bar2Byte s (o + i)) ∧
        (bar2BadIn o n = none → t.regs = s.regs) ∧
        (bar2BadIn o n ≠ none → fld t A.idBadcnt 15 0 = min (fld s A.idBadcnt 15 0 + 1) 65535))

/-- HUDDLE commands: HUDDLE_COMMIT opens a group in the lowest free slot with the next serial number, or names the first rule its request breaks, or,
without members, waits for the sender's open groups; HUDDLE_RESOLVE forces a group in doubt; HUDDLE_STATUS answers the admin and the
group's owner (R216, R217, R231, R247, R254).
Log entries 37, 38, 39 and 41 hold choices of the model that it rests on. -/
def Obligations.HuddleCommandsOpenAndForceGroups : Prop :=
  ∀ (s : State) (tag : Fin 4096) (dma : Dma) (c : Cmd) (l : List Byte),
    (Admitted s (.huddleCommit tag dma) c l →
      let n := c.entry.p0.toNat
      let k := c.entry.count.toNat
      let waitFor := ((openGroups s).filter fun g => g.tag.isSome && decide (g.owner = c.party)).map (·.id)
      (n = 0 → k = 0 → Completes (.huddleCommit tag dma) s fun t => SamePipe s t ∧ t.klk = s.klk ∧ t.hdl.slots = s.hdl.slots ∧
        (waitFor = [] → CommandEnds s t tag St.success) ∧
        (waitFor ≠ [] → (waitFor.all fun id => (findHGroup s id).isNone) = false → (tag.val, waitFor) ∈ t.hdl.barriers)) ∧
      (¬(n = 0 ∧ k = 0) → memberRecords s n k l = none → Gives s (.huddleCommit tag dma) tag c St.huddleGroupInvalid 0 []) ∧
      ∀ r, ¬(n = 0 ∧ k = 0) → memberRecords s n k l = some r →
        let sets := splitSets (r.map (·.2)) ((entriesOf 8 (l.drop (8 * n))).map (BitVec.ofNat 64))
        let time := (timedOf c.entry).getD (gridAfter s (1000 * fld s A.hdlMinlead 19 0))
        let adds := ((sets.flatMap fun x => x.map fun e => changeOf e.toNat).filter fun x => !x.del).map (·.conn)
        let st := commitGroupStatus s c (r.map (·.1)) adds ((sets.headD []).map fun e => changeOf e.toNat) time
        (st ≠ 0 → Completes (.huddleCommit tag dma) s fun t => CommandEnds s t tag st ∧ t.hdl = s.hdl ∧ SamePipe s t ∧
          (st = St.huddleNoSlot → bit t A.hdlEvt 1 = true)) ∧
        (st = 0 → ∀ i, freeSlot s = some i → Completes (.huddleCommit tag dma) s fun t =>
          t.host.done = s.host.done ∧ t.fab = s.fab ∧ SamePipe s t ∧ t.hdl.serial = s.hdl.serial + 1 ∧
          (∀ j, j ≠ i → slotGroup t j = slotGroup s j) ∧
          ∃ g, slotGroup t i = some g ∧ g.id = ownAddr s * 2 ^ 18 + s.hdl.serial % 2 ^ 18 ∧ g.index = 0 ∧ g.members = r.map (·.1) ∧ g.time = time ∧
            g.tag = some tag.val ∧ g.owner = c.party ∧ g.sets = sets ∧ g.ready = true)) ∧
    (Admitted s (.huddleResolve tag) c l →
      let id := c.entry.p0.toNat
      (findHGroup s id = none → Gives s (.huddleResolve tag) tag c         (if (closedRec s id).isSome then St.huddleNotInDoubt else St.huddleGroupUnknown) 0 []) ∧
      ∀ g, findHGroup s id = some g →
        (g.state ≠ 7 → Gives s (.huddleResolve tag) tag c St.huddleNotInDoubt 0 []) ∧
        (g.state = 7 → c.entry.p1 = 1#32 → Completes (.huddleResolve tag) s fun t =>
          CommandEnds s t tag St.success ∧ GroupClosed t id ∧ t.fab.map = s.fab.map ∧ ∀ w, g.tag = some w → CommandEnds s t w St.huddleForced) ∧
        (g.state = 7 → c.entry.p1 ≠ 1#32 → Completes (.huddleResolve tag) s fun t =>
          CommandEnds s t tag St.success ∧ t.fab = s.fab ∧ SamePipe s t ∧
          ∃ u, findHGroup t id = some u ∧ u.forced = true ∧ u.tRev = some (match g.tRev with
            | some r => min (revertInstant s g) r
            | none => revertInstant s g))) ∧
    (Admitted s (.huddleStatus tag) c l →
      let id := c.entry.p0.toNat
      let mine (owner : Nat) : Prop := c.party = 64 ∨ owner = c.party
      (∀ g, findHGroup s id = some g →
        (¬mine g.owner → Gives s (.huddleStatus tag) tag c St.huddleGroupUnknown 0 []) ∧
        (mine g.owner → Gives s (.huddleStatus tag) tag c St.success 0 (natLe 4 g.state ++ (List.range 512).map fun i =>
          let st (k : Nat) : Nat := if k = g.index then g.state else (heardOf g k).state
          BitVec.ofNat 8 (st (2 * i) + 16 * st (2 * i + 1))))) ∧
      (findHGroup s id = none → closedRec s id = none → Gives s (.huddleStatus tag) tag c St.huddleGroupUnknown 0 []) ∧
      (∀ r, findHGroup s id = none → closedRec s id = some r → mine r.owner → ∃ data,
        Gives s (.huddleStatus tag) tag c St.success 0 (natLe 4 r.state ++ data) ∧ data.length = 512))

/-- SECURITY commands need the security core. ATTEST answers a report over the nonce with the identity's signatures; a patch must be signed by a vendor
root and not be older than the counters, and one transaction holds it; keys enrol once; enforcement is set with a key and cleared with a
signature; a challenge serves one unlock; where a record they are judged by is uncorrectable they end NVM_UNCORR (R323, R362 to R364, R367 to R372).
Log entry 46 holds a choice of the model that it rests on. -/
def Obligations.SecurityCommandsVerifyBeforeTheyAct : Prop :=
  ∀ (s : State) (tag : Fin 4096) (dma : Dma) (c : Cmd) (l : List Byte),
    (domUp s 14 = false → ∀ i ∈ [Instr.attest tag dma, .patchLoad tag dma, .keyEnrol tag dma, .enforceSet tag dma, .jtagChallenge tag,
      .jtagUnlock tag dma], Admitted s i c l → Gives s i tag c St.notReady 0 []) ∧
    (domUp s 14 = true →
      (Admitted s (.attest tag dma) c l → readable s [(1, 0), (2, 0), (2, 1)] = false → Uncorrectable s (.attest tag dma) tag) ∧
      (Admitted s (.attest tag dma) c l → readable s [(1, 0), (2, 0), (2, 1)] = true → exec (.attest tag dma) s = .next (finish { fetching s tag c with free := s.free + 1 } tag St.success 0
        (reportBody s l ++ identityBlock s.free (reportBody s l)))) ∧
      (Admitted s (.patchLoad tag dma) c l → readable s [(1, 0)] = false → Uncorrectable s (.patchLoad tag dma) tag) ∧
      (Admitted s (.patchLoad tag dma) c l → readable s [(1, 0)] = true → Completes (.patchLoad tag dma) s fun t =>
        let st := if patchStatus s l ≠ 0 then patchStatus s l else if slotSize 5 - 32 < l.length then St.nvmFull else mramStatus s
        (st ≠ 0 → CommandEnds s t tag st ∧ t.sec = s.sec ∧ t.nvm.queue = s.nvm.queue ∧ t.mram = s.mram) ∧
        (st = 0 → Queued s t tag c [(5, 0, l), (1, 0, natLe 4 (leAt l 4 4) ++ natLe 4 (leAt l 12 1))] fun x => x.options = none)) ∧
      (Admitted s (.keyEnrol tag dma) c l → l.length = 1984 → readable s [(2, 1)] = false → Uncorrectable s (.keyEnrol tag dma) tag) ∧
      (Admitted s (.keyEnrol tag dma) c l → l.length ≠ 1984 ∨ readable s [(2, 1)] = true →
        let st := if l.length ≠ 1984 then St.payloadInvalid else if (custKeys s).isSome then St.keyState else mramStatus s
        (st ≠ 0 → Gives s (.keyEnrol tag dma) tag c st 0 []) ∧
        (st = 0 → Completes (.keyEnrol tag dma) s fun t => Queued s t tag c [(2, 1, l)] fun x => x.options = none)) ∧
      (Admitted s (.enforceSet tag dma) c l → readable s [(2, 1), (2, 2)] = false → Uncorrectable s (.enforceSet tag dma) tag) ∧
      (Admitted s (.enforceSet tag dma) c l → readable s [(2, 1), (2, 2)] = true → Completes (.enforceSet tag dma) s fun t =>
        let p := c.entry.p0.toNat
        let now := s.sec.enf.toNat % 4
        let ok := if l = [] then (custKeys s).isSome else custSigOk s l 4 (serialBytes ++ natLe 4 (enfSeq s) ++ natLe 4 p)
        let st := if ok = false then (if l = [] then St.keyState else St.sigInvalid) else mramStatus s
        let v := if l = [] then now ||| p else now &&& (3 - p)
        (st ≠ 0 → CommandEnds s t tag st ∧ t.sec = s.sec ∧ t.nvm.queue = s.nvm.queue ∧ t.mram = s.mram) ∧
        (st = 0 → Queued s t tag c [(2, 2, natLe 4 (enfSeq s + 1))] fun x =>
          ∃ img, x.options = some img ∧ x.after = .options img (some (decide (v % 2 = 1), decide (v / 2 = 1))))) ∧
      (Admitted s (.jtagChallenge tag) c l →
        let ch := (List.range 32).map (Config.challengeByte s.free)
        exec (.jtagChallenge tag) s = .next (finish { fetching s tag c with
          free := s.free + 1, sec := { s.sec with challenge := some ch, failedAt := none } } tag St.success 0 ch)) ∧
      (Admitted s (.jtagUnlock tag dma) c l → Completes (.jtagUnlock tag dma) s fun t =>
        let failed := { s.sec with challenge := none, failedAt := some s.clk.mono }
        (s.sec.challenge = none → CommandEnds s t tag St.challengeInvalid ∧ t.sec = failed) ∧
        (s.sec.challenge ≠ none → readable s (unlockRecords s) = false → CommandEnds s t tag St.nvmUncorr ∧ t.sec = failed) ∧
        (∀ ch, s.sec.challenge = some ch → readable s (unlockRecords s) = true → unlockOk s l ch = false → CommandEnds s t tag St.sigInvalid ∧ t.sec = failed) ∧
        (∀ ch, s.sec.challenge = some ch → readable s (unlockRecords s) = true → unlockOk s l ch = true → CommandEnds s t tag St.success ∧
          t.sec = { s.sec with challenge := none, jtagOpen := true, jtagEver := true })))

namespace Sys2Proof.Machine

/-- A PTP message that reaches the port logic, and one that this device takes. -/
def PtpHeard (s : State) (h : PtpHead) : Prop :=
  domRuns s 39 = true ∧ bit s A.ptpCtrl 0 = true ∧ bit s (A.ppCtrl h.port) 0 = true ∧ bit s (A.ethStat h.port) 8 = true
def PtpOurs (s : State) (h : PtpHead) (peer : Bool) : Prop :=
  PtpHeard s h ∧ ptpSupported s h peer = true ∧ (bit s A.ptpCtrl 2 = true → h.secure = true) ∧
  h.domain.toNat = fld s A.ptpDomain 7 0 ∧ ppState s h.port ≠ ppFaulty
/-- The message waits at the end of its port's queue for PTP messages, where it fits a window of the gate control list; what waits carries the
message, the port's tag and the length of its frame. Nothing else but the port's own records changes (R279, R295). -/
def PtpQueued (s t : State) (m : PtpSent) : Prop :=
  let q := internalQ (8 * m.port) qPtp
  let tag := fld s (A.devTag (8 * m.port)) 15 0
  let f : NetFrame := { dst := (ptpGroup m.transport m.dest).1, tag := tag, body := .ptp m, bytes := (ptpFrame s m tag).length, at_ := s.clk.mono }
  (oversize s (8 * m.port) (queueClass s q) f = false → (egQueue t q).frames = (egQueue s q).frames ++ [f]) ∧
  t = { s with regs := t.regs, net := t.net, tim := t.tim }

end Sys2Proof.Machine

/-- Unsupported or unprotected messages are dropped and counted; an Announce of the port's master, or of a better one, is taken; a Sync of the master
gives the port's offset and, at the source, moves the servo by Table TM-3, stepping only where R269 says so; a delay response gives an
exchange, and a changed path delay starts PATH_HOLD; peer requests are answered (R260 to R266, R269 to R271).
Log entries 31, 32, 67 and 68 hold choices of the model that it rests on. -/
def Obligations.PtpMessagesMoveTheServo : Prop :=
  ∀ (s : State) (h : PtpHead) (b : SyncBody) (v : Servo) (g : GmData) (y : DelayBody) (turn : Nat),
    let p := h.port.val
    let x := ptpOf s p
    let takes : List (Instr × Bool) := [(.ptpSyncReceive h b v, false), (.ptpAnnounceReceive h g, false),
      (.ptpDelayRespReceive h y, decide (y = .pdelayResp)), (.ptpPdelayReqReceive h turn, true)]
    (¬PtpHeard s h → ∀ i ∈ takes, exec i.1 s = .next s) ∧
    (PtpHeard s h → ∀ i ∈ takes, ptpSupported s h i.2 = false ∨ (bit s A.ptpCtrl 2 = true ∧ h.secure = false) →
      Completes i.1 s fun t => t = { s with regs := t.regs } ∧ fld t (A.ppErrcnt p) 31 16 = min (fld s (A.ppErrcnt p) 31 16 + 1) 65535 ∧
        fld t (A.ppErrcnt p) 15 0 = fld s (A.ppErrcnt p) 15 0 ∧ ∀ a, a ≠ A.ppErrcnt p → rd t a = rd s a) ∧
    (PtpOurs s h false →
      (let take : Prop := fromMaster s h = true ∨ ∀ old, x.gm = some old → listLt (gmKey s p g) (gmKey s p old) = true
       (take → Completes (.ptpAnnounceReceive h g) s fun t => (ptpOf t p).gm = some g ∧ bit t (A.ppStat p) 27 = true ∧
          fld t (A.ppStat p) 7 0 = g.cls.toNat ∧ rdPair t (A.ppMasterLo p) (A.ppMasterHi p) = h.master.toNat ∧ ppState t p ≠ ppListening ∧
          Out.utcOffset p g.utcOffset ∈ t.outs ∧ t.fab = s.fab) ∧
       (¬take → Completes (.ptpAnnounceReceive h g) s fun t => t = { s with regs := t.regs } ∧ ∀ a, a ≠ A.ppRxcnt p → rd t a = rd s a)) ∧
      (fromMaster s h = false → exec (.ptpSyncReceive h b v) s = .next s) ∧
      (fromMaster s h = true → ∀ t1,
        Completes (.ptpSyncReceive h .twoStep v) s (fun t => (ptpOf t p).pending = some (h.seq, rxStamp s p h.sub - 1000 * h.corr) ∧
          servoState t = servoState s ∧ (ptpOf t p).raw = x.raw) ∧
        (∀ q t2, x.pending = some (q, t2) → q = h.seq → Completes (.ptpSyncReceive h (.followUp t1) v) s fun t =>
          (ptpOf t p).raw = some (t2 - ptpNs * Int.ofNat t1 - 1000 * h.corr) ∧ (ptpOf t p).pending = none) ∧
        Completes (.ptpSyncReceive h (.oneStep t1) v) s fun t =>
          let raw := rxStamp s p h.sub - 1000 * h.corr - ptpNs * Int.ofNat t1
          let off := raw - pathDelay x - ptpAsym s p
          (ptpOf t p).raw = some raw ∧ (ptpOf t p).syncAt = s.clk.mono ∧ t.fab = s.fab ∧
          (x.exch ≠ [] → rd t (A.ppOffset p) = BitVec.ofNat 32 (ptpShow off)) ∧ (x.exch = [] → servoState t = servoState s) ∧
          (x.exch ≠ [] → ppState s p = ppSlave → p = ptpSource s →
            let n := servoState s
            let thr := ptpNs * Int.ofNat (fld s A.syncThr 9 0)
            let beyond := ptpNs * Int.ofNat (rd s A.stepThr).toNat < absInt off
            let m := if n = 0 then 1 else if n = 3 then (if absInt off ≤ thr then 2 else 1) else n
            let jump := (m = 1 ∨ m = 2) ∧ beyond ∧
              (s.tim.first = true ∨ n = 0 ∨ (m = 1 ∧ n = 3) ∨ (m = 2 ∧ 15 ≤ s.tim.stepRun))
            rd t A.offset = v.filtered ∧
            servoState t = (if m = 1 ∧ 2 * absInt v.filtered.toInt < 32 * Int.ofNat (fld s A.syncThr 9 0) ∧ 15 ≤ s.tim.lockRun then 2 else m) ∧
            (jump → t.tim.stepPend = some (s.tim.stepPend.getD 0 - off) ∧ bit t A.ptpEvt 0 = true) ∧
            (¬jump → t.tim.stepPend = s.tim.stepPend ∧ (m = 1 ∨ m = 2 → rd t A.rateAdj = BitVec.ofInt 32 (clampRate v.rate.toInt)))))) ∧
    (PtpOurs s h (decide (y = .pdelayResp)) →
      ((∀ q t3, x.req = some (q, t3) → q ≠ h.seq ∨ ppState s p < 2) → exec (.ptpDelayRespReceive h y) s = .next s) ∧
      (∀ raw t3 d, x.req = some (h.seq, t3) → 2 ≤ ppState s p → x.raw = some raw → servoState s ≠ 4 →
        (match y with
          | .delayResp t4 => ptpPeer s p = false ∧ fromMaster s h = true ∧ d = (raw + ptpNs * Int.ofNat t4 - 1000 * h.corr - t3) / 2
          | .pdelayResp => ptpPeer s p = true ∧ d = (rxStamp s p h.sub - t3 - 1000 * h.corr) / 2) →
        Completes (.ptpDelayRespReceive h y) s fun t =>
          let z : PtpPort := { x with exch := ((raw, d) :: x.exch).take 320 }
          let change := p = ptpSource s ∧ servoState s = 2 ∧ pcWin s < z.exch.length ∧ delaySteady s z = false
          (ptpOf t p).exch = z.exch ∧ (ptpOf t p).req = none ∧ (ptpOf t p).delayAt = s.clk.mono ∧ t.fab = s.fab ∧
          (change → servoState t = 4 ∧ bit t A.ptpStat 25 = true ∧ t.tim.pathPort = p ∧ (ptpOf t p).held = some (olderDelay s z)) ∧
          (¬change → servoState t = servoState s ∧ (ptpOf t p).held = x.held))) ∧
    (PtpOurs s h true →
      (ptpPeer s p = false → exec (.ptpPdelayReqReceive h turn) s = .next s) ∧
      (ptpPeer s p = true → Completes (.ptpPdelayReqReceive h turn) s fun t => t.tim = s.tim ∧
        PtpQueued s t (ptpOut s h.port 3 h.seq (rxStamp s p h.sub) (turn % 8) h.master)))

/-- A port with a master sends its request at each interval, and without Sync or answers for three it listens again, the last one leaving the servo in
HOLDOVER; PATH_HOLD and the synchronised part of HOLDOVER end in time; the anchor moves without moving time; PPS_OUT pulses on each second
while synchronised, PPS_IN edges are stamped and missed once; PTP counters clear (R258, R264, R266, R267, R271, R275, R276, R280). -/
def Obligations.TimeKeepsItsIntervals : Prop :=
  ∀ s : State,
    (∀ (p : Fin 2) (sub : Fin 8),
      let due := domRuns s 39 = true ∧ (ppState s p = ppUncalibrated ∨ ppState s p = ppSlave) ∧
        ∀ a, (ptpOf s p).reqAt = some a → reqTicks s p ≤ s.clk.mono - a
      (¬due → exec (.ptpDelayReqSend p sub) s = .next s) ∧
      (due → Completes (.ptpDelayReqSend p sub) s fun t =>
        PtpQueued s t (ptpOut s p (if ptpPeer s p then 2 else 1) (ptpOf s p).nextSeq 0 sub 0#64) ∧
        ptpOf t p = { ptpOf s p with nextSeq := (ptpOf s p).nextSeq + 1#16, reqAt := some s.clk.mono })) ∧
    (∀ p : Fin 2,
      let lost := (ppState s p = ppUncalibrated ∨ ppState s p = ppSlave) ∧
        (3 * syncTicks s p ≤ s.clk.mono - (ptpOf s p).syncAt ∨ 3 * reqTicks s p ≤ s.clk.mono - (ptpOf s p).delayAt)
      (¬lost → exec (.ptpReceiptTimeout p) s = .next s) ∧
      (lost → Completes (.ptpReceiptTimeout p) s fun t => ppState t p = ppListening ∧ bit t (A.ppStat p) 27 = false ∧
        fld t (A.ppErrcnt p) 15 0 = min (fld s (A.ppErrcnt p) 15 0 + 1) 65535 ∧ (ptpOf t p).gm = none ∧ (ptpOf t p).exch = [] ∧ t.fab = s.fab ∧
        (ppIsSlave s p = true → ppIsSlave s (1 - p.val) = false → servoState s = 1 ∨ servoState s = 2 ∨ servoState s = 4 →
          servoState t = 3 ∧ bit t A.ptpEvt 3 = true) ∧
        (ppIsSlave s p = false → servoState t = servoState s))) ∧
    (servoState s = 4 → 768000000 * fld s A.pcCtrl 31 24 ≤ s.clk.mono - s.tim.pathAt → Completes .pathHoldTimeout s fun t =>
      servoState t = 2 ∧ (ptpOf t (ptpSource s)).held = none ∧ (ptpOf t (ptpSource s)).exch = (ptpOf s (ptpSource s)).exch.take (pcWin s) ∧
      bit t A.ptpStat 25 = bit s A.ptpStat 25 ∧ bit t A.ptpEvt 7 = true ∧ rd t (A.ppAsym 0) = rd s (A.ppAsym 0)) ∧
    (servoState s ≠ 4 ∨ s.clk.mono - s.tim.pathAt < 768000000 * fld s A.pcCtrl 31 24 → exec .pathHoldTimeout s = .next s) ∧
    (∀ a, s.tim.heldAt = some a → 768000000 * fld s A.hoSync 6 0 ≤ s.clk.mono - a → Completes .holdoverSyncExpiry s fun t =>
      t.tim = { s.tim with heldAt := none } ∧ servoState t = servoState s ∧ (servoState s = 3 ∨ servoState s = 4 → timeSync t = false)) ∧
    (s.tim.heldAt = none → exec .holdoverSyncExpiry s = .next s) ∧
    (2 ^ 46 ≤ (s.tim.tick + 2 ^ 48 - s.tim.anchor) % 2 ^ 48 → Completes .tickReanchor s fun t =>
      t = { s with regs := t.regs, tim := { s.tim with nA := netNow s, anchor := s.tim.tick } } ∧ netNow t = netNow s ∧
      ∀ a, rd t a = rd s a) ∧
    ((s.tim.tick + 2 ^ 48 - s.tim.anchor) % 2 ^ 48 < 2 ^ 46 → exec .tickReanchor s = .next s) ∧
    (domRuns s 39 = true → s.tim.ppsSec < nowNs s / 1000000000 →
      exec .ppsOutPulse s = .next (if timeSync s = true ∨ bit s A.ptpCtrl 6 = false then
        { s with tim := { s.tim with ppsSec := nowNs s / 1000000000, ppsHigh := true, ppsAt := s.clk.mono }, outs := s.outs ++ [.pps true] }
        else { s with tim := { s.tim with ppsSec := nowNs s / 1000000000 } })) ∧
    (domRuns s 39 = false ∨ nowNs s / 1000000000 ≤ s.tim.ppsSec → exec .ppsOutPulse s = .next s) ∧
    exec .ppsOutPulseEnd s = .next (if s.tim.ppsHigh = true ∧ s.tim.ppsAt + 768 * fld s A.ppsCtrl 19 0 ≤ s.clk.mono then
      { s with tim := { s.tim with ppsHigh := false }, outs := s.outs ++ [.pps false] } else s) ∧
    (∀ sub : Fin 8, domRuns s 39 = true → fld s A.ptpCtrl 9 8 = 1 → Completes (.ppsInEdge sub) s fun t =>
      rdPair t A.ppsInTsLo A.ppsInTsHi = unsigned 64 (ptpNow s sub / ptpNs - (rd s A.ppsInDly).toInt) ∧
      t = { s with regs := t.regs, tim := { s.tim with ppsInAt := some s.clk.mono, ppsMissed := false } }) ∧
    (∀ a, fld s A.ptpCtrl 9 8 = 1 → s.tim.ppsMissed = false → s.tim.ppsInAt = some a → 844800000 ≤ s.clk.mono - a →
      Completes .ppsInMiss s fun t => t.tim = { s.tim with ppsMissed := true } ∧ bit t A.ptpEvt 8 = true) ∧
    (fld s A.ptpCtrl 9 8 ≠ 1 ∨ s.tim.ppsMissed = true ∨ s.tim.ppsInAt = none → exec .ppsInMiss s = .next s) ∧
    (writeTaken s A.ptpCtrl = true → Completes .ptpCntClr s fun t => t.tim = s.tim ∧ rd t A.timeStepcnt = 0#32 ∧
      (∀ p < 2, rd t (A.ppRxcnt p) = 0#32 ∧ rd t (A.ppErrcnt p) = 0#32) ∧ ∀ k < 16, rd t (A.gateMacOf k 2) = 0#32 ∧ rd t (A.gateMacOf k 3) = 0#32)

namespace Sys2Proof.Machine

/-- The lanes with PCS lock are shown, the MACs that have all of theirs are up, and what changed is reported. -/
def LinksShown (s t : State) (p lanes : Nat) : Prop :=
  let new (m : Nat) : Bool := bit s (A.ethCtrl p) 0 && macLocked s p m lanes
  let old (m : Nat) : Bool := bit s (A.ethStat p) (8 + m)
  let gained : Bool := (List.range 8).any fun m => new m && !old m
  let lost : Bool := (List.range 8).any fun m => !new m && old m
  ∃ u, u = { s with regs := u.regs } ∧ (∀ a, a ≠ A.ethStat p → rd u a = rd s a) ∧ fld u (A.ethStat p) 7 0 = lanes ∧
    (∀ m < 8, bit u (A.ethStat p) (8 + m) = new m) ∧
    t = (Act.all [Act.when gained (event (A.ethEvt p) 0 (356 + 5 * p)), Act.when lost (event (A.ethEvt p) 1 (357 + 5 * p))]).run u
/-- A control frame joins the queue of MAC k's control traffic. -/
def ControlSent (s t : State) (k dst : Nat) (b : NetBody) : Prop := ∃ f : NetFrame, f.body = b ∧ f.dst = dst ∧
  (egQueue t (internalQ k qControl)).frames = (egQueue s (internalQ k qControl)).frames ++ [f]
/-- A counter of a register counted one, and no other register or part changed. -/
def OnlyCounted (s t : State) (a hi lo : Nat) : Prop := t = { s with regs := t.regs } ∧
  fld t a hi lo = min (fld s a hi lo + 1) (2 ^ (hi + 1 - lo) - 1) ∧ ∀ b, b ≠ a → rd t b = rd s b

end Sys2Proof.Machine

/-- Gates follow the operational list; a good list becomes pending for its base time or the next cycle of it and operational then, when frames that fit
no window go; a free MAC sends the ready head of the highest class and smallest start tag, a PTP message with the stamp of its departure; token buckets, policers and histograms
take their settings and samples (R277 to R279, R285, R294 to R301, R305).
Log entries 9 and 33 hold choices of the model that it rests on. -/
def Obligations.EgressFollowsGatesTagsAndTokens : Prop :=
  ∀ s : State,
    (∀ k : Fin 16,
      (gated s k = true → domRuns s 39 = true → Completes (.gateTransition k) s fun t => t = { s with net := { s.net with macs := t.net.macs } } ∧
        macOf t k = { macOf s k with gate := some (gateAt s k (schedNow s)) } ∧ ∀ j, j ≠ k.val → macOf t j = macOf s j) ∧
      (gated s k = false ∨ domRuns s 39 = false → exec (.gateTransition k) s = .next s) ∧
      (writeTaken s A.gclCtrl = true →
        (bit s (A.gateMacOf k 0) 1 = true ∨ adminGood s k = false → Completes (.gclConfigChange k) s fun t =>
          bit t (A.gateMacOf k 1) 1 = true ∧ t.net = s.net ∧ ∀ l w, l < 3 → w < 520 → rd t (A.gclOf k l w) = rd s (A.gclOf k l w)) ∧
        (bit s (A.gateMacOf k 0) 1 = false → adminGood s k = true → Completes (.gclConfigChange k) s fun t =>
          let base := rdPair s (A.gclOf k 0 3) (A.gclOf k 0 4)
          let cycle := fld s (A.gclOf k 0 1) 29 0
          bit t (A.gateMacOf k 0) 1 = true ∧ (∀ w < 520, rd t (A.gclOf k 2 w) = rd s (A.gclOf k 0 w) ∧ rd t (A.gclOf k 1 w) = rd s (A.gclOf k 1 w)) ∧
          ∃ c, (macOf t k).changeAt = some c ∧ (schedReached s base = false → c = base) ∧
            (schedReached s base = true → base ≤ schedNow s → schedNow s < c ∧ c ≤ schedNow s + cycle ∧ ∃ m, c = base + m * cycle))) ∧
      (((macOf s k).changeAt.any fun c => !schedReached s c) = true ∨ (macOf s k).changeAt = none → exec (.gclConfigChangeTime k) s = .next s) ∧
      (∀ c, (macOf s k).changeAt = some c → schedReached s c = true → Completes (.gclConfigChangeTime k) s fun t =>
        (∀ w < 520, rd t (A.gclOf k 1 w) = rd s (A.gclOf k 2 w)) ∧ bit t (A.gateMacOf k 0) 1 = false ∧ bit t (A.gateMacOf k 1) 0 = true ∧
        (macOf t k).changeAt = none ∧ t.outs = s.outs ∧
        ∀ q, queueMac s q = k.val → ∀ f ∈ (egQueue t q).frames, oversize t k (queueClass t q) f = false) ∧
      (∀ q, pickQueue s k = some q → q ∈ busyQueues s k ∧ headReady s k q = true ∧ ∀ r ∈ busyQueues s k, headReady s k r = true →
        queueClass s r < queueClass s q ∨ (queueClass s r = queueClass s q ∧ (egQueue s q).start ≤ (egQueue s r).start)) ∧
      (macUp s k = false ∨ domRuns s (44 + 2 * (k / 8)) = false ∨ fineNow s < (macOf s k).free → exec (.macFrameStart k) s = .next s) ∧
      (macUp s k = true → domRuns s (44 + 2 * (k / 8)) = true → (macOf s k).free ≤ fineNow s →
        (∀ q ∈ busyQueues s k, ∀ f, (egQueue s q).frames.head? = some f → ∀ l, f.launch = some l → 0 ≤ ticksTo s (Int.ofNat l + heldStep s + 1000000000)) →
        (pickQueue s k = none → exec (.macFrameStart k) s = .next s) ∧
        ∀ q f, pickQueue s k = some q → (egQueue s q).frames.head? = some f →
          let prot := shielded s k f
          let barred := (bit s (A.msCtrl k) 0 || prot) && !f.body.control && !secureUp s k
          (barred = true → Completes (.macFrameStart k) s fun t =>
            t.outs = s.outs ∧ (egQueue t q).frames = (egQueue s q).frames.drop 1 ∧
            fld t (A.msNosc k) 31 0 = min (fld s (A.msNosc k) 31 0 + 1) (2 ^ 32 - 1)) ∧
          (barred = false → (prot = true → (macOf s k).txPn < 2 ^ 64 - 2 ^ 30) →
            Completes (.macFrameStart k) s fun t =>
              (match f.body with
                | .ptp m =>
                  let at_ := txStamp s (k / 8) m.sub
                  let sent := { m with stamp := if m.kind = 3 then at_ - m.stamp else at_ }
                  t.outs = s.outs ++ [.ptp sent (ptpFrame s sent f.tag)] ∧
                  (m.kind ≠ 3 → (ptpOf t m.port).req = some (m.seq, at_))
                | _ => t.outs = s.outs ++ [.ethernet k (markGap s f) prot]) ∧
              (egQueue t q).frames = (egQueue s q).frames.drop 1 ∧ (macOf t k).free = fineNow s + bitTime s k (8 * wireBytes s k f) ∧
              (macOf t k).txPn = (macOf s k).txPn + prot.toNat ∧
              (q < 2048 → fld s (A.queueOf q 3) 19 0 ≠ 0 → (egQueue t q).tok = tokensNow s q - 6144 * Int.ofNat (wireBytes s k f)) ∧
              fld t (A.macTxfrm k) 31 0 = min (fld s (A.macTxfrm k) 31 0 + 1) (2 ^ 32 - 1)))) ∧
    (writeTaken s A.qApply = true → Completes .qApply s fun t =>
      let q := selQueue s
      rd t (A.queueOf q 3) = rd s (A.queueOf q 1) ∧ rd t (A.queueOf q 4) = rd s (A.queueOf q 2) ∧
      egQueue t q = { egQueue s q with tok := min (tokensNow s q) (6144 * Int.ofNat (fld s (A.queueOf q 2) 20 0)), tokAt := s.clk.mono }) ∧
    (writeTaken s A.histClr = true → ∀ all, Completes (.histClr all) s fun t => t.net = s.net ∧ ∀ q < 2048, ∀ i < 2, ∀ b < 16,
      rd t (A.histOf q i b) = if all = true ∨ q = selQueue s then 0#32 else rd s (A.histOf q i b)) ∧
    (bit s A.tshCtrl 0 = true → domRuns s 12 = true → Completes .histSample s fun t => t = { s with regs := t.regs } ∧ ∀ q < 2048, ∀ b < 16,
      let l := (egQueue s q).frames
      let ns := match l.head? with
        | some f => (s.clk.mono - f.at_) * 125 / 96
        | none => 0
      let counts (i bin : Nat) : Prop := rd t (A.histOf q i b) = if bit s (A.queueOf q 0) 28 = true ∧ b = bin then
        BitVec.ofNat 32 (min (fld s (A.histOf q i b) 31 0 + 1) (2 ^ 32 - 1)) else rd s (A.histOf q i b)
      counts 0 (histBinOf 5 l.isEmpty (sumBytes l)) ∧ counts 1 (histBinOf 2 l.isEmpty ns)) ∧
    (bit s A.tshCtrl 0 = false ∨ domRuns s 12 = false → exec .histSample s = .next s) ∧
    (writeTaken s A.tshCtrl = true → Completes .tshCntClr s fun t => t.net = s.net ∧ rd t A.tlmGapcnt = 0#32 ∧
      ∀ q < 2048, rd t (A.queueOf q 6) = 0#32) ∧
    (writeTaken s A.polApply = true →
      let n := fld s A.polSel 7 0
      let w (i : Nat) : Word := rd s (A.policerOf n i)
      let bad : Prop := (polMode (w 0) = 2 ∧ bits (w 3) 26 0 < bits (w 1) 26 0) ∨ 1048576 < bits (w 2) 20 0 ∨ 1048576 < bits (w 4) 20 0
      let cbs := polByte * bits (w 2) 20 0
      let ebs := polByte * bits (w 4) 20 0
      (bad → Completes .polApply s (OnlyEvent s · A.polEvt 1 385 255 n)) ∧
      (¬bad → Completes .polApply s fun t => (∀ i < 5, polParam t n i = w i) ∧
        polBucket t n = (if polMode (polParam s n 0) = 0 then { c := cbs, e := ebs, at_ := s.clk.mono }
          else { polNow s n with c := min cbs (polNow s n).c, e := min ebs (polNow s n).e }))) ∧
    (writeTaken s A.polCtrl = true → Completes .polCntClr s fun t => t.net = s.net ∧ ∀ i ∈ [5, 6, 7, 13], rd t (A.policerOf (fld s A.polSel 7 0) i) = 0#32)

/-- MACs are up with PCS lock; a frame with a bad FCS, oversize, lost in the packet buffer, without a live association, with a wrong ICV or replayed is dropped and counted, and
commands wait in the buffer, whose lossless priorities stop the peer; PFC frames pause priorities; own addresses are answered; MKA sets
up channels; headroom is divided within its sum; counters clear (R281 to R287, R305).
Log entries 35 and 70 hold choices of the model that it rests on. -/
def Obligations.IngressIsCheckedAndPaced : Prop :=
  ∀ s : State,
    (∀ (p : Fin 2) (lanes : BitVec 8),
      let may := bit s (A.ethCtrl p) 0 && domRuns s (44 + 2 * p) && domRuns s (45 + 2 * p) && !fifoHeld s (44 + 2 * p) && !fifoHeld s (45 + 2 * p)
      (may = true →
        Completes (.ethLinkUp p lanes) s (LinksShown s · p (fld s (A.ethStat p) 7 0 ||| lanes.toNat))) ∧
      (may = false → exec (.ethLinkUp p lanes) s = .next s) ∧
      Completes (.ethLinkDown p lanes) s (LinksShown s · p (fld s (A.ethStat p) 7 0 &&& (255 - lanes.toNat))) ∧
      (writeTaken s (A.ethCtrl p) = true → Completes (.ethCntClr p) s fun t => t.net = s.net ∧ ∀ m < 8,
        ∀ a ∈ [A.macTxfrm (8 * p + m), A.macRxfrm (8 * p + m), A.macRxerr (8 * p + m), A.pfcDrop (8 * p + m), A.pfcCnt (8 * p + m)],
          rd t a = 0#32)) ∧
    ∀ k : Fin 16,
      (∀ f : EthRx,
        let live := f.sec.bind fun x => liveSa s k x.1.toNat x.2.1
        let en := bit s (A.msCtrl k) 0
        (macUp s k = false ∨ domRuns s (45 + 2 * (k / 8)) = false → exec (.ethFrameReceive k f) s = .next s) ∧
        (macUp s k = true → domRuns s (45 + 2 * (k / 8)) = true →
          (f.fcsOk = false → Completes (.ethFrameReceive k f) s (OnlyCounted s · (A.macRxerr k) 31 16)) ∧
          (f.fcsOk = true → 9216 < f.bytes → Completes (.ethFrameReceive k f) s (OnlyCounted s · (A.macRxerr k) 15 0)) ∧
          (f.fcsOk = true → f.bytes ≤ 9216 → f.bufBad = true → Completes (.ethFrameReceive k f) s fun t => ∃ v,
            OnlyCounted s v (A.macRxerr k) 31 16 ∧ t = (raise { src := 347, addr := A.macRxerr k }).run v) ∧
          (f.fcsOk = true → f.bytes ≤ 9216 → f.bufBad = false → ∃ u, OnlyCounted s u (A.macRxfrm k) 31 0 ∧
            ((f.sec = none ∧ uncontrolled s f.kind = false) ∨ (f.sec.isSome = true ∧ (live = none ∨ en = false)) →
              Completes (.ethFrameReceive k f) s fun t => ∃ v, OnlyCounted u v (A.msNosc k) 31 0 ∧ (f.kind ≠ .tunnel → t = v) ∧
                (f.kind = .tunnel → OnlyCounted v t A.klkUdpcnt 31 16)) ∧
            (f.sec = none → uncontrolled s f.kind = true → exec (.ethFrameReceive k f) s = .next ((dispatchRx k f).run u)) ∧
            ∀ sci an pn ok next, f.sec = some (sci, an, pn, ok) → live = some next → en = true →
              (ok = false → ∃ v, OnlyCounted u v (A.msRxdrop k) 15 0 ∧
                exec (.ethFrameReceive k f) s = .next (if bit s (A.msCtrl k) 3 then v else (dispatchRx k f).run v)) ∧
              (ok = true → bit s (A.msCtrl k) 2 = true → pn + fld s (A.msReplayWin k) 29 0 < next → ∃ v,
                OnlyCounted u v (A.msRxdrop k) 31 16 ∧ exec (.ethFrameReceive k f) s = .next ((event (A.msEvt k) 0 366 255 k).run v)) ∧
              (ok = true → bit s (A.msCtrl k) 2 = false ∨ next ≤ pn + fld s (A.msReplayWin k) 29 0 → ∃ v w, OnlyCounted u v (A.msRxok k) 31 0 ∧
                w = { v with net := w.net } ∧ liveSa w k sci.toNat an = some (max next (pn + 1)) ∧
                exec (.ethFrameReceive k f) s = .next ((dispatchRx k f).run w)))) ∧
        (f.kind ≠ .command → f.kind ≠ .tunnel → (dispatchRx k f).run s = s) ∧
        (f.kind = .command ∨ f.kind = .tunnel →
          let held := rxHeld s k f.prio + f.bytes
          let t := (dispatchRx k f).run s
          (lossless s k f.prio = true → xoffLevel s k f.prio + fld s (A.pfcOf k f.prio 0) 22 0 < held →
            ∃ u, OnlyCounted s u (A.pfcDrop k) 15 0 ∧ t = (event (A.ethEvt (k / 8)) 3 (359 + 5 * (k / 8))).run u) ∧
          (lossless s k f.prio = true → held ≤ xoffLevel s k f.prio + fld s (A.pfcOf k f.prio 0) 22 0 →
            (macOf t k).rx = (macOf s k).rx ++ [(f.prio.val, f.bytes)] ∧
            (xoffLevel s k f.prio < held → bit t (A.pfcStat k) f.prio = true ∧ (bit s (A.pfcStat k) f.prio = false → ∃ o : NetFrame,
              o.dst = 0x0180C2000001 ∧ o.body = .pfc f.prio.val 0xFFFF ∧ t.outs = s.outs ++ [.ethernet k o false])) ∧
            (held ≤ xoffLevel s k f.prio → t.outs = s.outs)) ∧
          (lossless s k f.prio = false → (macOf t k).rx = (macOf s k).rx ++
            if sharedUse s (k / 8) + f.bytes ≤ 6085760 then [(f.prio.val, f.bytes)] else []))) ∧
      (∀ sender target, macUp s k = true → rd s (A.ipv4 k) = target → longestWindow s k (queueClass s (internalQ k qControl)) = none →
        Completes (.arpRequest k sender target) s (ControlSent s · k sender.toNat (.arpReply target.toNat))) ∧
      (∀ sender target, rd s (A.ipv4 k) ≠ target → exec (.arpRequest k sender target) s = .next s) ∧
      (∀ sender target, macUp s k = true → ipv6Of s k = target.toNat → longestWindow s k (queueClass s (internalQ k qControl)) = none →
        Completes (.neighborSolicitation k sender target) s (ControlSent s · k sender.toNat (.neighborAdv target.toNat))) ∧
      (∀ sender target, ipv6Of s k ≠ target.toNat → exec (.neighborSolicitation k sender target) s = .next s) ∧
      (∀ i : Fin 8,
        let due := macUp s k = true ∧ bit s (A.pfcStat k) i = true ∧ fld s (A.pfcOf k i 2) 20 0 < rxHeld s k i ∧
          32768 * quantum s k ≤ fineNow s - sget (fun _ => 0) (macOf s k).xoffAt i
        (due → Completes (.pfcXoffRepeat k i) s fun t => ∃ o : NetFrame, o.dst = 0x0180C2000001 ∧ o.body = .pfc i.val 0xFFFF ∧
          t.outs = s.outs ++ [.ethernet k o false] ∧ sget (fun _ => 0) (macOf t k).xoffAt i = fineNow s) ∧
        (¬due → exec (.pfcXoffRepeat k i) s = .next s) ∧
        (bit s (A.pfcStat k) (8 + i) = true → sget (fun _ => 0) (macOf s k).paused i ≤ fineNow s →
          Completes (.pfcPauseExpiry k i) s fun t => bit t (A.pfcStat k) (8 + i) = false ∧ t = { s with regs := t.regs }) ∧
        (bit s (A.pfcStat k) (8 + i) = false ∨ fineNow s < sget (fun _ => 0) (macOf s k).paused i → exec (.pfcPauseExpiry k i) s = .next s)) ∧
      (∀ enable quanta, (macUp s k = false → exec (.pfcFrameReceive k enable quanta) s = .next s) ∧
        (macUp s k = true → Completes (.pfcFrameReceive k enable quanta) s fun t => t.outs = s.outs ∧ ∀ i < 8,
          let q := (quanta.getD i 0#16).toNat
          (enable.getLsbD i = true → bit s (A.macCtrl k) (8 + i) = true → bit t (A.pfcStat k) (8 + i) = decide (0 < q) ∧
            sget (fun _ => 0) (macOf t k).paused i = fineNow s + q * quantum s k) ∧
          (enable.getLsbD i = false ∨ bit s (A.macCtrl k) (8 + i) = false → bit t (A.pfcStat k) (8 + i) = bit s (A.pfcStat k) (8 + i)))) ∧
      (∀ r : MkaResult,
        let on := macUp s k = true ∧ supvRuns s = true ∧ bit s (A.msCtrl k) 0 = true ∧ (macOf s k).cak.isSome = true
        (¬on → exec (.mkaFrame k r) s = .next s) ∧
        (on → ∃ u, u = { s with regs := u.regs, net := u.net } ∧ secureUp u k = true ∧ bit u (A.msStat k) 0 = keyServer s k r ∧
          (macOf u k).scs.map (·.sci) = (r.scs.take 8).map (·.toNat) ∧
          (∀ an, r.newSak = some an → fld u (A.msStat k) 3 2 = an.val ∧ (macOf u k).txPn = 1 ∧
            ∀ y ∈ (macOf u k).scs, (an.val, 1) ∈ y.sas ∧ y.sas.length ≤ 2) ∧
          exec (.mkaFrame k r) s = .next ((Act.all [Act.when r.newSak.isSome (event (A.msEvt k) 1 367 255 k), refreshPort (k / 8),
            sendControl k 0x0180C2000003 .mka 128]).run u))) ∧
      (∀ last, (secureUp s k = false → exec (.mkaPeerLost k last) s = .next s) ∧
        (secureUp s k = true → ∃ u, u = (event (A.msEvt k) 2 368 255 k).run s ∧ (last = false → exec (.mkaPeerLost k last) s = .next u) ∧
          (last = true → ∃ v, v = { u with regs := v.regs, net := v.net } ∧ (macOf v k).scs = [] ∧ (macOf v k).txPn = 1 ∧ secureUp v k = false ∧
            exec (.mkaPeerLost k last) s = .next ((refreshPort (k / 8)).run v)))) ∧
      (writeTaken s (A.cakCtrl k) = true → Completes (.cakInstall k) s fun t =>
        (macOf t k).cak = some ((List.range 8).flatMap fun i => natLe 4 (rd s (A.cak k i)).toNat,
          ((List.range 8).flatMap fun i => natLe 4 (rd s (A.ckn k i)).toNat).take (max 1 (min 32 (fld s (A.cknLen k) 5 0))))) ∧
      (writeTaken s (A.msCtrl k) = true → Completes (.msCntClr k) s fun t => t.net = s.net ∧
        ∀ a ∈ [A.msTxprot k, A.msRxok k, A.msRxdrop k, A.msNosc k], rd t a = 0#32) ∧
      (∀ mask : BitVec 8, writeTaken s (A.macCtrl k) = true →
        (2 < ((List.range 8).filter mask.toNat.testBit).length →
          Completes (.pfcTxWrite k mask) s (OnlyEvent s · (A.ethEvt (k / 8)) 4 (360 + 5 * (k / 8)))) ∧
        (((List.range 8).filter mask.toNat.testBit).length ≤ 2 → macsOf s (k / 8) ≤ k % 8 → Completes (.pfcTxWrite k mask) s fun t =>
          fld t (A.macCtrl k) 23 16 = mask.toNat ∧ ∀ a, a ≠ A.macCtrl k → a ≠ A.dbgStat → rd t a = rd s a) ∧
        (((List.range 8).filter mask.toNat.testBit).length ≤ 2 → k % 8 < macsOf s (k / 8) → Completes (.pfcTxWrite k mask) s fun t =>
          fld t (A.macCtrl k) 23 16 = mask.toNat ∧ ∀ x ∈ losslessOf t (k / 8),
            rd t (A.pfcOf x.1 x.2 0) = BitVec.ofNat 32 (4400000 / (losslessOf t (k / 8)).length) ∧
            rd t (A.pfcOf x.1 x.2 1) = BitVec.ofNat 32 (poolShare t (k / 8)))) ∧
      (∀ v : BitVec 23, writeTaken s (A.pfcHdrm k) = true →
        let i := fld s (A.pfcSel k) 2 0
        let sum := (losslessOf s (k / 8)).foldl (fun a x => a + if x = (k.val, i) then v.toNat else fld s (A.pfcOf x.1 x.2 0) 22 0) 0
        (4400000 < sum → Completes (.pfcHdrmWrite k v) s (OnlyEvent s · (A.ethEvt (k / 8)) 4 (360 + 5 * (k / 8)))) ∧
        (sum ≤ 4400000 → Completes (.pfcHdrmWrite k v) s fun t => rd t (A.pfcOf k i 0) = v.zeroExtend 32 ∧ t.net = s.net))

namespace Sys2Proof.Machine

/-- A saturating 32-bit and a saturating 16-bit count of one. -/
def Counted32 (s t : State) (a : Nat) : Prop := fld t a 31 0 = min (fld s a 31 0 + 1) (2 ^ 32 - 1)
def Counted16 (s t : State) (a lo : Nat) : Prop := fld t a (lo + 15) lo = min (fld s a (lo + 15) lo + 1) 65535
/-- A line of the HBM was found uncorrectable: it is counted, the first address is held, the line is retired in MRAM while the list has room (at
once, or when MRAM takes writes again), and what lay in it decides the event (Table MM-6). -/
def HbmLineLost (s t : State) (line ch : Nat) : Prop :=
  let a := 64 * line
  let n := fld s A.hbmRetired 12 0
  Counted16 s t A.hbmUecnt 0 ∧ Counted16 s t (A.chUecnt (ch / 2)) (16 * (ch % 2)) ∧
  (bit s A.hbmErraddrHi 31 = false → rd t A.hbmErraddrLo = BitVec.ofNat 32 (a % 2 ^ 32) ∧ rd t A.hbmErraddrHi = BitVec.ofNat 32 (2 ^ 31 + a / 2 ^ 32)) ∧
  (bit s A.hbmErraddrHi 31 = true → rd t A.hbmErraddrLo = rd s A.hbmErraddrLo ∧ rd t A.hbmErraddrHi = rd s A.hbmErraddrHi) ∧
  (n < 4096 → rd t A.hbmRetired = BitVec.ofNat 32 (n + 1) ∧
    (mramWritable s = true → s.nvm.retire = [] → t.nvm.retire = [] ∧ mramAt t (retireBase + 8 * n) 8 = natLe 5 (line + 1) ++ natLe 3 ch) ∧
    (mramWritable s = false → t.mram = s.mram ∧
      t.nvm.retire = s.nvm.retire ++ [(retireBase + 8 * n, natLe 5 (line + 1) ++ natLe 3 ch)])) ∧
  (4096 ≤ n → t.mram = s.mram ∧ bit t A.hbmEvt 4 = true) ∧
  (if 0x500000000 ≤ a ∧ a < 0x504000000 then bit t A.hbmEvt 5 = true ∧ t.hbmBad = s.hbmBad
   else line ∈ t.hbmBad ∧ bit t A.hbmEvt (if 0x524000000 ≤ a ∧ a < 0x544000000 then 3 else 2) = true)

end Sys2Proof.Machine

/-- The HBM is ready once trained, with its retired lines; a corrected error is counted, an uncorrectable one is counted, held, retired and reported; only
the host scratch takes aperture writes; the SRAM patrol counts what it corrects, a bad table word asks its record again and a bad LSM word
is reported to its engine (R306 to R311, R323, R324).
Log entry 43 holds a choice of the model that it rests on. -/
def Obligations.HbmAndSramErrorsAreContained : Prop :=
  ∀ s : State,
    (∀ ok channels temp,
      let due := atPhase s 5 = true ∧ domRuns s 40 = true ∧ domRuns s 41 = true
      (¬due → exec (.hbmTrainingDone ok channels temp) s = .next s) ∧
      (due → Completes (.hbmTrainingDone ok channels temp) s fun t => fld t A.rstPhase 2 0 = 6 ∧ fld t A.hbmStat 23 16 = temp.toNat ∧
        (ok = true → bit t A.hbmStat 31 = true ∧ (∀ c < 16, bit t (A.chStat c) 31 = true) ∧
          (∀ a, (0x504000000 ≤ a ∧ a ≤ 0x513FFFFFF) ∨ (scratchBase ≤ a ∧ a ≤ scratchBase + 0x3FFFFFF) → readByte blank t.hbm a = 0#8) ∧
          (∀ l ∈ retiredLines s, l ∈ t.hbmBad) ∧ fld t A.repStat 18 0 = repCapacity ∧
          fld t A.hbmRetired 12 0 = (retiredList s).length) ∧
        (ok = false → bit t A.hbmStat 30 = true ∧ bit t A.hbmEvt 0 = true ∧ bit t A.hbmStat 31 = bit s A.hbmStat 31 ∧
          ∀ c < 16, bit t (A.chStat c) 31 = channels.getLsbD c))) ∧
    (∀ (line : Fin 402653184) (ch : Fin 32),
      (∀ r, (bit s A.hbmStat 31 = true → line.val ∉ s.hbmBad → Completes (.hbmUe line ch r) s (HbmLineLost s · line (lineChannel line ch))) ∧
        (bit s A.hbmStat 31 = false ∨ line.val ∈ s.hbmBad → exec (.hbmUe line ch r) s = .next s)) ∧
      ∀ found last,
        (bit s A.hbmStat 31 = false ∨ bit s A.hbmCtrl 0 = false ∨ line.val ∈ s.hbmBad → exec (.hbmScrubPatrol line ch found last) s = .next s) ∧
        (bit s A.hbmStat 31 = true → bit s A.hbmCtrl 0 = true → line.val ∉ s.hbmBad → Completes (.hbmScrubPatrol line ch found last) s fun t =>
          (last = true → Counted16 s t A.hbmScrub 0) ∧ (last = false → rd t A.hbmScrub = rd s A.hbmScrub) ∧
          let c := lineChannel line ch
          match found with
          | .none => t = { s with regs := t.regs } ∧ ∀ a, a ≠ A.hbmScrub → rd t a = rd s a
          | .inner => Counted32 s t (A.chInner (c / 2)) ∧ t = { s with regs := t.regs } ∧ ∀ a, a ≠ A.hbmScrub → a ≠ A.chInner (c / 2) → rd t a = rd s a
          | .corrected => Counted32 s t A.hbmCecnt ∧ Counted16 s t (A.chCecnt (c / 2)) (16 * (c % 2)) ∧ bit t A.hbmEvt 1 = true ∧
              t.mram = s.mram ∧ t.hbmBad = s.hbmBad
          | .uncorrectable _ => HbmLineLost s t line c)) ∧
    (∀ (offset : Fin 536870912) (v : MaskedWord),
      let a := fld s A.hbmAper 3 0 * 2 ^ 31 + 4 * offset
      let inside := scratchBase ≤ a ∧ a < scratchBase + 0x4000000
      (domUp s 40 = false → exec (.hbmApertureWrite offset v) s = .next s) ∧
      (domUp s 40 = true →
        (inside → bit s A.hbmStat 31 = false → exec (.hbmApertureWrite offset v) s = .next s) ∧
        (inside → bit s A.hbmStat 31 = true → Completes (.hbmApertureWrite offset v) s fun t => t = { s with hbm := t.hbm } ∧
          (∀ i < 4, v.be.getLsbD i = true → readByte blank t.hbm (a + i) = v.v.extractLsb' (8 * i) 8) ∧
          ∀ b, (∀ i < 4, v.be.getLsbD i = true → b ≠ a + i) → readByte blank t.hbm b = readByte blank s.hbm b) ∧
        (¬inside → v.be ≠ 0#4 → exec (.hbmApertureWrite offset v) s = .next ((event A.hbmEvt 6 335 104).run s)) ∧
        (¬inside → v.be = 0#4 → exec (.hbmApertureWrite offset v) s = .next s))) ∧
    (writeTaken s A.hbmCtrl = true → Completes .hbmCntClr s fun t => rd t A.hbmCecnt = 0#32 ∧ rd t A.hbmUecnt = 0#32 ∧ rd t A.hbmScrub = 0#32 ∧ t.hbm = s.hbm ∧
      ∀ c < 16, rd t (A.chCecnt c) = 0#32 ∧ rd t (A.chUecnt c) = 0#32 ∧ rd t (A.chInner c) = 0#32) ∧
    ∀ (k : Fin 50331648) (found : MemErr),
      let a := k.val
      let lsm := a < 0x600000
      let prog := 0x1000000 ≤ a ∧ a < 0x1600000
      let tbl := 0x2000000 ≤ a ∧ a < 0x2C00000
      let e := a / 0x10000 % 0x100
      let c := if lsm ∨ prog then e / 8 else (a - 0x2000000) / 0x100000
      (¬(lsm ∨ prog ∨ tbl) ∨ domRuns s c = false ∨ found = .none → exec (.sramPatrol k found) s = .next s) ∧
      (domRuns s c = true → found = .corrected →
        (lsm → ∃ u, OnlyCounted s u (A.engEcccnt e) 15 0 ∧ exec (.sramPatrol k found) s = .next
          ((raise { src := 281 + 4 * c, master := 103, access := 4, addr := a % 0x10000 / 64, detail := e }).run u)) ∧
        (prog → ∃ u, OnlyCounted s u (A.engEcccnt e) 31 16 ∧ exec (.sramPatrol k found) s = .next
          ((raise { src := 281 + 4 * c, master := 103, access := 4, addr := a % 0x8000 / 8, detail := e }).run u)) ∧
        (tbl → ∃ u, OnlyCounted s u (A.tblEcccnt c) 15 0 ∧ exec (.sramPatrol k found) s = .next
          ((raise { src := 281 + 4 * c, master := 103, access := 4, addr := a % 0x100000 / 4, detail := 0 }).run u))) ∧
      (domRuns s c = true → found = .uncorrectable → lsm ∨ prog ∨ tbl → Completes (.sramPatrol k found) s fun t =>
        isBad t (if prog then a / 8 * 8 else a / 4 * 4) = true ∧ t.fab = s.fab ∧
        (prog → t.regs = s.regs) ∧ (tbl → 4 * (a % 0x100000 / 4) < 0xE0000 → 896 * c + a % 0x100000 / 4 / 256 ∈ t.eng.ectWait) ∧
        (lsm → ∃ u, rd u (A.engLsmerr e) = BitVec.ofNat 32 (2 ^ 31 + a % 0x10000 / 64) ∧ bit u (A.engEvt e) 6 = true ∧
          t = (raise { src := 282 + 4 * c, master := 103, access := 4, addr := a % 0x10000 / 64, detail := e }).run u))

/-- An MRAM transaction writes its steps, commits with one word and only then takes effect; the inhibit abandons it with NVM_DEFERRED before another word;
lines retired meanwhile are written
first; the scan, which waits while writes are inhibited, drops what never committed and stops all writes without a commit word; the patrol counts and reports; a Park Table is checked,
stored and takes effect on every lane together (R312 to R316, R320, R321, R324, R400).
Log entries 14, 15 and 42 hold choices of the model that it rests on. -/
def Obligations.MramTransactionsCommitWhole : Prop :=
  ∀ s : State,
    (let on := s.nvm.stopped = false ∧ inSafe s = false ∧ bit s A.nvmStat 31 = true
     (¬on ∨ (s.nvm.run = none ∧ s.nvm.queue = [] ∧ (s.nvm.retire = [] ∨ mramWritable s = false)) → exec .nvmTxnStep s = .next s) ∧
     (on → s.nvm.run = none → s.nvm.queue = [] → mramWritable s = true → Completes .nvmTxnStep s fun t =>
       t = { s with mram := t.mram, mramBad := t.mramBad, nvm := { s.nvm with retire := [] } } ∧
       ∀ a, (∀ x ∈ s.nvm.retire, a < x.1 ∨ x.1 + x.2.length ≤ a) → readByte mramBlank t.mram a = readByte mramBlank s.mram a) ∧
     (∀ x l, on → nvmInhibited s = true →
       (s.nvm.run = none ∧ s.nvm.queue = x :: l) ∨ (∃ r, s.nvm.run = some r ∧ r.txn = x ∧ s.nvm.queue = l) → Completes .nvmTxnStep s fun t =>
         t.mram = s.mram ∧ t.nvm.run = none ∧ t.nvm.queue = l ∧ t.nvm.txnC = s.nvm.txnC ∧ bit t A.nvmEvt 4 = true ∧
         rd t A.nvmResult = BitVec.ofNat 32 St.nvmDeferred ∧ (∀ tag, x.tag = some tag → CommandEnds s t tag St.nvmDeferred) ∧
         t.nvm.clear = (match s.nvm.run with
           | some r => begunSlots r
           | none => s.nvm.clear) ∧
         ∀ n r, x.after = .charact n → s.sup.run = some r → (supOf t r.elem).calFail = true ∧ (supOf t r.elem).score = 0) ∧
     (∀ x l st more, on → nvmInhibited s = false → s.nvm.retire = [] → s.nvm.run = none → s.nvm.queue = x :: l → s.nvm.clear = [] →
       txnSteps s x (s.nvm.txnC + 1) = st :: more → more ≠ [] → Completes .nvmTxnStep s fun t =>
         t = { s with mram := t.mram, mramBad := t.mramBad, nvm := t.nvm } ∧ t.nvm.queue = l ∧ t.nvm.txnC = s.nvm.txnC ∧
         ∃ r, t.nvm.run = some r ∧ r.txn = x ∧ r.num = s.nvm.txnC + 1 ∧ r.steps = more) ∧
     (∀ r st more, on → nvmInhibited s = false → s.nvm.retire = [] → s.nvm.run = some r → r.steps = st :: more → more ≠ [] → Completes .nvmTxnStep s fun t =>
       t = { s with mram := t.mram, mramBad := t.mramBad, nvm := { s.nvm with run := some { r with steps := more } } } ∧
       ∀ a, (∀ w ∈ st, a < w.1 ∨ w.1 + w.2.length ≤ a) → readByte mramBlank t.mram a = readByte mramBlank s.mram a) ∧
     (∀ r, on → nvmInhibited s = false → s.nvm.run = some r → r.steps.length ≤ 1 → Completes .nvmTxnStep s fun t =>
       t.nvm.run = none ∧ rd t A.nvmResult = 0#32 ∧ (∀ tag, r.txn.tag = some tag → CommandEnds s t tag St.success) ∧
       (r.txn.options = none ∨ r.txn.recs ≠ [] → t.nvm.txnC = r.num ∧ rdPair t A.nvmTxnLo A.nvmTxnHi = r.num % 2 ^ 64 ∧
         ∃ k < 2, mramAt t (commitOfs k) 8 = commitBytes r.num) ∧
       (∀ img, r.txn.after = .park img → t.nvm.parkNext = some img ∧ bit t A.nvmStat 29 = false ∧ bit t A.nvmEvt 5 = true) ∧
       (r.txn.after = .nothing → t.eng = s.eng ∧ t.sup = s.sup ∧ t.sec = s.sec))) ∧
    (domInReset s 42 = true ∨ bit s A.nvmStat 31 = true ∨ nvmInhibited s = true ∨ s.thm.tripped = true → exec .nvmRecoveryScan s = .next s) ∧
    (domInReset s 42 = false → bit s A.nvmStat 31 = false → nvmInhibited s = false → s.thm.tripped = false →
      (storedTxn s = none → Completes .nvmRecoveryScan s fun t =>
        t.nvm.stopped = true ∧ bit t A.nvmStat 31 = false ∧ bit t A.nvmEvt 7 = true ∧ t.mram = s.mram) ∧
      (∀ c, storedTxn s = some c → Completes .nvmRecoveryScan s fun t =>
        bit t A.nvmStat 31 = true ∧ t.nvm = { s.nvm with txnC := c, stopped := false } ∧ rdPair t A.nvmTxnLo A.nvmTxnHi = c % 2 ^ 64 ∧
        (∀ r ∈ recRegions, ∀ i < recCount r, ∀ j < 2, c < slotField s r i j 8 8 → mramAt t (slotTrailer r i j) 32 = List.replicate 32 0#8) ∧
        ∀ a, readByte mramBlank t.mram a ≠ readByte mramBlank s.mram a → ∃ r ∈ recRegions, ∃ i < recCount r, ∃ j < 2,
          c < slotField s r i j 8 8 ∧ slotTrailer r i j ≤ a ∧ a < slotTrailer r i j + 32)) ∧
    (∀ (w : Fin 4194304) (found : MemErr),
      (bit s A.nvmCtrl 0 = false ∨ bit s A.nvmStat 31 = false ∨ found = .none → exec (.nvmScrubPatrol w found) s = .next s) ∧
      (bit s A.nvmCtrl 0 = true → bit s A.nvmStat 31 = true →
        (found = .corrected → Completes (.nvmScrubPatrol w found) s fun t => Counted16 s t A.nvmCecnt 0 ∧ bit t A.nvmEvt 0 = true ∧ t.mram = s.mram ∧
          ∀ r, mramRegion (8 * w) = some r → Counted32 s t (A.rgCecnt r)) ∧
        (found = .uncorrectable → Completes (.nvmScrubPatrol w found) s fun t => Counted16 s t A.nvmUecnt 0 ∧ bit t A.nvmEvt 1 = true ∧
          t.mram = s.mram ∧ w.val ∈ t.mramBad ∧ (bit s A.nvmErraddr 31 = false → rd t A.nvmErraddr = BitVec.ofNat 32 (2 ^ 31 + 8 * w)) ∧
          (storedTxn t = none → t.nvm.stopped = true) ∧ (storedTxn t ≠ none → t.nvm.stopped = s.nvm.stopped)))) ∧
    (writeTaken s A.nvmCtrl = true → Completes .nvmCntClr s fun t => rd t A.nvmCecnt = 0#32 ∧ rd t A.nvmUecnt = 0#32 ∧ fld t A.nvmFlog 31 16 = 0 ∧
      fld t A.nvmFlog 15 0 = fld s A.nvmFlog 15 0 ∧ ∀ r < 8, rd t (A.rgWrcnt r) = 0#32 ∧ rd t (A.rgCecnt r) = 0#32 ∧ rd t (A.rgUecnt r) = 0#32) ∧
    (writeTaken s A.nvmPtCtrl = true →
      let img := hbmAt s scratchBase parkLen
      (bit s A.nvmStat 29 = true → Completes .parkTableCommitWrite s (OnlyEvent s · A.nvmEvt 6 342 104)) ∧
      (bit s A.nvmStat 29 = false → bit s A.nvmStat 31 = false → Completes .parkTableCommitWrite s fun t =>
        rd t A.nvmResult = BitVec.ofNat 32 St.notReady ∧ t.nvm = s.nvm) ∧
      (bit s A.nvmStat 29 = false → bit s A.nvmStat 31 = true →
        (∀ o, parkError img (parkActive s img) = some o → Completes .parkTableCommitWrite s fun t =>
          rd t A.nvmResult = BitVec.ofNat 32 St.payloadInvalid ∧ rd t A.nvmPtErrofs = BitVec.ofNat 32 o ∧ t.nvm = s.nvm) ∧
        (parkError img (parkActive s img) = none → Completes .parkTableCommitWrite s fun t =>
          bit t A.nvmStat 29 = true ∧ bit t A.nvmStat 30 = true ∧ bit t A.nvmPtCtrl 0 = true ∧ t.mram = s.mram ∧
          ∃ x, t.nvm = { s.nvm with queue := s.nvm.queue ++ [x] } ∧ x.tag = none ∧ x.after = .park img ∧
            x.recs.map (fun r => (r.region, r.index, r.payload)) = [(3, 0, img)]))) ∧
    (s.nvm.parkNext = none → exec .parkTableApply s = .next s) ∧
    (∀ img, s.nvm.parkNext = some img → Completes .parkTableApply s fun t => t.nvm.park = img ∧ t.nvm.parkNext = none ∧
      t.nvm.parkRewrite = true ∧ t.clk.noPark = false ∧ t.mram = s.mram ∧ (∀ b < 24, rd t (A.bcoPark b) = BitVec.ofNat 32 (bcoParkWord img b % 2 ^ 17)) ∧
      (s.clk.noPark = false → img ≠ [] → (∀ k < 12, if lclkRuns s k = true ∧ (tileLink s k).sweepDue = false then bit t (A.parkCtrl k) 0 = true ∧ (tileLink t k).owed = false
          else (tileLink t k).owed = true) ∧
        ∀ n < 192, bit s (A.edlStat n) 0 = true →
          rd t (A.edlParkcrc n) = crc32c (slice img (64 + 128 * n) 1 ++ slice img (72 + 128 * n) 112))) ∧
    ∀ n : Fin 10752,
      (s.nvm.parkRewrite = false ∨ elemAssigned s n = false → exec (.parkVRewrite n) s = .next s) ∧
      (s.nvm.parkRewrite = true → elemAssigned s n = true → Completes (.parkVRewrite n) s fun t => t = { s with mem := t.mem, memBad := t.memBad } ∧
        elemWord t n 43 = Fp.ofInt (parkCode s (lanePairOf n) (slotOf n)).toInt 15)

/-- A clock that becomes good brings its domains out of reset in the order of bring-up, and a chip reset after a loss of REFCLK or the root; a lost one is
counted and reported, and what it clocks is in reset; a requalified domain is good again and its saved registers return; FIFOs resynchronise;
a domain is gated only while idle (R325 to R334, Tables CK-1 to CK-3).
Log entries 61 and 63 hold choices of the model that it rests on. -/
def Obligations.ClocksQualifyDropAndGate : Prop :=
  ∀ s : State,
    (s.clk.por = false → s.clk.aon = false → Completes (.clockGoodQualify .refclk) s fun t => t.clk.aon = true ∧ bit t A.clkStat 27 = true ∧
      domGood t 43 = true ∧ domInReset t 43 = false ∧
      (s.clk.lossReset = some 0 → t.clk.lossReset = none ∧ bit t A.rstCause 4 = true ∧ t.clk.req = (s.clk.req || !s.thm.tripped)) ∧
      (s.clk.pinLow = true → bit t A.rstCause 1 = true ∧ t.clk.req = (s.clk.req || !s.thm.tripped)) ∧
      (s.clk.lossReset ≠ some 0 → s.clk.pinLow = false → t.clk.req = s.clk.req ∧ rd t A.rstCause = rd s A.rstCause) ∧
      (s.clk.lossReset ≠ some 0 → atPhase s 0 = true → fld t A.rstPhase 2 0 = 1)) ∧
    (s.clk.por = true ∨ s.clk.aon = true → exec (.clockGoodQualify .refclk) s = .next s) ∧
    (let due := s.clk.aon = true ∧ s.clk.por = false ∧ s.clk.inReset = false ∧ bit s A.clkStat 30 = false
     (¬due → exec (.clockGoodQualify .root) s = .next s) ∧
     (due → Completes (.clockGoodQualify .root) s fun t => fld t A.clkStat 31 30 = 3 ∧
       (s.clk.lossReset = some 1 → t.clk.lossReset = none ∧ bit t A.rstCause 4 = true ∧ t.clk.req = (s.clk.req || !s.thm.tripped)) ∧
       (s.clk.lossReset ≠ some 1 → atPhase s 1 = true → fld t A.rstPhase 2 0 = 2 ∧ (∀ d < 43, domGood t d = true) ∧
         ∀ d ∈ [12, 13, 14, 39, 40, 41, 42], domUp t d = true))) ∧
    (let due := s.clk.aon = true ∧ s.clk.por = false ∧ s.clk.inReset = false ∧ bit s A.clkStat 28 = false
     (¬due → exec (.clockGoodQualify .serdes) s = .next s) ∧
     (due → Completes (.clockGoodQualify .serdes) s fun t => fld t A.clkStat 29 28 = 3 ∧
       ∀ d ∈ [44, 46, 56, 57, 58], domGood t d = true ∧ (s.thm.tripped = false → domUp t d = true))) ∧
    (s.clk.aon = true → s.clk.por = false → Completes (.clockGoodLoss .refclk) s fun t => t.clk.aon = false ∧ t.clk.lossReset = some 0 ∧
      rd t A.clkStat = 0#32 ∧ bit t A.clkEvt 3 = true ∧ (∀ d < 59, domGood t d = false ∧ domInReset t d = true) ∧
      (∀ k < 12, (tileLink t k).driven = false) ∧ ∀ b < 24, rd t (A.bcoOut b) = 0#32) ∧
    (bit s A.clkStat 30 = true → Completes (.clockGoodLoss .root) s fun t => t.clk.lossReset = some 1 ∧ fld t A.clkStat 31 30 = 0 ∧
      bit t A.clkEvt 3 = true ∧ (∀ d < 43, domGood t d = false ∧ domInReset t d = true) ∧ ∀ k < 12, (tileLink t k).driven = false) ∧
    (bit s A.clkStat 28 = true → Completes (.clockGoodLoss .serdes) s fun t => fld t A.clkStat 29 28 = 0 ∧ bit t A.clkEvt 2 = true ∧ t.fab = s.fab ∧
      ∀ d, 44 ≤ d → d < 59 → domGood t d = false ∧ (domGood s d = true → domInReset t d = true ∧ bit t A.clkEvt 3 = true ∧ d ∈ t.clk.lost)) ∧
    (s.clk.aon = false ∨ s.clk.por = true → exec (.clockGoodLoss .refclk) s = .next s) ∧
    (bit s A.clkStat 30 = false → exec (.clockGoodLoss .root) s = .next s) ∧
    (bit s A.clkStat 28 = false → exec (.clockGoodLoss .serdes) s = .next s) ∧
    ∀ d : Fin 60,
      (d.val ≠ 43 → s.clk.aon = true → s.clk.por = false → s.clk.inReset = false → (domGood s d = false ∨ d.val ∈ s.clk.lost) → d.val < 59 →
        (if d.val ≤ 42 then bit s A.clkStat 30 = true ∧ 2 ≤ fld s A.rstPhase 2 0 ∧
            (d.val ∈ s.clk.lost → restorable d = false ∧ d.val ∉ [12, 13, 42])
          else bit s A.clkStat 28 = true) →
        Completes (.clockGoodQualify (.domain d)) s fun t => domGood t d = true ∧ (s.thm.tripped = false → domUp t d = true)) ∧
      (domGood s d = true → d.val ∉ s.clk.lost → d.val ≠ 43 → exec (.clockGoodQualify (.domain d)) s = .next s) ∧
      (domGood s d = false → d.val ≠ 43 → exec (.clockGoodLoss (.domain d)) s = .next s) ∧
      (domGood s d = true → d.val ≠ 43 → d.val ≠ 59 → Completes (.clockGoodLoss (.domain d)) s fun t =>
        fld t A.clkLosscnt 15 0 = min (fld s A.clkLosscnt 15 0 + 1) 65535 ∧ bit t A.clkEvt 3 = true ∧ t.fab = s.fab ∧
        (d.val ∈ [12, 13, 42] → domInReset t d = true ∧ d.val ∈ t.clk.lost) ∧
        (restorable d = true → domInReset t d = true ∧ d.val ∈ t.clk.lost ∧
          bit t (A.tileStat (if d.val < 12 then d else (d - 15) % 12)) tsCauseFault = true)) ∧
      (let due := restorable d = true ∧ d.val ∈ s.clk.lost ∧ bit s A.clkStat 30 = true ∧ s.clk.inReset = false ∧ s.clk.por = false ∧
         4 ≤ fld s A.rstPhase 2 0 ∧ s.thm.tripped = false
       (¬due → exec (.domainRequalify d) s = .next s) ∧
       (due → Completes (.domainRequalify d) s fun t =>
         (supvRuns s = false → domUp t d = true ∧ d.val ∉ t.clk.lost) ∧
         (supvRuns s = true → 15 ≤ d.val → d.val < 27 → (s.clk.saved.map (·.1)).Nodup → ∀ p ∈ s.clk.saved,
           0x100000 + 0x200 * (d.val - 15) ≤ p.1 → p.1 < 0x100200 + 0x200 * (d.val - 15) → (∀ l < 16, p.1 ≠ A.edlStat (16 * (d.val - 15) + l)) →
           rd t p.1 = p.2))) ∧
      (∀ n lost,
        let meet := fifoHeld s d = true ∧ domInReset s d = false ∧ ∀ p ∈ fifoPeers d, domInReset s p = false
        (¬meet → exec (.fifoResync d n lost) s = .next s) ∧
        (meet → Completes (.fifoResync d n lost) s fun t => fifoHeld t d = false ∧ t.fab = s.fab ∧
          fld t A.clkFdrop 15 0 = min (fld s A.clkFdrop 15 0 + n.toNat) 65535 ∧
          (∀ k m, lost.frames = [(k, m)] → 48 ≤ d.val → d.val < 57 → fld t (A.klkLdrop k) 15 0 =
            if d.val = 56 ∨ d.val = 48 + k then min (fld s (A.klkLdrop k) 15 0 + m.toNat) 65535 else fld s (A.klkLdrop k) 15 0) ∧
          ∀ tag, lost.cmd = some tag → (s.host.cmds.any fun c => c.tag == tag.val) = true → CommandEnds s t tag St.dmaError)) ∧
      (∀ v, writeTaken s (gateReg d) = true →
        (gateable d = false → Completes (.clkGateWrite d v) s (OnlyTraced s)) ∧
        (gateable d = true → (v = true → gateOk s d = true) → Completes (.clkGateWrite d v) s fun t => t = { s with regs := t.regs, dbg := t.dbg } ∧
          bit t (gateReg d) (d % 32) = v ∧ ∀ a, a ≠ gateReg d → a ≠ A.dbgStat → rd t a = rd s a) ∧
        (gateable d = true → v = true → gateOk s d = false → Completes (.clkGateWrite d v) s fun t =>
          bit t (gateReg d) (d % 32) = false ∧ ∃ u, OnlyTraced s u ∧ t = (Act.all [clrBit (gateReg d) (d % 32), clockEvent 4 12 d]).run u)) ∧
      Completes (.domainWake d) s fun t => t = { s with regs := t.regs } ∧ bit t (A.clkDstat d) 28 = clkGated s d ∧
        (∀ i, i ≠ 28 → bit t (A.clkDstat d) i = bit s (A.clkDstat d) i) ∧ ∀ a, a ≠ A.clkDstat d → rd t a = rd s a

namespace Sys2Proof.Machine

/-- A source asks for a chip reset: its cause is recorded, and outside a latched THERMTRIP the request stands. -/
def ResetAsked (s t : State) (cause : Nat) : Prop :=
  if s.clk.aon = true ∧ s.clk.por = false then
    bit t A.rstCause cause = true ∧ t.clk.req = (s.clk.req || !s.thm.tripped) ∧ (∀ a, a ≠ A.rstCause → a ≠ A.dbgStat → rd t a = rd s a)
  else t.clk.req = s.clk.req ∧ ∀ a, a ≠ A.dbgStat → rd t a = rd s a

end Sys2Proof.Machine

/-- Power-on clears everything but the MRAM; the sources of Table CK-4 ask for a chip reset, which keeps AON, the sources' records and a frozen recording;
after release the steps of Table CK-6 follow in order: options, Park Table, boot ROM, autostart; with no Park Table the tiles wait (R318, R319,
R335 to R338, R358, R364, R372, R400).
Log entries 3, 45, 46 and 64 hold choices of the model that it rests on. -/
def Obligations.ResetsAndBringUpFollowTheirTables : Prop :=
  ∀ s : State,
    (∀ fell latch, Completes (.powerOnReset fell latch) s fun t => t.mram = s.mram ∧ t.mramBad = s.mramBad ∧
      t.clk = { mono := s.clk.mono, por := true, pinLow := s.clk.pinLow } ∧
      t.thm = { tripped := s.thm.tripped && tripKept fell latch } ∧
      bit t A.thmStat 31 = t.thm.tripped ∧ t.fab = {} ∧ t.sec = {} ∧ t.hbmBad = [] ∧ t.memBad = [] ∧
      (∀ a ≤ 2 ^ 40, a ≠ A.thmStat → rd t a = regReset a) ∧ (∀ k ≤ 2 ^ 32, readByte memBlank t.mem k = memBlank k) ∧
      ∀ k ≤ 2 ^ 36, readByte blank t.hbm k = 0#8) ∧
    (∀ gpio : Fin 4, (s.clk.por = false → exec (.porEnd gpio) s = .next s) ∧ (s.clk.por = true → Completes (.porEnd gpio) s fun t =>
      t.clk = { s.clk with por := false } ∧ t.thm = { s.thm with gpio := gpio } ∧ (s.thm.tripped = false → domInReset t 59 = false) ∧ rd t A.thmSmb = BitVec.ofNat 32 (0x4C + gpio))) ∧
    Completes .resetNAssert s (fun t => t.clk.pinLow = true ∧ ResetAsked s t 1) ∧
    (bit s A.rstWdt 31 = true → Completes .watchdogExpiry s (ResetAsked s · 2)) ∧ (bit s A.rstWdt 31 = false → exec .watchdogExpiry s = .next s) ∧
    (writeTaken s A.rstSwrst = true → Completes (.rstSwrstWrite 0x0C0FFEE0#32) s (ResetAsked s · 3) ∧
      ∀ v, v ≠ 0x0C0FFEE0#32 → Completes (.rstSwrstWrite v) s (OnlyEvent s · A.rstEvt 1 13 104)) ∧
    (jtagFull s = true → Completes .jtagChiprst s (ResetAsked s · 5)) ∧ (jtagFull s = false → exec .jtagChiprst s = .next s) ∧
    Completes .jtagReset s (fun t => t = { s with regs := t.regs, sec := { s.sec with jtagOpen := false } }) ∧
    (s.clk.req = false ∨ s.clk.aon = false ∨ s.clk.por = true → exec .chipResetEntry s = .next s) ∧
    (s.clk.req = true → s.clk.aon = true → s.clk.por = false → Completes .chipResetEntry s fun t =>
      t.clk.inReset = true ∧ t.clk.req = false ∧ t.clk.por = false ∧ t.clk.aon = true ∧ t.clk.mono = s.clk.mono ∧ t.thm = s.thm ∧ t.fab = {} ∧
      t.pipe = { auditAt := s.clk.mono + 768000000 } ∧ rd t A.rstWdt = rd s A.rstWdt ∧ t.clk.pinLow = s.clk.pinLow ∧ fld t A.rstPhase 2 0 = 0 ∧ fld t A.rstCount 15 0 = min (fld s A.rstCount 15 0 + 1) 65535 ∧
      rd t A.rstCause = rd s A.rstCause ∧ (∀ i < 36, rd t (A.thmThr i) = rd s (A.thmThr i)) ∧
      t.sec = { jtagOpen := s.sec.jtagOpen, jtagEver := s.sec.jtagEver } ∧
      (∀ a, 0x100000 ≤ a → a < 0x330000 → rd t a = regReset a) ∧ (s.nvm.flog = [] → t.mram = s.mram) ∧
      (bit s A.repStat repFrozen = true → bit s A.hbmStat 31 = true ∨ bit s A.hbmStat 29 = true → t.hbm = s.hbm ∧ t.rep = s.rep ∧ bit t A.repStat repFrozen = true ∧
        bit t A.repStat repKept = true ∧ rd t A.repCause = rd s A.repCause) ∧
      (bit s A.repStat repFrozen = false ∨ (bit s A.hbmStat 31 = false ∧ bit s A.hbmStat 29 = false) → t.rep = {} ∧ ∀ k ≤ 2 ^ 36, readByte blank t.hbm k = 0#8)) ∧
    (s.clk.inReset = false → exec .resetRelease s = .next { s with clk := { s.clk with pinLow := false } }) ∧
    (s.clk.inReset = true → Completes .resetRelease s fun t => t.clk = { s.clk with inReset := false, pinLow := false } ∧
      (s.clk.aon = true → s.clk.por = false → s.clk.req = false → s.thm.tripped = false → fld s A.rstPhase 2 0 = 0 → fld t A.rstPhase 2 0 = 1)) ∧
    (atPhase s 2 = false → exec .optionLoad s = .next s) ∧
    (atPhase s 2 = true → Completes .optionLoad s fun t =>
      let img := (optChoose s).1
      t.nvm.opt = img ∧ (s.clk.restarts < 16 → fld t A.optStat 26 24 = (optChoose s).2) ∧ fld t A.rstPhase 2 0 = 3 ∧ rd t A.optGen = BitVec.ofNat 32 (leAt img 8 4) ∧
      rd t A.klkAddr = BitVec.ofNat 32 (leAt img 16 2 * 2 ^ 16 + leAt img 18 2 % 2 ^ 14) ∧
      (∀ k < 12, bit t (A.tileCtrl k) 1 = (leAt img 12 2).testBit k) ∧ (∀ i < 3, t.sec.enf.getLsbD i = (leAt img 20 1).testBit i) ∧
      ((optChoose s).2 = 4 → bit t A.nvmEvt 3 = true)) ∧
    (atPhase s 3 = false → exec .parkTableRead s = .next s) ∧
    (atPhase s 3 = true → Completes .parkTableRead s fun t =>
      let u := { s with nvm := { s.nvm with txnC := (storedTxn s).getD 0 } }
      let good (img : List Byte) : Bool := decide (img.length = parkLen) &&
        (parkError img fun n => decide (leAt img (64 + 128 * n) 1 % 2 = 1)).isNone
      fld t A.rstPhase 2 0 = 4 ∧ t.mram = s.mram ∧
      (∀ img, recValue u 3 0 = some img → good img = true → t.nvm.park = img ∧ t.clk.noPark = s.clk.noPark ∧
        ∀ b < 24, rd t (A.bcoPark b) = BitVec.ofNat 32 (bcoParkWord img b % 2 ^ 17)) ∧
      ((∀ img, recValue u 3 0 = some img → good img = false) → t.clk.noPark = true ∧ t.nvm.park = s.nvm.park ∧ bit t A.nvmEvt 1 = true)) ∧
    (let due := atPhase s 4 = true ∧ supvRuns s = true ∧ (bit s A.nvmStat 31 = true ∨ s.nvm.stopped = true)
     (¬due → exec .bootRomDone s = .next s) ∧
     (due → Completes .bootRomDone s fun t => fld t A.rstPhase 2 0 = 5 ∧ bit t A.rstWdt 31 = true ∧ bit t A.cmdStat 31 = true ∧
       bit t A.secStat 31 = true ∧ (∀ i < 4, rd t (A.idSerial i) = BitVec.ofNat 32 (leAt serialBytes (4 * i) 4)) ∧
       (recValue s 5 0 = none → t.sec = s.sec ∧ (recUnreadable s 5 0 = true → bit t A.secStat 29 = true)) ∧
       ∀ img, recValue s 5 0 = some img → t.sec = if patchStatus s img = 0 ∧ leAt s.nvm.opt 20 1 / 8 % 2 = 1 ∧ recUnreadable s 1 0 = false then
         { s.sec with patch := img } else s.sec)) ∧
    (atPhase s 6 = false ∨ supvRuns s = false → exec .autostart s = .next s) ∧
    (atPhase s 6 = true → supvRuns s = true → Completes .autostart s fun t => fld t A.rstPhase 2 0 = 7 ∧ bit t A.rstPhase 31 = true ∧ t.fab = s.fab ∧
      (leAt s.nvm.opt 14 1 % 2 = 0 → t = { s with regs := t.regs } ∧ ∀ a, a ≠ A.rstPhase → rd t a = rd s a))

namespace Sys2Proof.Machine

/-- The device entered the safe state for a cause: READY and the watchdog are off, and every tile is held. -/
def SafeEntered (t : State) (cause : Nat) : Prop := inSafe t = true ∧ fld t A.umpStat 30 29 = cause ∧ bit t A.rstWdt 31 = false ∧
  bit t A.cmdStat 31 = false ∧ ∀ k < 12, bit t (A.tileStat k) tsCauseFault = true ∧ bit t (A.tileStat k) tsHoldOut = true

end Sys2Proof.Machine

/-- An event counts and sets FLAG; in the safe state nothing else follows, a reaction with SAFE enters it; wrong parity enters it with its cause; external
inputs are levels, and FLAG stays while a level holds; clearing releases what it held; fault log entries go to the MRAM ring (R341 to R347,
R349 to R352). -/
def Obligations.UmpireCountsHoldsAndProtects : Prop :=
  ∀ s : State,
    (∀ o : Occ,
      let own : Act := .all [
        match evtBit o.src o.detail with
        | some (a, i) => setBit a i
        | none => .done,
        Act.when (decide (o.src = 255)) (clrBit A.toneStat 31)]
      (o.src ≠ 10 → sourceLevel o.src = false → (sourceDomains o.src = [] ∨ o.m < 255) → exec (.umpireEvent o) s = .next ((raise o).run (own.run s))) ∧
      (o.src ≠ 10 → sourceLevel o.src = true → (sourceDomains o.src = [] ∨ o.m < 255) → exec (.umpireEvent o) s = .next
        (if o.src ∈ s.ump.level then own.run s else
          (raise o).run { own.run s with ump := { (own.run s).ump with level := o.src :: s.ump.level } })) ∧
      (∀ d l, sourceDomains o.src = d :: l → 255 ≤ o.m → Completes (.umpireEvent o) s fun t => bit t A.clkEvt 0 = true ∧ t.fab = s.fab ∧
        (d < 32 → bit t A.clkXovf0 d = true) ∧ (32 ≤ d → d < 60 → bit t A.clkXovf1 (d - 32) = true)) ∧
      (o.src = 10 → Completes (.umpireEvent o) s fun t => bit t A.clkEvt 0 = true ∧ t.fab = s.fab ∧
        (o.addr < 32 → bit t A.clkXovf0 o.addr = true) ∧ (32 ≤ o.addr → o.addr < 60 → bit t A.clkXovf1 (o.addr - 32) = true)) ∧
      let t := (raise o).run s
      let one := min (fld s (A.umpSrc o.src) 15 0 + o.m) 65535
      (domInReset s 42 = true ∨ 404 ≤ o.src → t = s) ∧
      (domInReset s 42 = false → o.src < 404 → sourceTile o.src = none →
        (srcFlag s o.src = true → srcSevere s o.src = true → t = { s with regs := t.regs } ∧
          (∀ a, a ≠ A.umpSrc o.src → rd t a = rd s a) ∧ fld t (A.umpSrc o.src) 15 0 = one ∧
          srcFlag t o.src = true ∧ srcSevere t o.src = true) ∧
        (inSafe s = true → t = { s with regs := t.regs, ump := t.ump } ∧ (∀ a, a ≠ A.umpSrc o.src → rd t a = rd s a) ∧
          fld t (A.umpSrc o.src) 15 0 = one ∧ srcFlag t o.src = true ∧
          (2 ≤ sourceClass o.src → srcSevere t o.src = true)) ∧
        (inSafe s = false → srcFlag s o.src = false → (evReact s o.src).testBit reSAFE = true → inSafe t = true) ∧
        (inSafe s = false → srcFlag s o.src = false → srcSevere s o.src = true → evReact s o.src = 2 ^ reLOG → bit s A.umpFeSrc 31 = true →
          bit s A.nvmStat 28 = false → fld s A.umpFeSrc 29 28 = 3 → srcFlag t o.src = true ∧ t.fab = s.fab ∧
          t.outs = s.outs ∧ ∃ e, t.nvm = { s.nvm with flog := s.nvm.flog ++ [e] } ∧ e.source = o.src ∧ e.time = nowNs s ∧ e.kind = 0))) ∧
    exec (.umpParityScan none) s = .next s ∧
    (∀ a, (domInReset s 42 = true ∨ bit s A.umpStat 28 = true → exec (.umpParityScan (some a)) s = .next s) ∧
      (domInReset s 42 = false → bit s A.umpStat 28 = false → Completes (.umpParityScan (some a)) s fun t =>
        (inSafe s = false → SafeEntered t 2) ∧ inSafe t = true ∧ fld t A.umpStat 30 29 = 2 ∧ bit t A.umpStat 28 = true ∧ t.fab = s.fab ∧ t.mram = s.mram ∧
        (bit s A.nvmStat 28 = false → ∃ e, t.nvm.flog = s.nvm.flog ++ [e] ∧ e.kind = 1 ∧ e.addr = a))) ∧
    (∀ n : Fin 2,
      let o : Occ := { src := 402 + n, addr := A.umpExt }
      (bit s A.umpExt n = false ∨ 402 + n.val ∈ s.ump.level → exec (.extFaultInput n) s = .next s) ∧
      (bit s A.umpExt n = true → 402 + n.val ∉ s.ump.level → exec (.extFaultInput n) s = .next ((raise o).run
        { s with ump := { s.ump with level := (402 + n.val) :: s.ump.level } })) ∧
      exec (.extInputRelease n) s = .next { s with ump := { s.ump with level := s.ump.level.filter (· != 402 + n.val) } }) ∧
    (writeTaken s A.umpCtrl = true →
      Completes .umpFeClr s (fun t => ∀ a ∈ [A.umpFeSrc, A.umpFeAddrLo, A.umpFeAddrHi, A.umpFeInfo, A.umpFeTimeLo, A.umpFeTimeHi], rd t a = 0#32) ∧
      Completes .umpCntClr s (fun t => t.ump = s.ump ∧ ∀ n < 404, fld t (A.umpSrc n) 15 0 = 0 ∧ srcFlag t n = srcFlag s n ∧
        srcSevere t n = srcSevere s n)) ∧
    (∀ n : Fin 404, writeTaken s (A.umpSrc n) = true →
      Completes (.umpSrcCntClr n) s (fun t => fld t (A.umpSrc n) 15 0 = 0 ∧ srcFlag t n = srcFlag s n ∧ t.ump = s.ump) ∧
      (sourceLevel n = true → n.val ∈ s.ump.level → Completes (.umpFlagClear n) s (OnlyTraced s)) ∧
      (sourceLevel n = false ∨ n.val ∉ s.ump.level → Completes (.umpFlagClear n) s fun t => srcFlag t n = false ∧
        srcSevere t n = srcSevere s n ∧ sget (fun _ => 0) t.ump.applied (2 * n) = 0 ∧ t.ump.run = s.ump.run ∧
        ∀ k < 12, bit t (A.tileStat k) tsCauseFault = faultCause t k) ∧
      Completes (.umpSevereClear n) s (fun t => srcSevere t n = false ∧ srcFlag t n = srcFlag s n ∧
        sget (fun _ => 0) t.ump.run n = 0 ∧ sget (fun _ => 0) t.ump.applied (2 * n + 1) = 0 ∧
        ∀ k < 12, bit t (A.tileStat k) tsCauseFault = faultCause t k)) ∧
    (let off := bit s A.nvmStat 31 = false ∨ s.nvm.stopped = true ∨ nvmInhibited s = true ∨ domInReset s 42 = true ∨ s.nvm.flog = []
     (off → exec .faultLogWrite s = .next s) ∧
     (¬off → ∀ e l, s.nvm.flog = e :: l → Completes .faultLogWrite s fun t =>
       t = { s with regs := t.regs, mram := t.mram, mramBad := t.mramBad, nvm := { s.nvm with flog := l, flogSeq := s.nvm.flogSeq + 1 } } ∧
       (let a := 0x100000 + 64 * (s.nvm.flogSeq % 16384)
        mramAt t a 64 = flogBytes e (s.nvm.flogSeq + 1) ∧
        ∀ b, b < a ∨ a + 64 ≤ b → readByte mramBlank t.mram b = readByte mramBlank s.mram b) ∧
       fld t A.nvmFlog 15 0 = (s.nvm.flogSeq + 1) % 16384))

/-- A reading shows the sensor's value, its maximum, and its flags with hysteresis, two good readings still broken; on-die readings above 120 degrees
inhibit MRAM writes until all are at most 115; a new critical level of a sensor with TRIP_EN trips; enabling clears a sensor's history and an
on-die limit outside its range is ignored; the SMBus target answers its nine codes (R316, R353 to R359, Table FT-8).
Log entry 57 holds a choice of the model that it rests on. -/
def Obligations.SensorsWarnTripAndAnswer : Prop :=
  ∀ s : State,
    (∀ (i : Fin 36) (c : Conversion),
      let due := aonRuns s = true ∧ sensorOn s i = true ∧ convFits i c = true
      (¬due → exec (.sensorReading i c) s = .next s) ∧
      (due → Completes (.sensorReading i c) s fun t =>
        let raw := convReading s i (Config.freeWord s.free) c
        let was := bit s (A.thmSstat i) 31
        let good := if convBroken c then 0 else if was then (sget (fun _ => ({} : Sensor)) s.thm.sensors i).good + 1 else 0
        let broken := convBroken c || (was && decide (good < 3))
        let r : Int := if broken then 4080 else raw
        let thr := rd s (A.thmThr i)
        let hyst := 16 * Int.ofNat (fld s (A.thmSctrl i) 23 20)
        let level (old : Bool) (limit : Int) : Bool := if old then decide (limit - hyst < r) else decide (limit ≤ r)
        let crit := level (bit s (A.thmSstat i) 30) (signed 16 (bits thr 31 16))
        fld t (A.thmTemp i) 15 0 = unsigned 16 r ∧ bit t (A.thmSstat i) 31 = broken ∧ bit t (A.thmSstat i) 30 = crit ∧
        bit t (A.thmSstat i) 28 = level (bit s (A.thmSstat i) 28) (signed 16 (bits thr 15 0)) ∧ t.free = s.free + 1 ∧ t.fab = s.fab ∧
        (fld s (A.thmTemp i) 31 16 = 0x8000 ∨ signed 16 (fld s (A.thmTemp i) 31 16) < r → fld t (A.thmTemp i) 31 16 = unsigned 16 r) ∧
        ((∃ d ∈ dieReadings t, 1920 < d) → bit t A.nvmStat 28 = true ∧ bit t A.thmStat 27 = true) ∧
        ((∀ d ∈ dieReadings t, d ≤ 1840) → bit t A.nvmStat 28 = false ∧ bit t A.thmStat 27 = false)) ∧
      (due → s.thm.tripped = false → ∀ r, convBroken c = false → bit s (A.thmSstat i) 31 = false → r = convReading s i (Config.freeWord s.free) c →
        signed 16 (fld s (A.thmThr i) 31 16) ≤ r → bit s (A.thmSstat i) 30 = false → bit s (A.thmSctrl i) 30 = true →
        Completes (.sensorReading i c) s fun t => t.thm.tripped = true ∧ t.nvm.stopped = true ∧ bit t A.thmStat 31 = true ∧
          rd t A.thmTrip = BitVec.ofNat 32 (2 ^ 31 + i * 2 ^ 24 + unsigned 16 r)) ∧
      (∀ v : Word, writeTaken s (A.thmSctrl i) = true → Completes (.thmSctrlWrite i v) s fun t =>
        rd t (A.thmSctrl i) = (rd s (A.thmSctrl i) &&& ~~~(sctrlMask i)) ||| (v &&& sctrlMask i) ∧
        (bit t (A.thmSctrl i) 31 = true → bit s (A.thmSctrl i) 31 = false → sget (fun _ => ({} : Sensor)) t.thm.sensors i = {}) ∧
        (bit t (A.thmSctrl i) 31 = false → bit s (A.thmSctrl i) 31 = true → fld t (A.thmTemp i) 15 0 = 0x8000 ∧ rd t (A.thmSstat i) = 0#32 ∧
          15 + 2 * i.val ∉ t.ump.level ∧ 16 + 2 * i.val ∉ t.ump.level)) ∧
      (∀ v : Word, writeTaken s (A.thmThr i) = true →
        let ok := i.val < 24 ∨ (1520 ≤ signed 16 (bits v 31 16) ∧ signed 16 (bits v 31 16) ≤ 2000)
        (ok → Completes (.thmThrWrite i v) s fun t => rd t (A.thmThr i) = v ∧ i.val ∈ t.thm.thrSet) ∧
        (¬ok → Completes (.thmThrWrite i v) s (OnlyTraced s)))) ∧
    (writeTaken s A.thmCtrl = true → Completes .thmMaxClr s fun t => t.thm = s.thm ∧ ∀ i < 36,
      fld t (A.thmTemp i) 31 16 = 0x8000 ∧ fld t (A.thmTemp i) 15 0 = fld s (A.thmTemp i) 15 0) ∧
    (let pec (c : Nat) (l : List Byte) : Byte :=
       let a := fld s A.thmSmb 6 0
       crc8 (natLe 1 (2 * a) ++ natLe 1 c ++ natLe 1 (2 * a + 1) ++ l)
     let answers (i : Instr) (c : Nat) (o : Out) (l : List Byte) : Prop :=
       exec i s = .next (if aonRuns s = true then { s with outs := s.outs ++ [o, .smbPec (pec c l)] } else s)
     let byte (i : Instr) (c v : Nat) : Prop := answers i c (.smbByte v) (natLe 1 v)
     let word (i : Instr) (c v : Nat) : Prop := answers i c (.smbWord v) (natLe 2 v)
     byte .smbDeviceId 0 0x96 ∧ byte .smbStatusRead 1 (smbStatus s) ∧ word .smbHottest 2 (fld s A.thmHot 15 0) ∧
     byte .smbHottestSensor 3 (fld s A.thmHot 21 16) ∧ word .smbTripReading 4 (fld s A.thmTrip 15 0) ∧
     byte .smbTripSensor 5 (if bit s A.thmTrip 31 then fld s A.thmTrip 29 24 else 0xFF) ∧
     byte .smbRstCause 6 (fld s A.rstCause 7 0) ∧ (∀ i, word (.smbSensorReading i) (0x10 + i.val) (fld s (A.thmTemp i.val) 15 0)) ∧
     (let l := (List.range 36).flatMap fun i => natLe 2 (fld s (A.thmTemp i) 15 0)
      answers .smbBlockRead 0x40 (.smbBlock l) (natLe 1 l.length ++ l)) ∧
     ∀ code write,
       (write = true ∨ smbKnown code.toNat = false →
         exec (.smbRefused code write) s = .next (if aonRuns s = true then { s with outs := s.outs ++ [.smbNack] } else s)) ∧
       (write = false → smbKnown code.toNat = true → exec (.smbRefused code write) s = .next s))

namespace Sys2Proof.Machine

/-- A bad access was counted, and recorded unless a record waits; nothing else differs but the trace and what a requester is answered. -/
def BadRecorded (s t : State) (write bar2 : Bool) (ofs : Nat) : Prop :=
  t = { s with regs := t.regs, dbg := t.dbg, outs := t.outs } ∧
  (∀ a, a ≠ A.dbgStat → a ≠ A.idBadaddr → a ≠ A.idBadofs → a ≠ A.idBadcnt → rd t a = rd s a) ∧
  (domInReset s 42 = false → fld t A.idBadcnt 15 0 = min (fld s A.idBadcnt 15 0 + 1) 65535 ∧ bit t A.idBadaddr 31 = true ∧
    (bit s A.idBadaddr 31 = true → rd t A.idBadaddr = rd s A.idBadaddr ∧ rd t A.idBadofs = rd s A.idBadofs) ∧
    (bit s A.idBadaddr 31 = false → bit t A.idBadaddr 30 = write ∧ bit t A.idBadaddr 29 = bar2 ∧ rd t A.idBadofs = BitVec.ofNat 32 ofs))

end Sys2Proof.Machine

/-- BAR0 writes follow the access types of their fields; indirection registers are the requester's own; unmapped space and closed DBG registers make bad
accesses; reads give 0 in reset and in write-only bits, a LO word latches those above; bad requests perform nothing (R376 to R378, R380, R383, R384).
Log entries 47 and 53 hold choices of the model that it rests on. -/
def Obligations.RegisterAccessesFollowTheirTypes : Prop :=
  ∀ s : State,
    (∀ (q : Requester) (w : Fin 16777216) (v : Word),
      let a := 4 * w.val
      let r := reqIx q
      (mayAccess s q = false → exec (.registerWrite q w v) s = .next s ∧ exec (.loWordReadLatch q w) s = .next s) ∧
      (mayAccess s q = true → regMapped a = false →
        Completes (.registerWrite q w v) s (fun t => BadRecorded s t true false a ∧ t.outs = s.outs) ∧
        Completes (.loWordReadLatch q w) s (fun t => BadRecorded s t false false a ∧ t.outs = s.outs ++ [.readData 0#32])) ∧
      (mayAccess s q = true → regMapped a = true → (a < 0xF00000 ∨ s.sec.jtagOpen = true) → writeTaken s a = false →
        Completes (.registerWrite q w v) s (OnlyTraced s)) ∧
      (mayAccess s q = true → regMapped a = true → writeTaken s a = true → isSel a = true → a < 0xF00000 →
        Completes (.registerWrite q w v) s fun t => t = { s with regs := t.regs, dbg := t.dbg } ∧ rd t (selKey r a) = v &&& readMask a ∧
          ∀ b, b ≠ A.dbgStat → b ≠ selKey r a → rd t b = rd s b) ∧
      (mayAccess s q = true → writeTaken s a = true →
        (∀ k < 12, a = A.tileEvt k → Completes (.registerWrite q w v) s fun t =>
          t = { s with regs := t.regs, dbg := t.dbg } ∧ rd t a = rd s a &&& ~~~(v &&& 0xFF#32) ∧
          ∀ b, b ≠ A.dbgStat → b ≠ a → rd t b = rd s b) ∧
        (∀ k < 24, a = A.bcoSlew k → Completes (.registerWrite q w v) s fun t =>
          t = { s with regs := t.regs, dbg := t.dbg } ∧ rd t a = (rd s a &&& 0xFFFF0000#32) ||| (v &&& 0xFFFF#32) ∧
          ∀ b, b ≠ A.dbgStat → b ≠ a → rd t b = rd s b)) ∧
      (mayAccess s q = true → regMapped a = true → Completes (.loWordReadLatch q w) s fun t =>
        t = { s with regs := t.regs, dbg := t.dbg, outs := s.outs ++ [.readData (regRead s r a)] } ∧
        (domInReset s (domOf a) = true → regRead s r a = 0#32 ∧ OnlyTraced { s with outs := t.outs } t) ∧
        (domInReset s (domOf a) = false → (∀ p ∈ latchedBy s r a, rd t (latchKey r p.1) = BitVec.ofNat 32 p.2) ∧
          ∀ b, b ≠ A.dbgStat → (∀ p ∈ latchedBy s r a, b ≠ latchKey r p.1) → rd t b = rd s b)) ∧
      regRead s r a &&& ~~~(readMask a) = 0#32) ∧
    (∀ (q : Requester) (i : Fin 10) (v : Word),
      let a := 0xF00000 + 4 * i.val
      exec (.dbgWrite q i v) s = exec (.registerWrite q ⟨0x3C0000 + i, by omega⟩ v) s ∧
      (mayAccess s q = false → exec (.dbgWrite q i v) s = .next s) ∧
      (mayAccess s q = true → s.sec.jtagOpen = false → Completes (.dbgWrite q i v) s fun t => BadRecorded s t true false a ∧ t.outs = s.outs) ∧
      (mayAccess s q = true → s.sec.jtagOpen = true → writeTaken s a = true → Completes (.dbgWrite q i v) s fun t =>
          t = { s with regs := t.regs, dbg := t.dbg } ∧
          (a = A.dbgFilter ∨ a = A.dbgTrigAddr ∨ a = A.dbgTrigMask → ∀ x, regRow a = some x →
            rd t a = (rd s a &&& ~~~(BitVec.ofNat 32 x.rw)) ||| (v &&& BitVec.ofNat 32 x.rw)) ∧
          (a = A.dbgRdSel → rd t (selKey (reqIx q) a) = v &&& readMask a) ∧
          (a = A.dbgCtrl → v.getLsbD 0 = true → bit s A.dbgCtrl 0 = false → bit t A.dbgCtrl 0 = true ∧ t.dbg.trace = [] ∧
            fld t A.dbgStat 12 0 = 0) ∧
          (a = A.dbgCtrl → v.getLsbD 2 = true → bit s A.dbgCtrl 2 = false → bit t A.dbgStat 31 = false ∧ t.dbg.left = none))) ∧
    (∀ (write bar2 : Bool) (ofs : BitVec 32) (len : Fin 4097) (bytes : List (Option (BitVec 8))),
      let o := ofs.toNat
      let n := max 1 len.val
      let bs := (List.range n).map fun i => bytes.getD i none
      let on := (List.range n).filter fun i => (bs.getD i none).isSome
      let c := Instr.badAccess write bar2 ofs len bytes
      let whole := requestWords o bs
      let answer (k : Nat) (v : Word) : Out :=
        let l := on.filter fun i => decide (k ≤ i ∧ i < k + 4)
        if l.length = 4 then .readData v else .readBytes (l.map fun i => v.extractLsb' (8 * ((o + i) % 4)) 8)
      (endpointUp s = false ∨ (bar2 = false ∧ 0x4000000 ≤ o) → exec c s = .next s) ∧
      (endpointUp s = true → (bar2 = true ∨ o < 0x4000000) →
        (requestBad bar2 o n = true → Completes c s fun t => BadRecorded s t write bar2 o ∧
          t.outs = s.outs ++ (if write then [] else [.completerAbort])) ∧
        (requestBad bar2 o n = false → write = true → wholeWords o bs = false → bar2 = false ∨ bar2Window o ≠ some 3 →
          Completes c s fun t => BadRecorded s t true bar2 o ∧ t.outs = s.outs) ∧
        (requestBad bar2 o n = false → write = true → wholeWords o bs = true → bar2 = false → whole.length ≤ 2 ∧
          ∀ p r, whole = p :: r → p.1 = o ∧
            (r = [] → exec c s = .next ((regWrite .host o p.2).run s)) ∧
            ∀ p' r', r = p' :: r' → r' = [] ∧ p'.1 = o + 4 ∧
              exec c s = .next ((regWrite .host (o + 4) p'.2).run ((regWrite .host o p.2).run s))) ∧
        (requestBad bar2 o n = false → write = false → bar2 = false → n ≤ 4 → Completes c s fun t =>
          ∀ w : Fin 16777216, w.val = o / 4 →
            ∃ u, exec (.loWordReadLatch .host w) s = .next u ∧ t = { u with outs := s.outs ++ [answer 0 (regRead s (reqIx .host) (4 * w))] }) ∧
        (requestBad bar2 o n = false → write = false → bar2 = false → 4 < n → Completes c s fun t => n = 8 ∧ o % 8 = 0 ∧
          ∀ w w' : Fin 16777216, w.val = o / 4 → w'.val = o / 4 + 1 →
            ∃ u u', exec (.loWordReadLatch .host w) s = .next u ∧ exec (.loWordReadLatch .host w') u = .next u' ∧
              t = { u' with outs := s.outs ++ [answer 0 (regRead s (reqIx .host) (4 * w)), answer 4 (regRead u (reqIx .host) (4 * w'))] }) ∧
        (requestBad bar2 o n = false → bar2 = true → write = false → Completes c s fun t =>
          t.outs = s.outs ++ [.readBytes (on.map fun i => bar2Byte s (o + i))] ∧
          (bar2BadIn o n = none → t = { s with free := s.free + 1, outs := t.outs }) ∧
          ∀ b, bar2BadIn o n = some b → BadRecorded { s with free := s.free + 1 } t false true b) ∧
        (requestBad bar2 o n = false → bar2 = true → write = true → bar2Window o ≠ some 3 → wholeWords o bs = true →
          ∀ u, (bar2BadIn o n = none ∧ u = s) ∨ (∃ b, bar2BadIn o n = some b ∧ u = (badAccess true true b).run s) →
            exec c s = .next ((Act.each whole fun p => writeBar2 p.1 p.2).run u)) ∧
        (requestBad bar2 o n = false → bar2 = true → write = true → bar2Window o = some 3 →
          (domUp s 40 = false → exec c s = .next s) ∧
          (domUp s 40 = true → exec c s = .next ((aperWrite (o - 0x80000000) bs).run s))))) ∧
    (writeTaken s A.secCtrl = true → Completes .secCntClr s fun t => t = { s with regs := t.regs, dbg := t.dbg } ∧
      rd t A.secSigcnt = 0#32 ∧ rd t A.secUnlkcnt = 0#32 ∧
      ∀ a, a ≠ A.dbgStat → a ≠ A.secSigcnt → a ≠ A.secUnlkcnt → rd t a = rd s a)

namespace Sys2Proof.Machine

/-- The engine that issues an instruction of a frame program. -/
def issuerOf : Instr → Option (Fin 96)
  | .nop e | .end_ e | .grp e | .gnext e => some e
  | .br e _ _ | .evt e _ _ | .rdsr e _ _ | .vidx e _ _ | .pset e _ _ | .pmovs e _ _ | .pmovp e _ _ | .movi e _ _ | .outDrv e _ _ => some e
  | .fabs e _ _ _ | .fneg e _ _ _ | .frcp e _ _ _ | .frsq e _ _ _ | .vmov e _ _ _ | .vmovI e _ _ _ | .pand e _ _ _ | .por e _ _ _
  | .pxor e _ _ _ | .pandn e _ _ _ | .vbc e _ _ _ | .vext e _ _ _ | .add e _ _ _ | .sub e _ _ _ | .and_ e _ _ _ | .or_ e _ _ _
  | .xor_ e _ _ _ | .shl e _ _ _ | .shr e _ _ _ | .sar e _ _ _ | .mul e _ _ _ | .slt e _ _ _ | .sltu e _ _ _ | .ld e _ _ _ | .st e _ _ _
  | .lds e _ _ _ | .tld e _ _ _ | .lut e _ _ _ => some e
  | .fadd e _ _ _ _ | .fsub e _ _ _ _ | .fmul e _ _ _ _ | .fmin e _ _ _ _ | .fmax e _ _ _ _ => some e
  | .fma e _ _ _ _ _ | .fms e _ _ _ _ _ | .fclamp e _ _ _ _ _ | .fcmp e _ _ _ _ _ | .fcmpI e _ _ _ _ _ | .sel e _ _ _ _ _
  | .inMon e _ _ _ _ _ => some e
  | .tone e _ _ _ _ _ _ _ => some e
  | _ => none

end Sys2Proof.Machine

/-- A step runs the command at the front of the queue on the state with the rest of the queue. On an empty queue one cycle of the time base passes
and nothing else changes: the device's own count advances, and TICK while its domain runs, modulo 2^48 (R258; log entry 54: such a step being a
cycle is the model's choice). -/
def Obligations.StepRunsTheFrontCommand : Prop :=
  ∀ s : State,
    (∀ c r, s.pending = c :: r → step s = exec c { s with pending := r }) ∧
    (∀ c, step { s with pending := c :: s.pending } = exec c s) ∧
    (s.pending = [] → step s = .next { s with
      clk := { s.clk with mono := s.clk.mono + 1 },
      tim := if domRuns s 39 then { s.tim with tick := (s.tim.tick + 1) % 2 ^ 48 } else s.tim })

/-- Right after power-on no command waits, every store is in canonical form, all 60 domains are held in reset, RST_CAUSE names the power-on alone, the
tiles are held, no engine runs, and registers hold the values of their tables (R336, R382; values that a log entry names are not among these). -/
def Obligations.ResetLeavesTheTablesValues : Prop :=
  StoresOk State.reset ∧ State.reset.pending = [] ∧ State.reset.outs = [] ∧
  (∀ d < 60, domInReset State.reset d = true) ∧ rd State.reset A.rstCause = 1#32 ∧ rd State.reset A.rstWdt = 0x1F4#32 ∧
  (∀ t < 12, bit State.reset (A.tileCtrl t) 0 = true ∧ bit State.reset (A.tileCtrl t) 1 = false) ∧
  (∀ e < 96, engRuns State.reset e = false) ∧
  (∀ i < 36, rd State.reset (A.thmTemp i) = 0x80008000#32 ∧
    rd State.reset (A.thmSctrl i) = if i < 24 then 0x00300F05#32 else 0xC0300F05#32) ∧
  (∀ p ∈ [(A.toneCtrl, 0x7), (A.pilotBase, 0x624DD2F), (A.pilotStep, 0x83127), (A.klkCtrl, 1), (A.hdlCtrl, 1), (A.hdlG, 2), (A.hdlW, 10),
      (A.hdlLat, 20), (A.hdlRtx, 10), (A.hdlMinlead, 1000), (A.ptpCtrl, 0x12), (A.ptpDomain, 24), (A.servoBw, 100), (A.ppsCtrl, 0x800003E8),
      (A.hbmCtrl, 1), (A.nvmCtrl, 1), (A.tshCtrl, 1)], rd State.reset p.1 = BitVec.ofNat 32 p.2)

/-- A power-on reset releases every ball, whatever the state before it: FAB_HOLD, FAULT_N and PPS_OUT are left to their pulls, EDL and BCO are off,
and TIME_CLK_OUT stands still; THERMTRIP_N stays low where the trip stays latched and is released otherwise (R339, R358). -/
def Obligations.PowerOnResetReleasesTheBalls : Prop :=
  ∀ (fell : SupplyFall) (latch : Bool) (s : State), Completes (.powerOnReset fell latch) s fun t =>
    (∀ k, ballFabHold t k = .released) ∧ ballFault t = .released ∧ ballPps t = .released ∧ timeClkRuns t = false ∧
    ballThermtrip t = (if s.thm.tripped && tripKept fell latch then .low else .released) ∧
    (∀ n < 192, ∀ k, ballEdl t n k = none) ∧ ∀ b, ballBco t b = none

/-- The memories and the register file stay in canonical form through every step, whatever command waits and whatever else the state holds. -/
def Obligations.EveryStepKeepsTheStoresCanonical : Prop := ∀ s t : State, StoresOk s → step s = .next t → StoresOk t

/-- Every instruction of a frame program that Table GI-9 admits, with every operand, is what its word decodes to. -/
def Obligations.GloitWordsDecodeToTheirInstructions : Prop := ∀ op : GOp, gopOk op = true → gdecode (gencode op) = some op

/-- An instruction of an engine that is not running, or whose frame program has ended, is not issued: nothing changes (R100, R137).
Log entry 11 holds a choice of the model that it rests on. -/
def Obligations.StoppedEnginesIssueNothing : Prop :=
  ∀ (s : State) (c : Instr) (e : Fin 96), issuerOf c = some e → engRuns s e = false ∨ (engOf s e).active = false → exec c s = .next s

/-- No command stops the device: each completes, leaves the waiting commands as they are, and what has left the device stays ahead of what it sends.
Log entry 2 holds a choice of the model that it rests on. -/
def Obligations.EveryCommandCompletes : Prop :=
  ∀ (c : Instr) (s : State), Completes c s fun t => t.pending = s.pending ∧ s.outs <+: t.outs ∧ s.free ≤ t.free

end
end

