-- ==== Sys2Proof/Laws/State.lean ====
section
/-!
SUPPORT. What each field of the state holds after each update: no proof needs to unfold a record update.
-/

namespace Sys2Proof.Machine

variable (s : State)

/-! ## `Upd.reg` -/

@[simp] theorem reg_upd_pending (a : Nat) (v : Word) : ((Upd.reg a v).apply s).pending = s.pending := rfl
@[simp] theorem reg_upd_regs (a : Nat) (v : Word) : ((Upd.reg a v).apply s).regs = sset regReset s.regs a v := rfl
@[simp] theorem reg_upd_mem (a : Nat) (v : Word) : ((Upd.reg a v).apply s).mem = s.mem := rfl
@[simp] theorem reg_upd_memBad (a : Nat) (v : Word) : ((Upd.reg a v).apply s).memBad = s.memBad := rfl
@[simp] theorem reg_upd_hbm (a : Nat) (v : Word) : ((Upd.reg a v).apply s).hbm = s.hbm := rfl
@[simp] theorem reg_upd_hbmBad (a : Nat) (v : Word) : ((Upd.reg a v).apply s).hbmBad = s.hbmBad := rfl
@[simp] theorem reg_upd_mram (a : Nat) (v : Word) : ((Upd.reg a v).apply s).mram = s.mram := rfl
@[simp] theorem reg_upd_mramBad (a : Nat) (v : Word) : ((Upd.reg a v).apply s).mramBad = s.mramBad := rfl
@[simp] theorem reg_upd_clk (a : Nat) (v : Word) : ((Upd.reg a v).apply s).clk = s.clk := rfl
@[simp] theorem reg_upd_ump (a : Nat) (v : Word) : ((Upd.reg a v).apply s).ump = s.ump := rfl
@[simp] theorem reg_upd_thm (a : Nat) (v : Word) : ((Upd.reg a v).apply s).thm = s.thm := rfl
@[simp] theorem reg_upd_nvm (a : Nat) (v : Word) : ((Upd.reg a v).apply s).nvm = s.nvm := rfl
@[simp] theorem reg_upd_host (a : Nat) (v : Word) : ((Upd.reg a v).apply s).host = s.host := rfl
@[simp] theorem reg_upd_lane (a : Nat) (v : Word) : ((Upd.reg a v).apply s).lane = s.lane := rfl
@[simp] theorem reg_upd_eng (a : Nat) (v : Word) : ((Upd.reg a v).apply s).eng = s.eng := rfl
@[simp] theorem reg_upd_fab (a : Nat) (v : Word) : ((Upd.reg a v).apply s).fab = s.fab := rfl
@[simp] theorem reg_upd_pipe (a : Nat) (v : Word) : ((Upd.reg a v).apply s).pipe = s.pipe := rfl
@[simp] theorem reg_upd_sup (a : Nat) (v : Word) : ((Upd.reg a v).apply s).sup = s.sup := rfl
@[simp] theorem reg_upd_klk (a : Nat) (v : Word) : ((Upd.reg a v).apply s).klk = s.klk := rfl
@[simp] theorem reg_upd_hdl (a : Nat) (v : Word) : ((Upd.reg a v).apply s).hdl = s.hdl := rfl
@[simp] theorem reg_upd_tim (a : Nat) (v : Word) : ((Upd.reg a v).apply s).tim = s.tim := rfl
@[simp] theorem reg_upd_net (a : Nat) (v : Word) : ((Upd.reg a v).apply s).net = s.net := rfl
@[simp] theorem reg_upd_sec (a : Nat) (v : Word) : ((Upd.reg a v).apply s).sec = s.sec := rfl
@[simp] theorem reg_upd_rep (a : Nat) (v : Word) : ((Upd.reg a v).apply s).rep = s.rep := rfl
@[simp] theorem reg_upd_dbg (a : Nat) (v : Word) : ((Upd.reg a v).apply s).dbg = s.dbg := rfl
@[simp] theorem reg_upd_free (a : Nat) (v : Word) : ((Upd.reg a v).apply s).free = s.free := rfl
@[simp] theorem reg_upd_outs (a : Nat) (v : Word) : ((Upd.reg a v).apply s).outs = s.outs := rfl

/-! ## `Upd.regsDrop` -/

@[simp] theorem regsDrop_upd_pending (rs : List (Nat × Nat)) : ((Upd.regsDrop rs).apply s).pending = s.pending := rfl
@[simp] theorem regsDrop_upd_regs (rs : List (Nat × Nat)) : ((Upd.regsDrop rs).apply s).regs = sdrop rs s.regs := rfl
@[simp] theorem regsDrop_upd_mem (rs : List (Nat × Nat)) : ((Upd.regsDrop rs).apply s).mem = s.mem := rfl
@[simp] theorem regsDrop_upd_memBad (rs : List (Nat × Nat)) : ((Upd.regsDrop rs).apply s).memBad = s.memBad := rfl
@[simp] theorem regsDrop_upd_hbm (rs : List (Nat × Nat)) : ((Upd.regsDrop rs).apply s).hbm = s.hbm := rfl
@[simp] theorem regsDrop_upd_hbmBad (rs : List (Nat × Nat)) : ((Upd.regsDrop rs).apply s).hbmBad = s.hbmBad := rfl
@[simp] theorem regsDrop_upd_mram (rs : List (Nat × Nat)) : ((Upd.regsDrop rs).apply s).mram = s.mram := rfl
@[simp] theorem regsDrop_upd_mramBad (rs : List (Nat × Nat)) : ((Upd.regsDrop rs).apply s).mramBad = s.mramBad := rfl
@[simp] theorem regsDrop_upd_clk (rs : List (Nat × Nat)) : ((Upd.regsDrop rs).apply s).clk = s.clk := rfl
@[simp] theorem regsDrop_upd_ump (rs : List (Nat × Nat)) : ((Upd.regsDrop rs).apply s).ump = s.ump := rfl
@[simp] theorem regsDrop_upd_thm (rs : List (Nat × Nat)) : ((Upd.regsDrop rs).apply s).thm = s.thm := rfl
@[simp] theorem regsDrop_upd_nvm (rs : List (Nat × Nat)) : ((Upd.regsDrop rs).apply s).nvm = s.nvm := rfl
@[simp] theorem regsDrop_upd_host (rs : List (Nat × Nat)) : ((Upd.regsDrop rs).apply s).host = s.host := rfl
@[simp] theorem regsDrop_upd_lane (rs : List (Nat × Nat)) : ((Upd.regsDrop rs).apply s).lane = s.lane := rfl
@[simp] theorem regsDrop_upd_eng (rs : List (Nat × Nat)) : ((Upd.regsDrop rs).apply s).eng = s.eng := rfl
@[simp] theorem regsDrop_upd_fab (rs : List (Nat × Nat)) : ((Upd.regsDrop rs).apply s).fab = s.fab := rfl
@[simp] theorem regsDrop_upd_pipe (rs : List (Nat × Nat)) : ((Upd.regsDrop rs).apply s).pipe = s.pipe := rfl
@[simp] theorem regsDrop_upd_sup (rs : List (Nat × Nat)) : ((Upd.regsDrop rs).apply s).sup = s.sup := rfl
@[simp] theorem regsDrop_upd_klk (rs : List (Nat × Nat)) : ((Upd.regsDrop rs).apply s).klk = s.klk := rfl
@[simp] theorem regsDrop_upd_hdl (rs : List (Nat × Nat)) : ((Upd.regsDrop rs).apply s).hdl = s.hdl := rfl
@[simp] theorem regsDrop_upd_tim (rs : List (Nat × Nat)) : ((Upd.regsDrop rs).apply s).tim = s.tim := rfl
@[simp] theorem regsDrop_upd_net (rs : List (Nat × Nat)) : ((Upd.regsDrop rs).apply s).net = s.net := rfl
@[simp] theorem regsDrop_upd_sec (rs : List (Nat × Nat)) : ((Upd.regsDrop rs).apply s).sec = s.sec := rfl
@[simp] theorem regsDrop_upd_rep (rs : List (Nat × Nat)) : ((Upd.regsDrop rs).apply s).rep = s.rep := rfl
@[simp] theorem regsDrop_upd_dbg (rs : List (Nat × Nat)) : ((Upd.regsDrop rs).apply s).dbg = s.dbg := rfl
@[simp] theorem regsDrop_upd_free (rs : List (Nat × Nat)) : ((Upd.regsDrop rs).apply s).free = s.free := rfl
@[simp] theorem regsDrop_upd_outs (rs : List (Nat × Nat)) : ((Upd.regsDrop rs).apply s).outs = s.outs := rfl

/-! ## `Upd.mem` -/

@[simp] theorem mem_upd_pending (a : Nat) (bs : List Byte) : ((Upd.mem a bs).apply s).pending = s.pending := rfl
@[simp] theorem mem_upd_regs (a : Nat) (bs : List Byte) : ((Upd.mem a bs).apply s).regs = s.regs := rfl
@[simp] theorem mem_upd_mem (a : Nat) (bs : List Byte) : ((Upd.mem a bs).apply s).mem = writeBytes memBlank s.mem a bs := rfl
@[simp] theorem mem_upd_memBad (a : Nat) (bs : List Byte) : ((Upd.mem a bs).apply s).memBad = s.memBad := rfl
@[simp] theorem mem_upd_hbm (a : Nat) (bs : List Byte) : ((Upd.mem a bs).apply s).hbm = s.hbm := rfl
@[simp] theorem mem_upd_hbmBad (a : Nat) (bs : List Byte) : ((Upd.mem a bs).apply s).hbmBad = s.hbmBad := rfl
@[simp] theorem mem_upd_mram (a : Nat) (bs : List Byte) : ((Upd.mem a bs).apply s).mram = s.mram := rfl
@[simp] theorem mem_upd_mramBad (a : Nat) (bs : List Byte) : ((Upd.mem a bs).apply s).mramBad = s.mramBad := rfl
@[simp] theorem mem_upd_clk (a : Nat) (bs : List Byte) : ((Upd.mem a bs).apply s).clk = s.clk := rfl
@[simp] theorem mem_upd_ump (a : Nat) (bs : List Byte) : ((Upd.mem a bs).apply s).ump = s.ump := rfl
@[simp] theorem mem_upd_thm (a : Nat) (bs : List Byte) : ((Upd.mem a bs).apply s).thm = s.thm := rfl
@[simp] theorem mem_upd_nvm (a : Nat) (bs : List Byte) : ((Upd.mem a bs).apply s).nvm = s.nvm := rfl
@[simp] theorem mem_upd_host (a : Nat) (bs : List Byte) : ((Upd.mem a bs).apply s).host = s.host := rfl
@[simp] theorem mem_upd_lane (a : Nat) (bs : List Byte) : ((Upd.mem a bs).apply s).lane = s.lane := rfl
@[simp] theorem mem_upd_eng (a : Nat) (bs : List Byte) : ((Upd.mem a bs).apply s).eng = s.eng := rfl
@[simp] theorem mem_upd_fab (a : Nat) (bs : List Byte) : ((Upd.mem a bs).apply s).fab = s.fab := rfl
@[simp] theorem mem_upd_pipe (a : Nat) (bs : List Byte) : ((Upd.mem a bs).apply s).pipe = s.pipe := rfl
@[simp] theorem mem_upd_sup (a : Nat) (bs : List Byte) : ((Upd.mem a bs).apply s).sup = s.sup := rfl
@[simp] theorem mem_upd_klk (a : Nat) (bs : List Byte) : ((Upd.mem a bs).apply s).klk = s.klk := rfl
@[simp] theorem mem_upd_hdl (a : Nat) (bs : List Byte) : ((Upd.mem a bs).apply s).hdl = s.hdl := rfl
@[simp] theorem mem_upd_tim (a : Nat) (bs : List Byte) : ((Upd.mem a bs).apply s).tim = s.tim := rfl
@[simp] theorem mem_upd_net (a : Nat) (bs : List Byte) : ((Upd.mem a bs).apply s).net = s.net := rfl
@[simp] theorem mem_upd_sec (a : Nat) (bs : List Byte) : ((Upd.mem a bs).apply s).sec = s.sec := rfl
@[simp] theorem mem_upd_rep (a : Nat) (bs : List Byte) : ((Upd.mem a bs).apply s).rep = s.rep := rfl
@[simp] theorem mem_upd_dbg (a : Nat) (bs : List Byte) : ((Upd.mem a bs).apply s).dbg = s.dbg := rfl
@[simp] theorem mem_upd_free (a : Nat) (bs : List Byte) : ((Upd.mem a bs).apply s).free = s.free := rfl
@[simp] theorem mem_upd_outs (a : Nat) (bs : List Byte) : ((Upd.mem a bs).apply s).outs = s.outs := rfl

/-! ## `Upd.memDrop` -/

@[simp] theorem memDrop_upd_pending (rs : List (Nat × Nat)) : ((Upd.memDrop rs).apply s).pending = s.pending := rfl
@[simp] theorem memDrop_upd_regs (rs : List (Nat × Nat)) : ((Upd.memDrop rs).apply s).regs = s.regs := rfl
@[simp] theorem memDrop_upd_mem (rs : List (Nat × Nat)) : ((Upd.memDrop rs).apply s).mem = sdrop rs s.mem := rfl
@[simp] theorem memDrop_upd_memBad (rs : List (Nat × Nat)) : ((Upd.memDrop rs).apply s).memBad = s.memBad := rfl
@[simp] theorem memDrop_upd_hbm (rs : List (Nat × Nat)) : ((Upd.memDrop rs).apply s).hbm = s.hbm := rfl
@[simp] theorem memDrop_upd_hbmBad (rs : List (Nat × Nat)) : ((Upd.memDrop rs).apply s).hbmBad = s.hbmBad := rfl
@[simp] theorem memDrop_upd_mram (rs : List (Nat × Nat)) : ((Upd.memDrop rs).apply s).mram = s.mram := rfl
@[simp] theorem memDrop_upd_mramBad (rs : List (Nat × Nat)) : ((Upd.memDrop rs).apply s).mramBad = s.mramBad := rfl
@[simp] theorem memDrop_upd_clk (rs : List (Nat × Nat)) : ((Upd.memDrop rs).apply s).clk = s.clk := rfl
@[simp] theorem memDrop_upd_ump (rs : List (Nat × Nat)) : ((Upd.memDrop rs).apply s).ump = s.ump := rfl
@[simp] theorem memDrop_upd_thm (rs : List (Nat × Nat)) : ((Upd.memDrop rs).apply s).thm = s.thm := rfl
@[simp] theorem memDrop_upd_nvm (rs : List (Nat × Nat)) : ((Upd.memDrop rs).apply s).nvm = s.nvm := rfl
@[simp] theorem memDrop_upd_host (rs : List (Nat × Nat)) : ((Upd.memDrop rs).apply s).host = s.host := rfl
@[simp] theorem memDrop_upd_lane (rs : List (Nat × Nat)) : ((Upd.memDrop rs).apply s).lane = s.lane := rfl
@[simp] theorem memDrop_upd_eng (rs : List (Nat × Nat)) : ((Upd.memDrop rs).apply s).eng = s.eng := rfl
@[simp] theorem memDrop_upd_fab (rs : List (Nat × Nat)) : ((Upd.memDrop rs).apply s).fab = s.fab := rfl
@[simp] theorem memDrop_upd_pipe (rs : List (Nat × Nat)) : ((Upd.memDrop rs).apply s).pipe = s.pipe := rfl
@[simp] theorem memDrop_upd_sup (rs : List (Nat × Nat)) : ((Upd.memDrop rs).apply s).sup = s.sup := rfl
@[simp] theorem memDrop_upd_klk (rs : List (Nat × Nat)) : ((Upd.memDrop rs).apply s).klk = s.klk := rfl
@[simp] theorem memDrop_upd_hdl (rs : List (Nat × Nat)) : ((Upd.memDrop rs).apply s).hdl = s.hdl := rfl
@[simp] theorem memDrop_upd_tim (rs : List (Nat × Nat)) : ((Upd.memDrop rs).apply s).tim = s.tim := rfl
@[simp] theorem memDrop_upd_net (rs : List (Nat × Nat)) : ((Upd.memDrop rs).apply s).net = s.net := rfl
@[simp] theorem memDrop_upd_sec (rs : List (Nat × Nat)) : ((Upd.memDrop rs).apply s).sec = s.sec := rfl
@[simp] theorem memDrop_upd_rep (rs : List (Nat × Nat)) : ((Upd.memDrop rs).apply s).rep = s.rep := rfl
@[simp] theorem memDrop_upd_dbg (rs : List (Nat × Nat)) : ((Upd.memDrop rs).apply s).dbg = s.dbg := rfl
@[simp] theorem memDrop_upd_free (rs : List (Nat × Nat)) : ((Upd.memDrop rs).apply s).free = s.free := rfl
@[simp] theorem memDrop_upd_outs (rs : List (Nat × Nat)) : ((Upd.memDrop rs).apply s).outs = s.outs := rfl

/-! ## `Upd.memBad` -/

@[simp] theorem memBad_upd_pending (l : List Nat) : ((Upd.memBad l).apply s).pending = s.pending := rfl
@[simp] theorem memBad_upd_regs (l : List Nat) : ((Upd.memBad l).apply s).regs = s.regs := rfl
@[simp] theorem memBad_upd_mem (l : List Nat) : ((Upd.memBad l).apply s).mem = s.mem := rfl
@[simp] theorem memBad_upd_memBad (l : List Nat) : ((Upd.memBad l).apply s).memBad = l := rfl
@[simp] theorem memBad_upd_hbm (l : List Nat) : ((Upd.memBad l).apply s).hbm = s.hbm := rfl
@[simp] theorem memBad_upd_hbmBad (l : List Nat) : ((Upd.memBad l).apply s).hbmBad = s.hbmBad := rfl
@[simp] theorem memBad_upd_mram (l : List Nat) : ((Upd.memBad l).apply s).mram = s.mram := rfl
@[simp] theorem memBad_upd_mramBad (l : List Nat) : ((Upd.memBad l).apply s).mramBad = s.mramBad := rfl
@[simp] theorem memBad_upd_clk (l : List Nat) : ((Upd.memBad l).apply s).clk = s.clk := rfl
@[simp] theorem memBad_upd_ump (l : List Nat) : ((Upd.memBad l).apply s).ump = s.ump := rfl
@[simp] theorem memBad_upd_thm (l : List Nat) : ((Upd.memBad l).apply s).thm = s.thm := rfl
@[simp] theorem memBad_upd_nvm (l : List Nat) : ((Upd.memBad l).apply s).nvm = s.nvm := rfl
@[simp] theorem memBad_upd_host (l : List Nat) : ((Upd.memBad l).apply s).host = s.host := rfl
@[simp] theorem memBad_upd_lane (l : List Nat) : ((Upd.memBad l).apply s).lane = s.lane := rfl
@[simp] theorem memBad_upd_eng (l : List Nat) : ((Upd.memBad l).apply s).eng = s.eng := rfl
@[simp] theorem memBad_upd_fab (l : List Nat) : ((Upd.memBad l).apply s).fab = s.fab := rfl
@[simp] theorem memBad_upd_pipe (l : List Nat) : ((Upd.memBad l).apply s).pipe = s.pipe := rfl
@[simp] theorem memBad_upd_sup (l : List Nat) : ((Upd.memBad l).apply s).sup = s.sup := rfl
@[simp] theorem memBad_upd_klk (l : List Nat) : ((Upd.memBad l).apply s).klk = s.klk := rfl
@[simp] theorem memBad_upd_hdl (l : List Nat) : ((Upd.memBad l).apply s).hdl = s.hdl := rfl
@[simp] theorem memBad_upd_tim (l : List Nat) : ((Upd.memBad l).apply s).tim = s.tim := rfl
@[simp] theorem memBad_upd_net (l : List Nat) : ((Upd.memBad l).apply s).net = s.net := rfl
@[simp] theorem memBad_upd_sec (l : List Nat) : ((Upd.memBad l).apply s).sec = s.sec := rfl
@[simp] theorem memBad_upd_rep (l : List Nat) : ((Upd.memBad l).apply s).rep = s.rep := rfl
@[simp] theorem memBad_upd_dbg (l : List Nat) : ((Upd.memBad l).apply s).dbg = s.dbg := rfl
@[simp] theorem memBad_upd_free (l : List Nat) : ((Upd.memBad l).apply s).free = s.free := rfl
@[simp] theorem memBad_upd_outs (l : List Nat) : ((Upd.memBad l).apply s).outs = s.outs := rfl

/-! ## `Upd.hbm` -/

@[simp] theorem hbm_upd_pending (a : Nat) (bs : List Byte) : ((Upd.hbm a bs).apply s).pending = s.pending := rfl
@[simp] theorem hbm_upd_regs (a : Nat) (bs : List Byte) : ((Upd.hbm a bs).apply s).regs = s.regs := rfl
@[simp] theorem hbm_upd_mem (a : Nat) (bs : List Byte) : ((Upd.hbm a bs).apply s).mem = s.mem := rfl
@[simp] theorem hbm_upd_memBad (a : Nat) (bs : List Byte) : ((Upd.hbm a bs).apply s).memBad = s.memBad := rfl
@[simp] theorem hbm_upd_hbm (a : Nat) (bs : List Byte) : ((Upd.hbm a bs).apply s).hbm = writeBytes blank s.hbm a bs := rfl
@[simp] theorem hbm_upd_hbmBad (a : Nat) (bs : List Byte) : ((Upd.hbm a bs).apply s).hbmBad = s.hbmBad := rfl
@[simp] theorem hbm_upd_mram (a : Nat) (bs : List Byte) : ((Upd.hbm a bs).apply s).mram = s.mram := rfl
@[simp] theorem hbm_upd_mramBad (a : Nat) (bs : List Byte) : ((Upd.hbm a bs).apply s).mramBad = s.mramBad := rfl
@[simp] theorem hbm_upd_clk (a : Nat) (bs : List Byte) : ((Upd.hbm a bs).apply s).clk = s.clk := rfl
@[simp] theorem hbm_upd_ump (a : Nat) (bs : List Byte) : ((Upd.hbm a bs).apply s).ump = s.ump := rfl
@[simp] theorem hbm_upd_thm (a : Nat) (bs : List Byte) : ((Upd.hbm a bs).apply s).thm = s.thm := rfl
@[simp] theorem hbm_upd_nvm (a : Nat) (bs : List Byte) : ((Upd.hbm a bs).apply s).nvm = s.nvm := rfl
@[simp] theorem hbm_upd_host (a : Nat) (bs : List Byte) : ((Upd.hbm a bs).apply s).host = s.host := rfl
@[simp] theorem hbm_upd_lane (a : Nat) (bs : List Byte) : ((Upd.hbm a bs).apply s).lane = s.lane := rfl
@[simp] theorem hbm_upd_eng (a : Nat) (bs : List Byte) : ((Upd.hbm a bs).apply s).eng = s.eng := rfl
@[simp] theorem hbm_upd_fab (a : Nat) (bs : List Byte) : ((Upd.hbm a bs).apply s).fab = s.fab := rfl
@[simp] theorem hbm_upd_pipe (a : Nat) (bs : List Byte) : ((Upd.hbm a bs).apply s).pipe = s.pipe := rfl
@[simp] theorem hbm_upd_sup (a : Nat) (bs : List Byte) : ((Upd.hbm a bs).apply s).sup = s.sup := rfl
@[simp] theorem hbm_upd_klk (a : Nat) (bs : List Byte) : ((Upd.hbm a bs).apply s).klk = s.klk := rfl
@[simp] theorem hbm_upd_hdl (a : Nat) (bs : List Byte) : ((Upd.hbm a bs).apply s).hdl = s.hdl := rfl
@[simp] theorem hbm_upd_tim (a : Nat) (bs : List Byte) : ((Upd.hbm a bs).apply s).tim = s.tim := rfl
@[simp] theorem hbm_upd_net (a : Nat) (bs : List Byte) : ((Upd.hbm a bs).apply s).net = s.net := rfl
@[simp] theorem hbm_upd_sec (a : Nat) (bs : List Byte) : ((Upd.hbm a bs).apply s).sec = s.sec := rfl
@[simp] theorem hbm_upd_rep (a : Nat) (bs : List Byte) : ((Upd.hbm a bs).apply s).rep = s.rep := rfl
@[simp] theorem hbm_upd_dbg (a : Nat) (bs : List Byte) : ((Upd.hbm a bs).apply s).dbg = s.dbg := rfl
@[simp] theorem hbm_upd_free (a : Nat) (bs : List Byte) : ((Upd.hbm a bs).apply s).free = s.free := rfl
@[simp] theorem hbm_upd_outs (a : Nat) (bs : List Byte) : ((Upd.hbm a bs).apply s).outs = s.outs := rfl

/-! ## `Upd.hbmDrop` -/

@[simp] theorem hbmDrop_upd_pending (rs : List (Nat × Nat)) : ((Upd.hbmDrop rs).apply s).pending = s.pending := rfl
@[simp] theorem hbmDrop_upd_regs (rs : List (Nat × Nat)) : ((Upd.hbmDrop rs).apply s).regs = s.regs := rfl
@[simp] theorem hbmDrop_upd_mem (rs : List (Nat × Nat)) : ((Upd.hbmDrop rs).apply s).mem = s.mem := rfl
@[simp] theorem hbmDrop_upd_memBad (rs : List (Nat × Nat)) : ((Upd.hbmDrop rs).apply s).memBad = s.memBad := rfl
@[simp] theorem hbmDrop_upd_hbm (rs : List (Nat × Nat)) : ((Upd.hbmDrop rs).apply s).hbm = sdrop rs s.hbm := rfl
@[simp] theorem hbmDrop_upd_hbmBad (rs : List (Nat × Nat)) : ((Upd.hbmDrop rs).apply s).hbmBad = s.hbmBad := rfl
@[simp] theorem hbmDrop_upd_mram (rs : List (Nat × Nat)) : ((Upd.hbmDrop rs).apply s).mram = s.mram := rfl
@[simp] theorem hbmDrop_upd_mramBad (rs : List (Nat × Nat)) : ((Upd.hbmDrop rs).apply s).mramBad = s.mramBad := rfl
@[simp] theorem hbmDrop_upd_clk (rs : List (Nat × Nat)) : ((Upd.hbmDrop rs).apply s).clk = s.clk := rfl
@[simp] theorem hbmDrop_upd_ump (rs : List (Nat × Nat)) : ((Upd.hbmDrop rs).apply s).ump = s.ump := rfl
@[simp] theorem hbmDrop_upd_thm (rs : List (Nat × Nat)) : ((Upd.hbmDrop rs).apply s).thm = s.thm := rfl
@[simp] theorem hbmDrop_upd_nvm (rs : List (Nat × Nat)) : ((Upd.hbmDrop rs).apply s).nvm = s.nvm := rfl
@[simp] theorem hbmDrop_upd_host (rs : List (Nat × Nat)) : ((Upd.hbmDrop rs).apply s).host = s.host := rfl
@[simp] theorem hbmDrop_upd_lane (rs : List (Nat × Nat)) : ((Upd.hbmDrop rs).apply s).lane = s.lane := rfl
@[simp] theorem hbmDrop_upd_eng (rs : List (Nat × Nat)) : ((Upd.hbmDrop rs).apply s).eng = s.eng := rfl
@[simp] theorem hbmDrop_upd_fab (rs : List (Nat × Nat)) : ((Upd.hbmDrop rs).apply s).fab = s.fab := rfl
@[simp] theorem hbmDrop_upd_pipe (rs : List (Nat × Nat)) : ((Upd.hbmDrop rs).apply s).pipe = s.pipe := rfl
@[simp] theorem hbmDrop_upd_sup (rs : List (Nat × Nat)) : ((Upd.hbmDrop rs).apply s).sup = s.sup := rfl
@[simp] theorem hbmDrop_upd_klk (rs : List (Nat × Nat)) : ((Upd.hbmDrop rs).apply s).klk = s.klk := rfl
@[simp] theorem hbmDrop_upd_hdl (rs : List (Nat × Nat)) : ((Upd.hbmDrop rs).apply s).hdl = s.hdl := rfl
@[simp] theorem hbmDrop_upd_tim (rs : List (Nat × Nat)) : ((Upd.hbmDrop rs).apply s).tim = s.tim := rfl
@[simp] theorem hbmDrop_upd_net (rs : List (Nat × Nat)) : ((Upd.hbmDrop rs).apply s).net = s.net := rfl
@[simp] theorem hbmDrop_upd_sec (rs : List (Nat × Nat)) : ((Upd.hbmDrop rs).apply s).sec = s.sec := rfl
@[simp] theorem hbmDrop_upd_rep (rs : List (Nat × Nat)) : ((Upd.hbmDrop rs).apply s).rep = s.rep := rfl
@[simp] theorem hbmDrop_upd_dbg (rs : List (Nat × Nat)) : ((Upd.hbmDrop rs).apply s).dbg = s.dbg := rfl
@[simp] theorem hbmDrop_upd_free (rs : List (Nat × Nat)) : ((Upd.hbmDrop rs).apply s).free = s.free := rfl
@[simp] theorem hbmDrop_upd_outs (rs : List (Nat × Nat)) : ((Upd.hbmDrop rs).apply s).outs = s.outs := rfl

/-! ## `Upd.hbmBad` -/

@[simp] theorem hbmBad_upd_pending (l : List Nat) : ((Upd.hbmBad l).apply s).pending = s.pending := rfl
@[simp] theorem hbmBad_upd_regs (l : List Nat) : ((Upd.hbmBad l).apply s).regs = s.regs := rfl
@[simp] theorem hbmBad_upd_mem (l : List Nat) : ((Upd.hbmBad l).apply s).mem = s.mem := rfl
@[simp] theorem hbmBad_upd_memBad (l : List Nat) : ((Upd.hbmBad l).apply s).memBad = s.memBad := rfl
@[simp] theorem hbmBad_upd_hbm (l : List Nat) : ((Upd.hbmBad l).apply s).hbm = s.hbm := rfl
@[simp] theorem hbmBad_upd_hbmBad (l : List Nat) : ((Upd.hbmBad l).apply s).hbmBad = l := rfl
@[simp] theorem hbmBad_upd_mram (l : List Nat) : ((Upd.hbmBad l).apply s).mram = s.mram := rfl
@[simp] theorem hbmBad_upd_mramBad (l : List Nat) : ((Upd.hbmBad l).apply s).mramBad = s.mramBad := rfl
@[simp] theorem hbmBad_upd_clk (l : List Nat) : ((Upd.hbmBad l).apply s).clk = s.clk := rfl
@[simp] theorem hbmBad_upd_ump (l : List Nat) : ((Upd.hbmBad l).apply s).ump = s.ump := rfl
@[simp] theorem hbmBad_upd_thm (l : List Nat) : ((Upd.hbmBad l).apply s).thm = s.thm := rfl
@[simp] theorem hbmBad_upd_nvm (l : List Nat) : ((Upd.hbmBad l).apply s).nvm = s.nvm := rfl
@[simp] theorem hbmBad_upd_host (l : List Nat) : ((Upd.hbmBad l).apply s).host = s.host := rfl
@[simp] theorem hbmBad_upd_lane (l : List Nat) : ((Upd.hbmBad l).apply s).lane = s.lane := rfl
@[simp] theorem hbmBad_upd_eng (l : List Nat) : ((Upd.hbmBad l).apply s).eng = s.eng := rfl
@[simp] theorem hbmBad_upd_fab (l : List Nat) : ((Upd.hbmBad l).apply s).fab = s.fab := rfl
@[simp] theorem hbmBad_upd_pipe (l : List Nat) : ((Upd.hbmBad l).apply s).pipe = s.pipe := rfl
@[simp] theorem hbmBad_upd_sup (l : List Nat) : ((Upd.hbmBad l).apply s).sup = s.sup := rfl
@[simp] theorem hbmBad_upd_klk (l : List Nat) : ((Upd.hbmBad l).apply s).klk = s.klk := rfl
@[simp] theorem hbmBad_upd_hdl (l : List Nat) : ((Upd.hbmBad l).apply s).hdl = s.hdl := rfl
@[simp] theorem hbmBad_upd_tim (l : List Nat) : ((Upd.hbmBad l).apply s).tim = s.tim := rfl
@[simp] theorem hbmBad_upd_net (l : List Nat) : ((Upd.hbmBad l).apply s).net = s.net := rfl
@[simp] theorem hbmBad_upd_sec (l : List Nat) : ((Upd.hbmBad l).apply s).sec = s.sec := rfl
@[simp] theorem hbmBad_upd_rep (l : List Nat) : ((Upd.hbmBad l).apply s).rep = s.rep := rfl
@[simp] theorem hbmBad_upd_dbg (l : List Nat) : ((Upd.hbmBad l).apply s).dbg = s.dbg := rfl
@[simp] theorem hbmBad_upd_free (l : List Nat) : ((Upd.hbmBad l).apply s).free = s.free := rfl
@[simp] theorem hbmBad_upd_outs (l : List Nat) : ((Upd.hbmBad l).apply s).outs = s.outs := rfl

/-! ## `Upd.mram` -/

@[simp] theorem mram_upd_pending (a : Nat) (bs : List Byte) : ((Upd.mram a bs).apply s).pending = s.pending := rfl
@[simp] theorem mram_upd_regs (a : Nat) (bs : List Byte) : ((Upd.mram a bs).apply s).regs = s.regs := rfl
@[simp] theorem mram_upd_mem (a : Nat) (bs : List Byte) : ((Upd.mram a bs).apply s).mem = s.mem := rfl
@[simp] theorem mram_upd_memBad (a : Nat) (bs : List Byte) : ((Upd.mram a bs).apply s).memBad = s.memBad := rfl
@[simp] theorem mram_upd_hbm (a : Nat) (bs : List Byte) : ((Upd.mram a bs).apply s).hbm = s.hbm := rfl
@[simp] theorem mram_upd_hbmBad (a : Nat) (bs : List Byte) : ((Upd.mram a bs).apply s).hbmBad = s.hbmBad := rfl
@[simp] theorem mram_upd_mram (a : Nat) (bs : List Byte) : ((Upd.mram a bs).apply s).mram = writeBytes mramBlank s.mram a bs := rfl
@[simp] theorem mram_upd_mramBad (a : Nat) (bs : List Byte) : ((Upd.mram a bs).apply s).mramBad = s.mramBad := rfl
@[simp] theorem mram_upd_clk (a : Nat) (bs : List Byte) : ((Upd.mram a bs).apply s).clk = s.clk := rfl
@[simp] theorem mram_upd_ump (a : Nat) (bs : List Byte) : ((Upd.mram a bs).apply s).ump = s.ump := rfl
@[simp] theorem mram_upd_thm (a : Nat) (bs : List Byte) : ((Upd.mram a bs).apply s).thm = s.thm := rfl
@[simp] theorem mram_upd_nvm (a : Nat) (bs : List Byte) : ((Upd.mram a bs).apply s).nvm = s.nvm := rfl
@[simp] theorem mram_upd_host (a : Nat) (bs : List Byte) : ((Upd.mram a bs).apply s).host = s.host := rfl
@[simp] theorem mram_upd_lane (a : Nat) (bs : List Byte) : ((Upd.mram a bs).apply s).lane = s.lane := rfl
@[simp] theorem mram_upd_eng (a : Nat) (bs : List Byte) : ((Upd.mram a bs).apply s).eng = s.eng := rfl
@[simp] theorem mram_upd_fab (a : Nat) (bs : List Byte) : ((Upd.mram a bs).apply s).fab = s.fab := rfl
@[simp] theorem mram_upd_pipe (a : Nat) (bs : List Byte) : ((Upd.mram a bs).apply s).pipe = s.pipe := rfl
@[simp] theorem mram_upd_sup (a : Nat) (bs : List Byte) : ((Upd.mram a bs).apply s).sup = s.sup := rfl
@[simp] theorem mram_upd_klk (a : Nat) (bs : List Byte) : ((Upd.mram a bs).apply s).klk = s.klk := rfl
@[simp] theorem mram_upd_hdl (a : Nat) (bs : List Byte) : ((Upd.mram a bs).apply s).hdl = s.hdl := rfl
@[simp] theorem mram_upd_tim (a : Nat) (bs : List Byte) : ((Upd.mram a bs).apply s).tim = s.tim := rfl
@[simp] theorem mram_upd_net (a : Nat) (bs : List Byte) : ((Upd.mram a bs).apply s).net = s.net := rfl
@[simp] theorem mram_upd_sec (a : Nat) (bs : List Byte) : ((Upd.mram a bs).apply s).sec = s.sec := rfl
@[simp] theorem mram_upd_rep (a : Nat) (bs : List Byte) : ((Upd.mram a bs).apply s).rep = s.rep := rfl
@[simp] theorem mram_upd_dbg (a : Nat) (bs : List Byte) : ((Upd.mram a bs).apply s).dbg = s.dbg := rfl
@[simp] theorem mram_upd_free (a : Nat) (bs : List Byte) : ((Upd.mram a bs).apply s).free = s.free := rfl
@[simp] theorem mram_upd_outs (a : Nat) (bs : List Byte) : ((Upd.mram a bs).apply s).outs = s.outs := rfl

/-! ## `Upd.mramBad` -/

@[simp] theorem mramBad_upd_pending (l : List Nat) : ((Upd.mramBad l).apply s).pending = s.pending := rfl
@[simp] theorem mramBad_upd_regs (l : List Nat) : ((Upd.mramBad l).apply s).regs = s.regs := rfl
@[simp] theorem mramBad_upd_mem (l : List Nat) : ((Upd.mramBad l).apply s).mem = s.mem := rfl
@[simp] theorem mramBad_upd_memBad (l : List Nat) : ((Upd.mramBad l).apply s).memBad = s.memBad := rfl
@[simp] theorem mramBad_upd_hbm (l : List Nat) : ((Upd.mramBad l).apply s).hbm = s.hbm := rfl
@[simp] theorem mramBad_upd_hbmBad (l : List Nat) : ((Upd.mramBad l).apply s).hbmBad = s.hbmBad := rfl
@[simp] theorem mramBad_upd_mram (l : List Nat) : ((Upd.mramBad l).apply s).mram = s.mram := rfl
@[simp] theorem mramBad_upd_mramBad (l : List Nat) : ((Upd.mramBad l).apply s).mramBad = l := rfl
@[simp] theorem mramBad_upd_clk (l : List Nat) : ((Upd.mramBad l).apply s).clk = s.clk := rfl
@[simp] theorem mramBad_upd_ump (l : List Nat) : ((Upd.mramBad l).apply s).ump = s.ump := rfl
@[simp] theorem mramBad_upd_thm (l : List Nat) : ((Upd.mramBad l).apply s).thm = s.thm := rfl
@[simp] theorem mramBad_upd_nvm (l : List Nat) : ((Upd.mramBad l).apply s).nvm = s.nvm := rfl
@[simp] theorem mramBad_upd_host (l : List Nat) : ((Upd.mramBad l).apply s).host = s.host := rfl
@[simp] theorem mramBad_upd_lane (l : List Nat) : ((Upd.mramBad l).apply s).lane = s.lane := rfl
@[simp] theorem mramBad_upd_eng (l : List Nat) : ((Upd.mramBad l).apply s).eng = s.eng := rfl
@[simp] theorem mramBad_upd_fab (l : List Nat) : ((Upd.mramBad l).apply s).fab = s.fab := rfl
@[simp] theorem mramBad_upd_pipe (l : List Nat) : ((Upd.mramBad l).apply s).pipe = s.pipe := rfl
@[simp] theorem mramBad_upd_sup (l : List Nat) : ((Upd.mramBad l).apply s).sup = s.sup := rfl
@[simp] theorem mramBad_upd_klk (l : List Nat) : ((Upd.mramBad l).apply s).klk = s.klk := rfl
@[simp] theorem mramBad_upd_hdl (l : List Nat) : ((Upd.mramBad l).apply s).hdl = s.hdl := rfl
@[simp] theorem mramBad_upd_tim (l : List Nat) : ((Upd.mramBad l).apply s).tim = s.tim := rfl
@[simp] theorem mramBad_upd_net (l : List Nat) : ((Upd.mramBad l).apply s).net = s.net := rfl
@[simp] theorem mramBad_upd_sec (l : List Nat) : ((Upd.mramBad l).apply s).sec = s.sec := rfl
@[simp] theorem mramBad_upd_rep (l : List Nat) : ((Upd.mramBad l).apply s).rep = s.rep := rfl
@[simp] theorem mramBad_upd_dbg (l : List Nat) : ((Upd.mramBad l).apply s).dbg = s.dbg := rfl
@[simp] theorem mramBad_upd_free (l : List Nat) : ((Upd.mramBad l).apply s).free = s.free := rfl
@[simp] theorem mramBad_upd_outs (l : List Nat) : ((Upd.mramBad l).apply s).outs = s.outs := rfl

/-! ## `Upd.free` -/

@[simp] theorem free_upd_pending : ((Upd.free).apply s).pending = s.pending := rfl
@[simp] theorem free_upd_regs : ((Upd.free).apply s).regs = s.regs := rfl
@[simp] theorem free_upd_mem : ((Upd.free).apply s).mem = s.mem := rfl
@[simp] theorem free_upd_memBad : ((Upd.free).apply s).memBad = s.memBad := rfl
@[simp] theorem free_upd_hbm : ((Upd.free).apply s).hbm = s.hbm := rfl
@[simp] theorem free_upd_hbmBad : ((Upd.free).apply s).hbmBad = s.hbmBad := rfl
@[simp] theorem free_upd_mram : ((Upd.free).apply s).mram = s.mram := rfl
@[simp] theorem free_upd_mramBad : ((Upd.free).apply s).mramBad = s.mramBad := rfl
@[simp] theorem free_upd_clk : ((Upd.free).apply s).clk = s.clk := rfl
@[simp] theorem free_upd_ump : ((Upd.free).apply s).ump = s.ump := rfl
@[simp] theorem free_upd_thm : ((Upd.free).apply s).thm = s.thm := rfl
@[simp] theorem free_upd_nvm : ((Upd.free).apply s).nvm = s.nvm := rfl
@[simp] theorem free_upd_host : ((Upd.free).apply s).host = s.host := rfl
@[simp] theorem free_upd_lane : ((Upd.free).apply s).lane = s.lane := rfl
@[simp] theorem free_upd_eng : ((Upd.free).apply s).eng = s.eng := rfl
@[simp] theorem free_upd_fab : ((Upd.free).apply s).fab = s.fab := rfl
@[simp] theorem free_upd_pipe : ((Upd.free).apply s).pipe = s.pipe := rfl
@[simp] theorem free_upd_sup : ((Upd.free).apply s).sup = s.sup := rfl
@[simp] theorem free_upd_klk : ((Upd.free).apply s).klk = s.klk := rfl
@[simp] theorem free_upd_hdl : ((Upd.free).apply s).hdl = s.hdl := rfl
@[simp] theorem free_upd_tim : ((Upd.free).apply s).tim = s.tim := rfl
@[simp] theorem free_upd_net : ((Upd.free).apply s).net = s.net := rfl
@[simp] theorem free_upd_sec : ((Upd.free).apply s).sec = s.sec := rfl
@[simp] theorem free_upd_rep : ((Upd.free).apply s).rep = s.rep := rfl
@[simp] theorem free_upd_dbg : ((Upd.free).apply s).dbg = s.dbg := rfl
@[simp] theorem free_upd_free : ((Upd.free).apply s).free = s.free + 1 := rfl
@[simp] theorem free_upd_outs : ((Upd.free).apply s).outs = s.outs := rfl

/-! ## `Upd.out` -/

@[simp] theorem out_upd_pending (o : Out) : ((Upd.out o).apply s).pending = s.pending := rfl
@[simp] theorem out_upd_regs (o : Out) : ((Upd.out o).apply s).regs = s.regs := rfl
@[simp] theorem out_upd_mem (o : Out) : ((Upd.out o).apply s).mem = s.mem := rfl
@[simp] theorem out_upd_memBad (o : Out) : ((Upd.out o).apply s).memBad = s.memBad := rfl
@[simp] theorem out_upd_hbm (o : Out) : ((Upd.out o).apply s).hbm = s.hbm := rfl
@[simp] theorem out_upd_hbmBad (o : Out) : ((Upd.out o).apply s).hbmBad = s.hbmBad := rfl
@[simp] theorem out_upd_mram (o : Out) : ((Upd.out o).apply s).mram = s.mram := rfl
@[simp] theorem out_upd_mramBad (o : Out) : ((Upd.out o).apply s).mramBad = s.mramBad := rfl
@[simp] theorem out_upd_clk (o : Out) : ((Upd.out o).apply s).clk = s.clk := rfl
@[simp] theorem out_upd_ump (o : Out) : ((Upd.out o).apply s).ump = s.ump := rfl
@[simp] theorem out_upd_thm (o : Out) : ((Upd.out o).apply s).thm = s.thm := rfl
@[simp] theorem out_upd_nvm (o : Out) : ((Upd.out o).apply s).nvm = s.nvm := rfl
@[simp] theorem out_upd_host (o : Out) : ((Upd.out o).apply s).host = s.host := rfl
@[simp] theorem out_upd_lane (o : Out) : ((Upd.out o).apply s).lane = s.lane := rfl
@[simp] theorem out_upd_eng (o : Out) : ((Upd.out o).apply s).eng = s.eng := rfl
@[simp] theorem out_upd_fab (o : Out) : ((Upd.out o).apply s).fab = s.fab := rfl
@[simp] theorem out_upd_pipe (o : Out) : ((Upd.out o).apply s).pipe = s.pipe := rfl
@[simp] theorem out_upd_sup (o : Out) : ((Upd.out o).apply s).sup = s.sup := rfl
@[simp] theorem out_upd_klk (o : Out) : ((Upd.out o).apply s).klk = s.klk := rfl
@[simp] theorem out_upd_hdl (o : Out) : ((Upd.out o).apply s).hdl = s.hdl := rfl
@[simp] theorem out_upd_tim (o : Out) : ((Upd.out o).apply s).tim = s.tim := rfl
@[simp] theorem out_upd_net (o : Out) : ((Upd.out o).apply s).net = s.net := rfl
@[simp] theorem out_upd_sec (o : Out) : ((Upd.out o).apply s).sec = s.sec := rfl
@[simp] theorem out_upd_rep (o : Out) : ((Upd.out o).apply s).rep = s.rep := rfl
@[simp] theorem out_upd_dbg (o : Out) : ((Upd.out o).apply s).dbg = s.dbg := rfl
@[simp] theorem out_upd_free (o : Out) : ((Upd.out o).apply s).free = s.free := rfl
@[simp] theorem out_upd_outs (o : Out) : ((Upd.out o).apply s).outs = s.outs ++ [o] := rfl

/-! ## `Upd.clk` -/

@[simp] theorem clk_upd_pending (x : ClkSt) : ((Upd.clk x).apply s).pending = s.pending := rfl
@[simp] theorem clk_upd_regs (x : ClkSt) : ((Upd.clk x).apply s).regs = s.regs := rfl
@[simp] theorem clk_upd_mem (x : ClkSt) : ((Upd.clk x).apply s).mem = s.mem := rfl
@[simp] theorem clk_upd_memBad (x : ClkSt) : ((Upd.clk x).apply s).memBad = s.memBad := rfl
@[simp] theorem clk_upd_hbm (x : ClkSt) : ((Upd.clk x).apply s).hbm = s.hbm := rfl
@[simp] theorem clk_upd_hbmBad (x : ClkSt) : ((Upd.clk x).apply s).hbmBad = s.hbmBad := rfl
@[simp] theorem clk_upd_mram (x : ClkSt) : ((Upd.clk x).apply s).mram = s.mram := rfl
@[simp] theorem clk_upd_mramBad (x : ClkSt) : ((Upd.clk x).apply s).mramBad = s.mramBad := rfl
@[simp] theorem clk_upd_clk (x : ClkSt) : ((Upd.clk x).apply s).clk = x := rfl
@[simp] theorem clk_upd_ump (x : ClkSt) : ((Upd.clk x).apply s).ump = s.ump := rfl
@[simp] theorem clk_upd_thm (x : ClkSt) : ((Upd.clk x).apply s).thm = s.thm := rfl
@[simp] theorem clk_upd_nvm (x : ClkSt) : ((Upd.clk x).apply s).nvm = s.nvm := rfl
@[simp] theorem clk_upd_host (x : ClkSt) : ((Upd.clk x).apply s).host = s.host := rfl
@[simp] theorem clk_upd_lane (x : ClkSt) : ((Upd.clk x).apply s).lane = s.lane := rfl
@[simp] theorem clk_upd_eng (x : ClkSt) : ((Upd.clk x).apply s).eng = s.eng := rfl
@[simp] theorem clk_upd_fab (x : ClkSt) : ((Upd.clk x).apply s).fab = s.fab := rfl
@[simp] theorem clk_upd_pipe (x : ClkSt) : ((Upd.clk x).apply s).pipe = s.pipe := rfl
@[simp] theorem clk_upd_sup (x : ClkSt) : ((Upd.clk x).apply s).sup = s.sup := rfl
@[simp] theorem clk_upd_klk (x : ClkSt) : ((Upd.clk x).apply s).klk = s.klk := rfl
@[simp] theorem clk_upd_hdl (x : ClkSt) : ((Upd.clk x).apply s).hdl = s.hdl := rfl
@[simp] theorem clk_upd_tim (x : ClkSt) : ((Upd.clk x).apply s).tim = s.tim := rfl
@[simp] theorem clk_upd_net (x : ClkSt) : ((Upd.clk x).apply s).net = s.net := rfl
@[simp] theorem clk_upd_sec (x : ClkSt) : ((Upd.clk x).apply s).sec = s.sec := rfl
@[simp] theorem clk_upd_rep (x : ClkSt) : ((Upd.clk x).apply s).rep = s.rep := rfl
@[simp] theorem clk_upd_dbg (x : ClkSt) : ((Upd.clk x).apply s).dbg = s.dbg := rfl
@[simp] theorem clk_upd_free (x : ClkSt) : ((Upd.clk x).apply s).free = s.free := rfl
@[simp] theorem clk_upd_outs (x : ClkSt) : ((Upd.clk x).apply s).outs = s.outs := rfl

/-! ## `Upd.ump` -/

@[simp] theorem ump_upd_pending (x : UmpSt) : ((Upd.ump x).apply s).pending = s.pending := rfl
@[simp] theorem ump_upd_regs (x : UmpSt) : ((Upd.ump x).apply s).regs = s.regs := rfl
@[simp] theorem ump_upd_mem (x : UmpSt) : ((Upd.ump x).apply s).mem = s.mem := rfl
@[simp] theorem ump_upd_memBad (x : UmpSt) : ((Upd.ump x).apply s).memBad = s.memBad := rfl
@[simp] theorem ump_upd_hbm (x : UmpSt) : ((Upd.ump x).apply s).hbm = s.hbm := rfl
@[simp] theorem ump_upd_hbmBad (x : UmpSt) : ((Upd.ump x).apply s).hbmBad = s.hbmBad := rfl
@[simp] theorem ump_upd_mram (x : UmpSt) : ((Upd.ump x).apply s).mram = s.mram := rfl
@[simp] theorem ump_upd_mramBad (x : UmpSt) : ((Upd.ump x).apply s).mramBad = s.mramBad := rfl
@[simp] theorem ump_upd_clk (x : UmpSt) : ((Upd.ump x).apply s).clk = s.clk := rfl
@[simp] theorem ump_upd_ump (x : UmpSt) : ((Upd.ump x).apply s).ump = x := rfl
@[simp] theorem ump_upd_thm (x : UmpSt) : ((Upd.ump x).apply s).thm = s.thm := rfl
@[simp] theorem ump_upd_nvm (x : UmpSt) : ((Upd.ump x).apply s).nvm = s.nvm := rfl
@[simp] theorem ump_upd_host (x : UmpSt) : ((Upd.ump x).apply s).host = s.host := rfl
@[simp] theorem ump_upd_lane (x : UmpSt) : ((Upd.ump x).apply s).lane = s.lane := rfl
@[simp] theorem ump_upd_eng (x : UmpSt) : ((Upd.ump x).apply s).eng = s.eng := rfl
@[simp] theorem ump_upd_fab (x : UmpSt) : ((Upd.ump x).apply s).fab = s.fab := rfl
@[simp] theorem ump_upd_pipe (x : UmpSt) : ((Upd.ump x).apply s).pipe = s.pipe := rfl
@[simp] theorem ump_upd_sup (x : UmpSt) : ((Upd.ump x).apply s).sup = s.sup := rfl
@[simp] theorem ump_upd_klk (x : UmpSt) : ((Upd.ump x).apply s).klk = s.klk := rfl
@[simp] theorem ump_upd_hdl (x : UmpSt) : ((Upd.ump x).apply s).hdl = s.hdl := rfl
@[simp] theorem ump_upd_tim (x : UmpSt) : ((Upd.ump x).apply s).tim = s.tim := rfl
@[simp] theorem ump_upd_net (x : UmpSt) : ((Upd.ump x).apply s).net = s.net := rfl
@[simp] theorem ump_upd_sec (x : UmpSt) : ((Upd.ump x).apply s).sec = s.sec := rfl
@[simp] theorem ump_upd_rep (x : UmpSt) : ((Upd.ump x).apply s).rep = s.rep := rfl
@[simp] theorem ump_upd_dbg (x : UmpSt) : ((Upd.ump x).apply s).dbg = s.dbg := rfl
@[simp] theorem ump_upd_free (x : UmpSt) : ((Upd.ump x).apply s).free = s.free := rfl
@[simp] theorem ump_upd_outs (x : UmpSt) : ((Upd.ump x).apply s).outs = s.outs := rfl

/-! ## `Upd.thm` -/

@[simp] theorem thm_upd_pending (x : ThmSt) : ((Upd.thm x).apply s).pending = s.pending := rfl
@[simp] theorem thm_upd_regs (x : ThmSt) : ((Upd.thm x).apply s).regs = s.regs := rfl
@[simp] theorem thm_upd_mem (x : ThmSt) : ((Upd.thm x).apply s).mem = s.mem := rfl
@[simp] theorem thm_upd_memBad (x : ThmSt) : ((Upd.thm x).apply s).memBad = s.memBad := rfl
@[simp] theorem thm_upd_hbm (x : ThmSt) : ((Upd.thm x).apply s).hbm = s.hbm := rfl
@[simp] theorem thm_upd_hbmBad (x : ThmSt) : ((Upd.thm x).apply s).hbmBad = s.hbmBad := rfl
@[simp] theorem thm_upd_mram (x : ThmSt) : ((Upd.thm x).apply s).mram = s.mram := rfl
@[simp] theorem thm_upd_mramBad (x : ThmSt) : ((Upd.thm x).apply s).mramBad = s.mramBad := rfl
@[simp] theorem thm_upd_clk (x : ThmSt) : ((Upd.thm x).apply s).clk = s.clk := rfl
@[simp] theorem thm_upd_ump (x : ThmSt) : ((Upd.thm x).apply s).ump = s.ump := rfl
@[simp] theorem thm_upd_thm (x : ThmSt) : ((Upd.thm x).apply s).thm = x := rfl
@[simp] theorem thm_upd_nvm (x : ThmSt) : ((Upd.thm x).apply s).nvm = s.nvm := rfl
@[simp] theorem thm_upd_host (x : ThmSt) : ((Upd.thm x).apply s).host = s.host := rfl
@[simp] theorem thm_upd_lane (x : ThmSt) : ((Upd.thm x).apply s).lane = s.lane := rfl
@[simp] theorem thm_upd_eng (x : ThmSt) : ((Upd.thm x).apply s).eng = s.eng := rfl
@[simp] theorem thm_upd_fab (x : ThmSt) : ((Upd.thm x).apply s).fab = s.fab := rfl
@[simp] theorem thm_upd_pipe (x : ThmSt) : ((Upd.thm x).apply s).pipe = s.pipe := rfl
@[simp] theorem thm_upd_sup (x : ThmSt) : ((Upd.thm x).apply s).sup = s.sup := rfl
@[simp] theorem thm_upd_klk (x : ThmSt) : ((Upd.thm x).apply s).klk = s.klk := rfl
@[simp] theorem thm_upd_hdl (x : ThmSt) : ((Upd.thm x).apply s).hdl = s.hdl := rfl
@[simp] theorem thm_upd_tim (x : ThmSt) : ((Upd.thm x).apply s).tim = s.tim := rfl
@[simp] theorem thm_upd_net (x : ThmSt) : ((Upd.thm x).apply s).net = s.net := rfl
@[simp] theorem thm_upd_sec (x : ThmSt) : ((Upd.thm x).apply s).sec = s.sec := rfl
@[simp] theorem thm_upd_rep (x : ThmSt) : ((Upd.thm x).apply s).rep = s.rep := rfl
@[simp] theorem thm_upd_dbg (x : ThmSt) : ((Upd.thm x).apply s).dbg = s.dbg := rfl
@[simp] theorem thm_upd_free (x : ThmSt) : ((Upd.thm x).apply s).free = s.free := rfl
@[simp] theorem thm_upd_outs (x : ThmSt) : ((Upd.thm x).apply s).outs = s.outs := rfl

/-! ## `Upd.nvm` -/

@[simp] theorem nvm_upd_pending (x : NvmSt) : ((Upd.nvm x).apply s).pending = s.pending := rfl
@[simp] theorem nvm_upd_regs (x : NvmSt) : ((Upd.nvm x).apply s).regs = s.regs := rfl
@[simp] theorem nvm_upd_mem (x : NvmSt) : ((Upd.nvm x).apply s).mem = s.mem := rfl
@[simp] theorem nvm_upd_memBad (x : NvmSt) : ((Upd.nvm x).apply s).memBad = s.memBad := rfl
@[simp] theorem nvm_upd_hbm (x : NvmSt) : ((Upd.nvm x).apply s).hbm = s.hbm := rfl
@[simp] theorem nvm_upd_hbmBad (x : NvmSt) : ((Upd.nvm x).apply s).hbmBad = s.hbmBad := rfl
@[simp] theorem nvm_upd_mram (x : NvmSt) : ((Upd.nvm x).apply s).mram = s.mram := rfl
@[simp] theorem nvm_upd_mramBad (x : NvmSt) : ((Upd.nvm x).apply s).mramBad = s.mramBad := rfl
@[simp] theorem nvm_upd_clk (x : NvmSt) : ((Upd.nvm x).apply s).clk = s.clk := rfl
@[simp] theorem nvm_upd_ump (x : NvmSt) : ((Upd.nvm x).apply s).ump = s.ump := rfl
@[simp] theorem nvm_upd_thm (x : NvmSt) : ((Upd.nvm x).apply s).thm = s.thm := rfl
@[simp] theorem nvm_upd_nvm (x : NvmSt) : ((Upd.nvm x).apply s).nvm = x := rfl
@[simp] theorem nvm_upd_host (x : NvmSt) : ((Upd.nvm x).apply s).host = s.host := rfl
@[simp] theorem nvm_upd_lane (x : NvmSt) : ((Upd.nvm x).apply s).lane = s.lane := rfl
@[simp] theorem nvm_upd_eng (x : NvmSt) : ((Upd.nvm x).apply s).eng = s.eng := rfl
@[simp] theorem nvm_upd_fab (x : NvmSt) : ((Upd.nvm x).apply s).fab = s.fab := rfl
@[simp] theorem nvm_upd_pipe (x : NvmSt) : ((Upd.nvm x).apply s).pipe = s.pipe := rfl
@[simp] theorem nvm_upd_sup (x : NvmSt) : ((Upd.nvm x).apply s).sup = s.sup := rfl
@[simp] theorem nvm_upd_klk (x : NvmSt) : ((Upd.nvm x).apply s).klk = s.klk := rfl
@[simp] theorem nvm_upd_hdl (x : NvmSt) : ((Upd.nvm x).apply s).hdl = s.hdl := rfl
@[simp] theorem nvm_upd_tim (x : NvmSt) : ((Upd.nvm x).apply s).tim = s.tim := rfl
@[simp] theorem nvm_upd_net (x : NvmSt) : ((Upd.nvm x).apply s).net = s.net := rfl
@[simp] theorem nvm_upd_sec (x : NvmSt) : ((Upd.nvm x).apply s).sec = s.sec := rfl
@[simp] theorem nvm_upd_rep (x : NvmSt) : ((Upd.nvm x).apply s).rep = s.rep := rfl
@[simp] theorem nvm_upd_dbg (x : NvmSt) : ((Upd.nvm x).apply s).dbg = s.dbg := rfl
@[simp] theorem nvm_upd_free (x : NvmSt) : ((Upd.nvm x).apply s).free = s.free := rfl
@[simp] theorem nvm_upd_outs (x : NvmSt) : ((Upd.nvm x).apply s).outs = s.outs := rfl

/-! ## `Upd.host` -/

@[simp] theorem host_upd_pending (x : HostSt) : ((Upd.host x).apply s).pending = s.pending := rfl
@[simp] theorem host_upd_regs (x : HostSt) : ((Upd.host x).apply s).regs = s.regs := rfl
@[simp] theorem host_upd_mem (x : HostSt) : ((Upd.host x).apply s).mem = s.mem := rfl
@[simp] theorem host_upd_memBad (x : HostSt) : ((Upd.host x).apply s).memBad = s.memBad := rfl
@[simp] theorem host_upd_hbm (x : HostSt) : ((Upd.host x).apply s).hbm = s.hbm := rfl
@[simp] theorem host_upd_hbmBad (x : HostSt) : ((Upd.host x).apply s).hbmBad = s.hbmBad := rfl
@[simp] theorem host_upd_mram (x : HostSt) : ((Upd.host x).apply s).mram = s.mram := rfl
@[simp] theorem host_upd_mramBad (x : HostSt) : ((Upd.host x).apply s).mramBad = s.mramBad := rfl
@[simp] theorem host_upd_clk (x : HostSt) : ((Upd.host x).apply s).clk = s.clk := rfl
@[simp] theorem host_upd_ump (x : HostSt) : ((Upd.host x).apply s).ump = s.ump := rfl
@[simp] theorem host_upd_thm (x : HostSt) : ((Upd.host x).apply s).thm = s.thm := rfl
@[simp] theorem host_upd_nvm (x : HostSt) : ((Upd.host x).apply s).nvm = s.nvm := rfl
@[simp] theorem host_upd_host (x : HostSt) : ((Upd.host x).apply s).host = x := rfl
@[simp] theorem host_upd_lane (x : HostSt) : ((Upd.host x).apply s).lane = s.lane := rfl
@[simp] theorem host_upd_eng (x : HostSt) : ((Upd.host x).apply s).eng = s.eng := rfl
@[simp] theorem host_upd_fab (x : HostSt) : ((Upd.host x).apply s).fab = s.fab := rfl
@[simp] theorem host_upd_pipe (x : HostSt) : ((Upd.host x).apply s).pipe = s.pipe := rfl
@[simp] theorem host_upd_sup (x : HostSt) : ((Upd.host x).apply s).sup = s.sup := rfl
@[simp] theorem host_upd_klk (x : HostSt) : ((Upd.host x).apply s).klk = s.klk := rfl
@[simp] theorem host_upd_hdl (x : HostSt) : ((Upd.host x).apply s).hdl = s.hdl := rfl
@[simp] theorem host_upd_tim (x : HostSt) : ((Upd.host x).apply s).tim = s.tim := rfl
@[simp] theorem host_upd_net (x : HostSt) : ((Upd.host x).apply s).net = s.net := rfl
@[simp] theorem host_upd_sec (x : HostSt) : ((Upd.host x).apply s).sec = s.sec := rfl
@[simp] theorem host_upd_rep (x : HostSt) : ((Upd.host x).apply s).rep = s.rep := rfl
@[simp] theorem host_upd_dbg (x : HostSt) : ((Upd.host x).apply s).dbg = s.dbg := rfl
@[simp] theorem host_upd_free (x : HostSt) : ((Upd.host x).apply s).free = s.free := rfl
@[simp] theorem host_upd_outs (x : HostSt) : ((Upd.host x).apply s).outs = s.outs := rfl

/-! ## `Upd.lane` -/

@[simp] theorem lane_upd_pending (x : LaneSt) : ((Upd.lane x).apply s).pending = s.pending := rfl
@[simp] theorem lane_upd_regs (x : LaneSt) : ((Upd.lane x).apply s).regs = s.regs := rfl
@[simp] theorem lane_upd_mem (x : LaneSt) : ((Upd.lane x).apply s).mem = s.mem := rfl
@[simp] theorem lane_upd_memBad (x : LaneSt) : ((Upd.lane x).apply s).memBad = s.memBad := rfl
@[simp] theorem lane_upd_hbm (x : LaneSt) : ((Upd.lane x).apply s).hbm = s.hbm := rfl
@[simp] theorem lane_upd_hbmBad (x : LaneSt) : ((Upd.lane x).apply s).hbmBad = s.hbmBad := rfl
@[simp] theorem lane_upd_mram (x : LaneSt) : ((Upd.lane x).apply s).mram = s.mram := rfl
@[simp] theorem lane_upd_mramBad (x : LaneSt) : ((Upd.lane x).apply s).mramBad = s.mramBad := rfl
@[simp] theorem lane_upd_clk (x : LaneSt) : ((Upd.lane x).apply s).clk = s.clk := rfl
@[simp] theorem lane_upd_ump (x : LaneSt) : ((Upd.lane x).apply s).ump = s.ump := rfl
@[simp] theorem lane_upd_thm (x : LaneSt) : ((Upd.lane x).apply s).thm = s.thm := rfl
@[simp] theorem lane_upd_nvm (x : LaneSt) : ((Upd.lane x).apply s).nvm = s.nvm := rfl
@[simp] theorem lane_upd_host (x : LaneSt) : ((Upd.lane x).apply s).host = s.host := rfl
@[simp] theorem lane_upd_lane (x : LaneSt) : ((Upd.lane x).apply s).lane = x := rfl
@[simp] theorem lane_upd_eng (x : LaneSt) : ((Upd.lane x).apply s).eng = s.eng := rfl
@[simp] theorem lane_upd_fab (x : LaneSt) : ((Upd.lane x).apply s).fab = s.fab := rfl
@[simp] theorem lane_upd_pipe (x : LaneSt) : ((Upd.lane x).apply s).pipe = s.pipe := rfl
@[simp] theorem lane_upd_sup (x : LaneSt) : ((Upd.lane x).apply s).sup = s.sup := rfl
@[simp] theorem lane_upd_klk (x : LaneSt) : ((Upd.lane x).apply s).klk = s.klk := rfl
@[simp] theorem lane_upd_hdl (x : LaneSt) : ((Upd.lane x).apply s).hdl = s.hdl := rfl
@[simp] theorem lane_upd_tim (x : LaneSt) : ((Upd.lane x).apply s).tim = s.tim := rfl
@[simp] theorem lane_upd_net (x : LaneSt) : ((Upd.lane x).apply s).net = s.net := rfl
@[simp] theorem lane_upd_sec (x : LaneSt) : ((Upd.lane x).apply s).sec = s.sec := rfl
@[simp] theorem lane_upd_rep (x : LaneSt) : ((Upd.lane x).apply s).rep = s.rep := rfl
@[simp] theorem lane_upd_dbg (x : LaneSt) : ((Upd.lane x).apply s).dbg = s.dbg := rfl
@[simp] theorem lane_upd_free (x : LaneSt) : ((Upd.lane x).apply s).free = s.free := rfl
@[simp] theorem lane_upd_outs (x : LaneSt) : ((Upd.lane x).apply s).outs = s.outs := rfl

/-! ## `Upd.eng` -/

@[simp] theorem eng_upd_pending (x : EngSt) : ((Upd.eng x).apply s).pending = s.pending := rfl
@[simp] theorem eng_upd_regs (x : EngSt) : ((Upd.eng x).apply s).regs = s.regs := rfl
@[simp] theorem eng_upd_mem (x : EngSt) : ((Upd.eng x).apply s).mem = s.mem := rfl
@[simp] theorem eng_upd_memBad (x : EngSt) : ((Upd.eng x).apply s).memBad = s.memBad := rfl
@[simp] theorem eng_upd_hbm (x : EngSt) : ((Upd.eng x).apply s).hbm = s.hbm := rfl
@[simp] theorem eng_upd_hbmBad (x : EngSt) : ((Upd.eng x).apply s).hbmBad = s.hbmBad := rfl
@[simp] theorem eng_upd_mram (x : EngSt) : ((Upd.eng x).apply s).mram = s.mram := rfl
@[simp] theorem eng_upd_mramBad (x : EngSt) : ((Upd.eng x).apply s).mramBad = s.mramBad := rfl
@[simp] theorem eng_upd_clk (x : EngSt) : ((Upd.eng x).apply s).clk = s.clk := rfl
@[simp] theorem eng_upd_ump (x : EngSt) : ((Upd.eng x).apply s).ump = s.ump := rfl
@[simp] theorem eng_upd_thm (x : EngSt) : ((Upd.eng x).apply s).thm = s.thm := rfl
@[simp] theorem eng_upd_nvm (x : EngSt) : ((Upd.eng x).apply s).nvm = s.nvm := rfl
@[simp] theorem eng_upd_host (x : EngSt) : ((Upd.eng x).apply s).host = s.host := rfl
@[simp] theorem eng_upd_lane (x : EngSt) : ((Upd.eng x).apply s).lane = s.lane := rfl
@[simp] theorem eng_upd_eng (x : EngSt) : ((Upd.eng x).apply s).eng = x := rfl
@[simp] theorem eng_upd_fab (x : EngSt) : ((Upd.eng x).apply s).fab = s.fab := rfl
@[simp] theorem eng_upd_pipe (x : EngSt) : ((Upd.eng x).apply s).pipe = s.pipe := rfl
@[simp] theorem eng_upd_sup (x : EngSt) : ((Upd.eng x).apply s).sup = s.sup := rfl
@[simp] theorem eng_upd_klk (x : EngSt) : ((Upd.eng x).apply s).klk = s.klk := rfl
@[simp] theorem eng_upd_hdl (x : EngSt) : ((Upd.eng x).apply s).hdl = s.hdl := rfl
@[simp] theorem eng_upd_tim (x : EngSt) : ((Upd.eng x).apply s).tim = s.tim := rfl
@[simp] theorem eng_upd_net (x : EngSt) : ((Upd.eng x).apply s).net = s.net := rfl
@[simp] theorem eng_upd_sec (x : EngSt) : ((Upd.eng x).apply s).sec = s.sec := rfl
@[simp] theorem eng_upd_rep (x : EngSt) : ((Upd.eng x).apply s).rep = s.rep := rfl
@[simp] theorem eng_upd_dbg (x : EngSt) : ((Upd.eng x).apply s).dbg = s.dbg := rfl
@[simp] theorem eng_upd_free (x : EngSt) : ((Upd.eng x).apply s).free = s.free := rfl
@[simp] theorem eng_upd_outs (x : EngSt) : ((Upd.eng x).apply s).outs = s.outs := rfl

/-! ## `Upd.fab` -/

@[simp] theorem fab_upd_pending (x : FabSt) : ((Upd.fab x).apply s).pending = s.pending := rfl
@[simp] theorem fab_upd_regs (x : FabSt) : ((Upd.fab x).apply s).regs = s.regs := rfl
@[simp] theorem fab_upd_mem (x : FabSt) : ((Upd.fab x).apply s).mem = s.mem := rfl
@[simp] theorem fab_upd_memBad (x : FabSt) : ((Upd.fab x).apply s).memBad = s.memBad := rfl
@[simp] theorem fab_upd_hbm (x : FabSt) : ((Upd.fab x).apply s).hbm = s.hbm := rfl
@[simp] theorem fab_upd_hbmBad (x : FabSt) : ((Upd.fab x).apply s).hbmBad = s.hbmBad := rfl
@[simp] theorem fab_upd_mram (x : FabSt) : ((Upd.fab x).apply s).mram = s.mram := rfl
@[simp] theorem fab_upd_mramBad (x : FabSt) : ((Upd.fab x).apply s).mramBad = s.mramBad := rfl
@[simp] theorem fab_upd_clk (x : FabSt) : ((Upd.fab x).apply s).clk = s.clk := rfl
@[simp] theorem fab_upd_ump (x : FabSt) : ((Upd.fab x).apply s).ump = s.ump := rfl
@[simp] theorem fab_upd_thm (x : FabSt) : ((Upd.fab x).apply s).thm = s.thm := rfl
@[simp] theorem fab_upd_nvm (x : FabSt) : ((Upd.fab x).apply s).nvm = s.nvm := rfl
@[simp] theorem fab_upd_host (x : FabSt) : ((Upd.fab x).apply s).host = s.host := rfl
@[simp] theorem fab_upd_lane (x : FabSt) : ((Upd.fab x).apply s).lane = s.lane := rfl
@[simp] theorem fab_upd_eng (x : FabSt) : ((Upd.fab x).apply s).eng = s.eng := rfl
@[simp] theorem fab_upd_fab (x : FabSt) : ((Upd.fab x).apply s).fab = x := rfl
@[simp] theorem fab_upd_pipe (x : FabSt) : ((Upd.fab x).apply s).pipe = s.pipe := rfl
@[simp] theorem fab_upd_sup (x : FabSt) : ((Upd.fab x).apply s).sup = s.sup := rfl
@[simp] theorem fab_upd_klk (x : FabSt) : ((Upd.fab x).apply s).klk = s.klk := rfl
@[simp] theorem fab_upd_hdl (x : FabSt) : ((Upd.fab x).apply s).hdl = s.hdl := rfl
@[simp] theorem fab_upd_tim (x : FabSt) : ((Upd.fab x).apply s).tim = s.tim := rfl
@[simp] theorem fab_upd_net (x : FabSt) : ((Upd.fab x).apply s).net = s.net := rfl
@[simp] theorem fab_upd_sec (x : FabSt) : ((Upd.fab x).apply s).sec = s.sec := rfl
@[simp] theorem fab_upd_rep (x : FabSt) : ((Upd.fab x).apply s).rep = s.rep := rfl
@[simp] theorem fab_upd_dbg (x : FabSt) : ((Upd.fab x).apply s).dbg = s.dbg := rfl
@[simp] theorem fab_upd_free (x : FabSt) : ((Upd.fab x).apply s).free = s.free := rfl
@[simp] theorem fab_upd_outs (x : FabSt) : ((Upd.fab x).apply s).outs = s.outs := rfl

/-! ## `Upd.pipe` -/

@[simp] theorem pipe_upd_pending (x : PipeSt) : ((Upd.pipe x).apply s).pending = s.pending := rfl
@[simp] theorem pipe_upd_regs (x : PipeSt) : ((Upd.pipe x).apply s).regs = s.regs := rfl
@[simp] theorem pipe_upd_mem (x : PipeSt) : ((Upd.pipe x).apply s).mem = s.mem := rfl
@[simp] theorem pipe_upd_memBad (x : PipeSt) : ((Upd.pipe x).apply s).memBad = s.memBad := rfl
@[simp] theorem pipe_upd_hbm (x : PipeSt) : ((Upd.pipe x).apply s).hbm = s.hbm := rfl
@[simp] theorem pipe_upd_hbmBad (x : PipeSt) : ((Upd.pipe x).apply s).hbmBad = s.hbmBad := rfl
@[simp] theorem pipe_upd_mram (x : PipeSt) : ((Upd.pipe x).apply s).mram = s.mram := rfl
@[simp] theorem pipe_upd_mramBad (x : PipeSt) : ((Upd.pipe x).apply s).mramBad = s.mramBad := rfl
@[simp] theorem pipe_upd_clk (x : PipeSt) : ((Upd.pipe x).apply s).clk = s.clk := rfl
@[simp] theorem pipe_upd_ump (x : PipeSt) : ((Upd.pipe x).apply s).ump = s.ump := rfl
@[simp] theorem pipe_upd_thm (x : PipeSt) : ((Upd.pipe x).apply s).thm = s.thm := rfl
@[simp] theorem pipe_upd_nvm (x : PipeSt) : ((Upd.pipe x).apply s).nvm = s.nvm := rfl
@[simp] theorem pipe_upd_host (x : PipeSt) : ((Upd.pipe x).apply s).host = s.host := rfl
@[simp] theorem pipe_upd_lane (x : PipeSt) : ((Upd.pipe x).apply s).lane = s.lane := rfl
@[simp] theorem pipe_upd_eng (x : PipeSt) : ((Upd.pipe x).apply s).eng = s.eng := rfl
@[simp] theorem pipe_upd_fab (x : PipeSt) : ((Upd.pipe x).apply s).fab = s.fab := rfl
@[simp] theorem pipe_upd_pipe (x : PipeSt) : ((Upd.pipe x).apply s).pipe = x := rfl
@[simp] theorem pipe_upd_sup (x : PipeSt) : ((Upd.pipe x).apply s).sup = s.sup := rfl
@[simp] theorem pipe_upd_klk (x : PipeSt) : ((Upd.pipe x).apply s).klk = s.klk := rfl
@[simp] theorem pipe_upd_hdl (x : PipeSt) : ((Upd.pipe x).apply s).hdl = s.hdl := rfl
@[simp] theorem pipe_upd_tim (x : PipeSt) : ((Upd.pipe x).apply s).tim = s.tim := rfl
@[simp] theorem pipe_upd_net (x : PipeSt) : ((Upd.pipe x).apply s).net = s.net := rfl
@[simp] theorem pipe_upd_sec (x : PipeSt) : ((Upd.pipe x).apply s).sec = s.sec := rfl
@[simp] theorem pipe_upd_rep (x : PipeSt) : ((Upd.pipe x).apply s).rep = s.rep := rfl
@[simp] theorem pipe_upd_dbg (x : PipeSt) : ((Upd.pipe x).apply s).dbg = s.dbg := rfl
@[simp] theorem pipe_upd_free (x : PipeSt) : ((Upd.pipe x).apply s).free = s.free := rfl
@[simp] theorem pipe_upd_outs (x : PipeSt) : ((Upd.pipe x).apply s).outs = s.outs := rfl

/-! ## `Upd.sup` -/

@[simp] theorem sup_upd_pending (x : SupSt) : ((Upd.sup x).apply s).pending = s.pending := rfl
@[simp] theorem sup_upd_regs (x : SupSt) : ((Upd.sup x).apply s).regs = s.regs := rfl
@[simp] theorem sup_upd_mem (x : SupSt) : ((Upd.sup x).apply s).mem = s.mem := rfl
@[simp] theorem sup_upd_memBad (x : SupSt) : ((Upd.sup x).apply s).memBad = s.memBad := rfl
@[simp] theorem sup_upd_hbm (x : SupSt) : ((Upd.sup x).apply s).hbm = s.hbm := rfl
@[simp] theorem sup_upd_hbmBad (x : SupSt) : ((Upd.sup x).apply s).hbmBad = s.hbmBad := rfl
@[simp] theorem sup_upd_mram (x : SupSt) : ((Upd.sup x).apply s).mram = s.mram := rfl
@[simp] theorem sup_upd_mramBad (x : SupSt) : ((Upd.sup x).apply s).mramBad = s.mramBad := rfl
@[simp] theorem sup_upd_clk (x : SupSt) : ((Upd.sup x).apply s).clk = s.clk := rfl
@[simp] theorem sup_upd_ump (x : SupSt) : ((Upd.sup x).apply s).ump = s.ump := rfl
@[simp] theorem sup_upd_thm (x : SupSt) : ((Upd.sup x).apply s).thm = s.thm := rfl
@[simp] theorem sup_upd_nvm (x : SupSt) : ((Upd.sup x).apply s).nvm = s.nvm := rfl
@[simp] theorem sup_upd_host (x : SupSt) : ((Upd.sup x).apply s).host = s.host := rfl
@[simp] theorem sup_upd_lane (x : SupSt) : ((Upd.sup x).apply s).lane = s.lane := rfl
@[simp] theorem sup_upd_eng (x : SupSt) : ((Upd.sup x).apply s).eng = s.eng := rfl
@[simp] theorem sup_upd_fab (x : SupSt) : ((Upd.sup x).apply s).fab = s.fab := rfl
@[simp] theorem sup_upd_pipe (x : SupSt) : ((Upd.sup x).apply s).pipe = s.pipe := rfl
@[simp] theorem sup_upd_sup (x : SupSt) : ((Upd.sup x).apply s).sup = x := rfl
@[simp] theorem sup_upd_klk (x : SupSt) : ((Upd.sup x).apply s).klk = s.klk := rfl
@[simp] theorem sup_upd_hdl (x : SupSt) : ((Upd.sup x).apply s).hdl = s.hdl := rfl
@[simp] theorem sup_upd_tim (x : SupSt) : ((Upd.sup x).apply s).tim = s.tim := rfl
@[simp] theorem sup_upd_net (x : SupSt) : ((Upd.sup x).apply s).net = s.net := rfl
@[simp] theorem sup_upd_sec (x : SupSt) : ((Upd.sup x).apply s).sec = s.sec := rfl
@[simp] theorem sup_upd_rep (x : SupSt) : ((Upd.sup x).apply s).rep = s.rep := rfl
@[simp] theorem sup_upd_dbg (x : SupSt) : ((Upd.sup x).apply s).dbg = s.dbg := rfl
@[simp] theorem sup_upd_free (x : SupSt) : ((Upd.sup x).apply s).free = s.free := rfl
@[simp] theorem sup_upd_outs (x : SupSt) : ((Upd.sup x).apply s).outs = s.outs := rfl

/-! ## `Upd.klk` -/

@[simp] theorem klk_upd_pending (x : KlkSt) : ((Upd.klk x).apply s).pending = s.pending := rfl
@[simp] theorem klk_upd_regs (x : KlkSt) : ((Upd.klk x).apply s).regs = s.regs := rfl
@[simp] theorem klk_upd_mem (x : KlkSt) : ((Upd.klk x).apply s).mem = s.mem := rfl
@[simp] theorem klk_upd_memBad (x : KlkSt) : ((Upd.klk x).apply s).memBad = s.memBad := rfl
@[simp] theorem klk_upd_hbm (x : KlkSt) : ((Upd.klk x).apply s).hbm = s.hbm := rfl
@[simp] theorem klk_upd_hbmBad (x : KlkSt) : ((Upd.klk x).apply s).hbmBad = s.hbmBad := rfl
@[simp] theorem klk_upd_mram (x : KlkSt) : ((Upd.klk x).apply s).mram = s.mram := rfl
@[simp] theorem klk_upd_mramBad (x : KlkSt) : ((Upd.klk x).apply s).mramBad = s.mramBad := rfl
@[simp] theorem klk_upd_clk (x : KlkSt) : ((Upd.klk x).apply s).clk = s.clk := rfl
@[simp] theorem klk_upd_ump (x : KlkSt) : ((Upd.klk x).apply s).ump = s.ump := rfl
@[simp] theorem klk_upd_thm (x : KlkSt) : ((Upd.klk x).apply s).thm = s.thm := rfl
@[simp] theorem klk_upd_nvm (x : KlkSt) : ((Upd.klk x).apply s).nvm = s.nvm := rfl
@[simp] theorem klk_upd_host (x : KlkSt) : ((Upd.klk x).apply s).host = s.host := rfl
@[simp] theorem klk_upd_lane (x : KlkSt) : ((Upd.klk x).apply s).lane = s.lane := rfl
@[simp] theorem klk_upd_eng (x : KlkSt) : ((Upd.klk x).apply s).eng = s.eng := rfl
@[simp] theorem klk_upd_fab (x : KlkSt) : ((Upd.klk x).apply s).fab = s.fab := rfl
@[simp] theorem klk_upd_pipe (x : KlkSt) : ((Upd.klk x).apply s).pipe = s.pipe := rfl
@[simp] theorem klk_upd_sup (x : KlkSt) : ((Upd.klk x).apply s).sup = s.sup := rfl
@[simp] theorem klk_upd_klk (x : KlkSt) : ((Upd.klk x).apply s).klk = x := rfl
@[simp] theorem klk_upd_hdl (x : KlkSt) : ((Upd.klk x).apply s).hdl = s.hdl := rfl
@[simp] theorem klk_upd_tim (x : KlkSt) : ((Upd.klk x).apply s).tim = s.tim := rfl
@[simp] theorem klk_upd_net (x : KlkSt) : ((Upd.klk x).apply s).net = s.net := rfl
@[simp] theorem klk_upd_sec (x : KlkSt) : ((Upd.klk x).apply s).sec = s.sec := rfl
@[simp] theorem klk_upd_rep (x : KlkSt) : ((Upd.klk x).apply s).rep = s.rep := rfl
@[simp] theorem klk_upd_dbg (x : KlkSt) : ((Upd.klk x).apply s).dbg = s.dbg := rfl
@[simp] theorem klk_upd_free (x : KlkSt) : ((Upd.klk x).apply s).free = s.free := rfl
@[simp] theorem klk_upd_outs (x : KlkSt) : ((Upd.klk x).apply s).outs = s.outs := rfl

/-! ## `Upd.hdl` -/

@[simp] theorem hdl_upd_pending (x : HdlSt) : ((Upd.hdl x).apply s).pending = s.pending := rfl
@[simp] theorem hdl_upd_regs (x : HdlSt) : ((Upd.hdl x).apply s).regs = s.regs := rfl
@[simp] theorem hdl_upd_mem (x : HdlSt) : ((Upd.hdl x).apply s).mem = s.mem := rfl
@[simp] theorem hdl_upd_memBad (x : HdlSt) : ((Upd.hdl x).apply s).memBad = s.memBad := rfl
@[simp] theorem hdl_upd_hbm (x : HdlSt) : ((Upd.hdl x).apply s).hbm = s.hbm := rfl
@[simp] theorem hdl_upd_hbmBad (x : HdlSt) : ((Upd.hdl x).apply s).hbmBad = s.hbmBad := rfl
@[simp] theorem hdl_upd_mram (x : HdlSt) : ((Upd.hdl x).apply s).mram = s.mram := rfl
@[simp] theorem hdl_upd_mramBad (x : HdlSt) : ((Upd.hdl x).apply s).mramBad = s.mramBad := rfl
@[simp] theorem hdl_upd_clk (x : HdlSt) : ((Upd.hdl x).apply s).clk = s.clk := rfl
@[simp] theorem hdl_upd_ump (x : HdlSt) : ((Upd.hdl x).apply s).ump = s.ump := rfl
@[simp] theorem hdl_upd_thm (x : HdlSt) : ((Upd.hdl x).apply s).thm = s.thm := rfl
@[simp] theorem hdl_upd_nvm (x : HdlSt) : ((Upd.hdl x).apply s).nvm = s.nvm := rfl
@[simp] theorem hdl_upd_host (x : HdlSt) : ((Upd.hdl x).apply s).host = s.host := rfl
@[simp] theorem hdl_upd_lane (x : HdlSt) : ((Upd.hdl x).apply s).lane = s.lane := rfl
@[simp] theorem hdl_upd_eng (x : HdlSt) : ((Upd.hdl x).apply s).eng = s.eng := rfl
@[simp] theorem hdl_upd_fab (x : HdlSt) : ((Upd.hdl x).apply s).fab = s.fab := rfl
@[simp] theorem hdl_upd_pipe (x : HdlSt) : ((Upd.hdl x).apply s).pipe = s.pipe := rfl
@[simp] theorem hdl_upd_sup (x : HdlSt) : ((Upd.hdl x).apply s).sup = s.sup := rfl
@[simp] theorem hdl_upd_klk (x : HdlSt) : ((Upd.hdl x).apply s).klk = s.klk := rfl
@[simp] theorem hdl_upd_hdl (x : HdlSt) : ((Upd.hdl x).apply s).hdl = x := rfl
@[simp] theorem hdl_upd_tim (x : HdlSt) : ((Upd.hdl x).apply s).tim = s.tim := rfl
@[simp] theorem hdl_upd_net (x : HdlSt) : ((Upd.hdl x).apply s).net = s.net := rfl
@[simp] theorem hdl_upd_sec (x : HdlSt) : ((Upd.hdl x).apply s).sec = s.sec := rfl
@[simp] theorem hdl_upd_rep (x : HdlSt) : ((Upd.hdl x).apply s).rep = s.rep := rfl
@[simp] theorem hdl_upd_dbg (x : HdlSt) : ((Upd.hdl x).apply s).dbg = s.dbg := rfl
@[simp] theorem hdl_upd_free (x : HdlSt) : ((Upd.hdl x).apply s).free = s.free := rfl
@[simp] theorem hdl_upd_outs (x : HdlSt) : ((Upd.hdl x).apply s).outs = s.outs := rfl

/-! ## `Upd.tim` -/

@[simp] theorem tim_upd_pending (x : TimSt) : ((Upd.tim x).apply s).pending = s.pending := rfl
@[simp] theorem tim_upd_regs (x : TimSt) : ((Upd.tim x).apply s).regs = s.regs := rfl
@[simp] theorem tim_upd_mem (x : TimSt) : ((Upd.tim x).apply s).mem = s.mem := rfl
@[simp] theorem tim_upd_memBad (x : TimSt) : ((Upd.tim x).apply s).memBad = s.memBad := rfl
@[simp] theorem tim_upd_hbm (x : TimSt) : ((Upd.tim x).apply s).hbm = s.hbm := rfl
@[simp] theorem tim_upd_hbmBad (x : TimSt) : ((Upd.tim x).apply s).hbmBad = s.hbmBad := rfl
@[simp] theorem tim_upd_mram (x : TimSt) : ((Upd.tim x).apply s).mram = s.mram := rfl
@[simp] theorem tim_upd_mramBad (x : TimSt) : ((Upd.tim x).apply s).mramBad = s.mramBad := rfl
@[simp] theorem tim_upd_clk (x : TimSt) : ((Upd.tim x).apply s).clk = s.clk := rfl
@[simp] theorem tim_upd_ump (x : TimSt) : ((Upd.tim x).apply s).ump = s.ump := rfl
@[simp] theorem tim_upd_thm (x : TimSt) : ((Upd.tim x).apply s).thm = s.thm := rfl
@[simp] theorem tim_upd_nvm (x : TimSt) : ((Upd.tim x).apply s).nvm = s.nvm := rfl
@[simp] theorem tim_upd_host (x : TimSt) : ((Upd.tim x).apply s).host = s.host := rfl
@[simp] theorem tim_upd_lane (x : TimSt) : ((Upd.tim x).apply s).lane = s.lane := rfl
@[simp] theorem tim_upd_eng (x : TimSt) : ((Upd.tim x).apply s).eng = s.eng := rfl
@[simp] theorem tim_upd_fab (x : TimSt) : ((Upd.tim x).apply s).fab = s.fab := rfl
@[simp] theorem tim_upd_pipe (x : TimSt) : ((Upd.tim x).apply s).pipe = s.pipe := rfl
@[simp] theorem tim_upd_sup (x : TimSt) : ((Upd.tim x).apply s).sup = s.sup := rfl
@[simp] theorem tim_upd_klk (x : TimSt) : ((Upd.tim x).apply s).klk = s.klk := rfl
@[simp] theorem tim_upd_hdl (x : TimSt) : ((Upd.tim x).apply s).hdl = s.hdl := rfl
@[simp] theorem tim_upd_tim (x : TimSt) : ((Upd.tim x).apply s).tim = x := rfl
@[simp] theorem tim_upd_net (x : TimSt) : ((Upd.tim x).apply s).net = s.net := rfl
@[simp] theorem tim_upd_sec (x : TimSt) : ((Upd.tim x).apply s).sec = s.sec := rfl
@[simp] theorem tim_upd_rep (x : TimSt) : ((Upd.tim x).apply s).rep = s.rep := rfl
@[simp] theorem tim_upd_dbg (x : TimSt) : ((Upd.tim x).apply s).dbg = s.dbg := rfl
@[simp] theorem tim_upd_free (x : TimSt) : ((Upd.tim x).apply s).free = s.free := rfl
@[simp] theorem tim_upd_outs (x : TimSt) : ((Upd.tim x).apply s).outs = s.outs := rfl

/-! ## `Upd.net` -/

@[simp] theorem net_upd_pending (x : NetSt) : ((Upd.net x).apply s).pending = s.pending := rfl
@[simp] theorem net_upd_regs (x : NetSt) : ((Upd.net x).apply s).regs = s.regs := rfl
@[simp] theorem net_upd_mem (x : NetSt) : ((Upd.net x).apply s).mem = s.mem := rfl
@[simp] theorem net_upd_memBad (x : NetSt) : ((Upd.net x).apply s).memBad = s.memBad := rfl
@[simp] theorem net_upd_hbm (x : NetSt) : ((Upd.net x).apply s).hbm = s.hbm := rfl
@[simp] theorem net_upd_hbmBad (x : NetSt) : ((Upd.net x).apply s).hbmBad = s.hbmBad := rfl
@[simp] theorem net_upd_mram (x : NetSt) : ((Upd.net x).apply s).mram = s.mram := rfl
@[simp] theorem net_upd_mramBad (x : NetSt) : ((Upd.net x).apply s).mramBad = s.mramBad := rfl
@[simp] theorem net_upd_clk (x : NetSt) : ((Upd.net x).apply s).clk = s.clk := rfl
@[simp] theorem net_upd_ump (x : NetSt) : ((Upd.net x).apply s).ump = s.ump := rfl
@[simp] theorem net_upd_thm (x : NetSt) : ((Upd.net x).apply s).thm = s.thm := rfl
@[simp] theorem net_upd_nvm (x : NetSt) : ((Upd.net x).apply s).nvm = s.nvm := rfl
@[simp] theorem net_upd_host (x : NetSt) : ((Upd.net x).apply s).host = s.host := rfl
@[simp] theorem net_upd_lane (x : NetSt) : ((Upd.net x).apply s).lane = s.lane := rfl
@[simp] theorem net_upd_eng (x : NetSt) : ((Upd.net x).apply s).eng = s.eng := rfl
@[simp] theorem net_upd_fab (x : NetSt) : ((Upd.net x).apply s).fab = s.fab := rfl
@[simp] theorem net_upd_pipe (x : NetSt) : ((Upd.net x).apply s).pipe = s.pipe := rfl
@[simp] theorem net_upd_sup (x : NetSt) : ((Upd.net x).apply s).sup = s.sup := rfl
@[simp] theorem net_upd_klk (x : NetSt) : ((Upd.net x).apply s).klk = s.klk := rfl
@[simp] theorem net_upd_hdl (x : NetSt) : ((Upd.net x).apply s).hdl = s.hdl := rfl
@[simp] theorem net_upd_tim (x : NetSt) : ((Upd.net x).apply s).tim = s.tim := rfl
@[simp] theorem net_upd_net (x : NetSt) : ((Upd.net x).apply s).net = x := rfl
@[simp] theorem net_upd_sec (x : NetSt) : ((Upd.net x).apply s).sec = s.sec := rfl
@[simp] theorem net_upd_rep (x : NetSt) : ((Upd.net x).apply s).rep = s.rep := rfl
@[simp] theorem net_upd_dbg (x : NetSt) : ((Upd.net x).apply s).dbg = s.dbg := rfl
@[simp] theorem net_upd_free (x : NetSt) : ((Upd.net x).apply s).free = s.free := rfl
@[simp] theorem net_upd_outs (x : NetSt) : ((Upd.net x).apply s).outs = s.outs := rfl

/-! ## `Upd.sec` -/

@[simp] theorem sec_upd_pending (x : SecSt) : ((Upd.sec x).apply s).pending = s.pending := rfl
@[simp] theorem sec_upd_regs (x : SecSt) : ((Upd.sec x).apply s).regs = s.regs := rfl
@[simp] theorem sec_upd_mem (x : SecSt) : ((Upd.sec x).apply s).mem = s.mem := rfl
@[simp] theorem sec_upd_memBad (x : SecSt) : ((Upd.sec x).apply s).memBad = s.memBad := rfl
@[simp] theorem sec_upd_hbm (x : SecSt) : ((Upd.sec x).apply s).hbm = s.hbm := rfl
@[simp] theorem sec_upd_hbmBad (x : SecSt) : ((Upd.sec x).apply s).hbmBad = s.hbmBad := rfl
@[simp] theorem sec_upd_mram (x : SecSt) : ((Upd.sec x).apply s).mram = s.mram := rfl
@[simp] theorem sec_upd_mramBad (x : SecSt) : ((Upd.sec x).apply s).mramBad = s.mramBad := rfl
@[simp] theorem sec_upd_clk (x : SecSt) : ((Upd.sec x).apply s).clk = s.clk := rfl
@[simp] theorem sec_upd_ump (x : SecSt) : ((Upd.sec x).apply s).ump = s.ump := rfl
@[simp] theorem sec_upd_thm (x : SecSt) : ((Upd.sec x).apply s).thm = s.thm := rfl
@[simp] theorem sec_upd_nvm (x : SecSt) : ((Upd.sec x).apply s).nvm = s.nvm := rfl
@[simp] theorem sec_upd_host (x : SecSt) : ((Upd.sec x).apply s).host = s.host := rfl
@[simp] theorem sec_upd_lane (x : SecSt) : ((Upd.sec x).apply s).lane = s.lane := rfl
@[simp] theorem sec_upd_eng (x : SecSt) : ((Upd.sec x).apply s).eng = s.eng := rfl
@[simp] theorem sec_upd_fab (x : SecSt) : ((Upd.sec x).apply s).fab = s.fab := rfl
@[simp] theorem sec_upd_pipe (x : SecSt) : ((Upd.sec x).apply s).pipe = s.pipe := rfl
@[simp] theorem sec_upd_sup (x : SecSt) : ((Upd.sec x).apply s).sup = s.sup := rfl
@[simp] theorem sec_upd_klk (x : SecSt) : ((Upd.sec x).apply s).klk = s.klk := rfl
@[simp] theorem sec_upd_hdl (x : SecSt) : ((Upd.sec x).apply s).hdl = s.hdl := rfl
@[simp] theorem sec_upd_tim (x : SecSt) : ((Upd.sec x).apply s).tim = s.tim := rfl
@[simp] theorem sec_upd_net (x : SecSt) : ((Upd.sec x).apply s).net = s.net := rfl
@[simp] theorem sec_upd_sec (x : SecSt) : ((Upd.sec x).apply s).sec = x := rfl
@[simp] theorem sec_upd_rep (x : SecSt) : ((Upd.sec x).apply s).rep = s.rep := rfl
@[simp] theorem sec_upd_dbg (x : SecSt) : ((Upd.sec x).apply s).dbg = s.dbg := rfl
@[simp] theorem sec_upd_free (x : SecSt) : ((Upd.sec x).apply s).free = s.free := rfl
@[simp] theorem sec_upd_outs (x : SecSt) : ((Upd.sec x).apply s).outs = s.outs := rfl

/-! ## `Upd.rep` -/

@[simp] theorem rep_upd_pending (x : RepSt) : ((Upd.rep x).apply s).pending = s.pending := rfl
@[simp] theorem rep_upd_regs (x : RepSt) : ((Upd.rep x).apply s).regs = s.regs := rfl
@[simp] theorem rep_upd_mem (x : RepSt) : ((Upd.rep x).apply s).mem = s.mem := rfl
@[simp] theorem rep_upd_memBad (x : RepSt) : ((Upd.rep x).apply s).memBad = s.memBad := rfl
@[simp] theorem rep_upd_hbm (x : RepSt) : ((Upd.rep x).apply s).hbm = s.hbm := rfl
@[simp] theorem rep_upd_hbmBad (x : RepSt) : ((Upd.rep x).apply s).hbmBad = s.hbmBad := rfl
@[simp] theorem rep_upd_mram (x : RepSt) : ((Upd.rep x).apply s).mram = s.mram := rfl
@[simp] theorem rep_upd_mramBad (x : RepSt) : ((Upd.rep x).apply s).mramBad = s.mramBad := rfl
@[simp] theorem rep_upd_clk (x : RepSt) : ((Upd.rep x).apply s).clk = s.clk := rfl
@[simp] theorem rep_upd_ump (x : RepSt) : ((Upd.rep x).apply s).ump = s.ump := rfl
@[simp] theorem rep_upd_thm (x : RepSt) : ((Upd.rep x).apply s).thm = s.thm := rfl
@[simp] theorem rep_upd_nvm (x : RepSt) : ((Upd.rep x).apply s).nvm = s.nvm := rfl
@[simp] theorem rep_upd_host (x : RepSt) : ((Upd.rep x).apply s).host = s.host := rfl
@[simp] theorem rep_upd_lane (x : RepSt) : ((Upd.rep x).apply s).lane = s.lane := rfl
@[simp] theorem rep_upd_eng (x : RepSt) : ((Upd.rep x).apply s).eng = s.eng := rfl
@[simp] theorem rep_upd_fab (x : RepSt) : ((Upd.rep x).apply s).fab = s.fab := rfl
@[simp] theorem rep_upd_pipe (x : RepSt) : ((Upd.rep x).apply s).pipe = s.pipe := rfl
@[simp] theorem rep_upd_sup (x : RepSt) : ((Upd.rep x).apply s).sup = s.sup := rfl
@[simp] theorem rep_upd_klk (x : RepSt) : ((Upd.rep x).apply s).klk = s.klk := rfl
@[simp] theorem rep_upd_hdl (x : RepSt) : ((Upd.rep x).apply s).hdl = s.hdl := rfl
@[simp] theorem rep_upd_tim (x : RepSt) : ((Upd.rep x).apply s).tim = s.tim := rfl
@[simp] theorem rep_upd_net (x : RepSt) : ((Upd.rep x).apply s).net = s.net := rfl
@[simp] theorem rep_upd_sec (x : RepSt) : ((Upd.rep x).apply s).sec = s.sec := rfl
@[simp] theorem rep_upd_rep (x : RepSt) : ((Upd.rep x).apply s).rep = x := rfl
@[simp] theorem rep_upd_dbg (x : RepSt) : ((Upd.rep x).apply s).dbg = s.dbg := rfl
@[simp] theorem rep_upd_free (x : RepSt) : ((Upd.rep x).apply s).free = s.free := rfl
@[simp] theorem rep_upd_outs (x : RepSt) : ((Upd.rep x).apply s).outs = s.outs := rfl

/-! ## `Upd.dbg` -/

@[simp] theorem dbg_upd_pending (x : DbgSt) : ((Upd.dbg x).apply s).pending = s.pending := rfl
@[simp] theorem dbg_upd_regs (x : DbgSt) : ((Upd.dbg x).apply s).regs = s.regs := rfl
@[simp] theorem dbg_upd_mem (x : DbgSt) : ((Upd.dbg x).apply s).mem = s.mem := rfl
@[simp] theorem dbg_upd_memBad (x : DbgSt) : ((Upd.dbg x).apply s).memBad = s.memBad := rfl
@[simp] theorem dbg_upd_hbm (x : DbgSt) : ((Upd.dbg x).apply s).hbm = s.hbm := rfl
@[simp] theorem dbg_upd_hbmBad (x : DbgSt) : ((Upd.dbg x).apply s).hbmBad = s.hbmBad := rfl
@[simp] theorem dbg_upd_mram (x : DbgSt) : ((Upd.dbg x).apply s).mram = s.mram := rfl
@[simp] theorem dbg_upd_mramBad (x : DbgSt) : ((Upd.dbg x).apply s).mramBad = s.mramBad := rfl
@[simp] theorem dbg_upd_clk (x : DbgSt) : ((Upd.dbg x).apply s).clk = s.clk := rfl
@[simp] theorem dbg_upd_ump (x : DbgSt) : ((Upd.dbg x).apply s).ump = s.ump := rfl
@[simp] theorem dbg_upd_thm (x : DbgSt) : ((Upd.dbg x).apply s).thm = s.thm := rfl
@[simp] theorem dbg_upd_nvm (x : DbgSt) : ((Upd.dbg x).apply s).nvm = s.nvm := rfl
@[simp] theorem dbg_upd_host (x : DbgSt) : ((Upd.dbg x).apply s).host = s.host := rfl
@[simp] theorem dbg_upd_lane (x : DbgSt) : ((Upd.dbg x).apply s).lane = s.lane := rfl
@[simp] theorem dbg_upd_eng (x : DbgSt) : ((Upd.dbg x).apply s).eng = s.eng := rfl
@[simp] theorem dbg_upd_fab (x : DbgSt) : ((Upd.dbg x).apply s).fab = s.fab := rfl
@[simp] theorem dbg_upd_pipe (x : DbgSt) : ((Upd.dbg x).apply s).pipe = s.pipe := rfl
@[simp] theorem dbg_upd_sup (x : DbgSt) : ((Upd.dbg x).apply s).sup = s.sup := rfl
@[simp] theorem dbg_upd_klk (x : DbgSt) : ((Upd.dbg x).apply s).klk = s.klk := rfl
@[simp] theorem dbg_upd_hdl (x : DbgSt) : ((Upd.dbg x).apply s).hdl = s.hdl := rfl
@[simp] theorem dbg_upd_tim (x : DbgSt) : ((Upd.dbg x).apply s).tim = s.tim := rfl
@[simp] theorem dbg_upd_net (x : DbgSt) : ((Upd.dbg x).apply s).net = s.net := rfl
@[simp] theorem dbg_upd_sec (x : DbgSt) : ((Upd.dbg x).apply s).sec = s.sec := rfl
@[simp] theorem dbg_upd_rep (x : DbgSt) : ((Upd.dbg x).apply s).rep = s.rep := rfl
@[simp] theorem dbg_upd_dbg (x : DbgSt) : ((Upd.dbg x).apply s).dbg = x := rfl
@[simp] theorem dbg_upd_free (x : DbgSt) : ((Upd.dbg x).apply s).free = s.free := rfl
@[simp] theorem dbg_upd_outs (x : DbgSt) : ((Upd.dbg x).apply s).outs = s.outs := rfl

end Sys2Proof.Machine
end

