-- ==== Sys2Proof/Laws/Store.lean ====
section
/-!
SUPPORT. The laws of the sparse stores: a read after a write, the other keys, and the canonical form that every operation keeps.
-/

namespace Sys2Proof.Machine

variable {α : Type}

/-! ## Reads -/

@[simp] theorem sget_nil (d : Nat → α) (k : Nat) : sget d [] k = d k := rfl

/-- An entry whose key is not `k` does not matter to a read of `k`. -/
theorem sget_cons_ne (d : Nat → α) {j k : Nat} (h : j ≠ k) (v : α) (r : SMap α) : sget d ((j, v) :: r) k = sget d r k := by
  simp [sget, h]

/-- A deleted key reads as an unlisted one. -/
@[simp] theorem sget_sdel_self (d : Nat → α) (m : SMap α) (k : Nat) : sget d (sdel m k) k = d k := by
  induction m with
  | nil => rfl
  | cons p r ih => obtain ⟨j, w⟩ := p; by_cases h : j = k <;> simp [sdel, sget, h, ih]

/-- A deletion leaves the other keys. -/
theorem sget_sdel_ne (d : Nat → α) (m : SMap α) {j k : Nat} (h : j ≠ k) : sget d (sdel m j) k = sget d m k := by
  induction m with
  | nil => rfl
  | cons p r ih =>
    obtain ⟨i, w⟩ := p
    by_cases hi : i = j
    · subst hi; simp [sdel, sget, h, ih]
    · by_cases hk : i = k
      · subst hk; simp [sdel, sget, hi]
      · simp [sdel, sget, hi, hk, ih]

/-- An inserted key reads as inserted, where no entry holds it yet. -/
theorem sget_sins_self (d : Nat → α) (m : SMap α) (k : Nat) (v : α) (h : ∀ p ∈ m, p.1 ≠ k) : sget d (sins k v m) k = v := by
  induction m with
  | nil => simp [sins, sget]
  | cons p r ih =>
    obtain ⟨j, w⟩ := p
    have hj : j ≠ k := h (j, w) (by simp)
    by_cases hlt : k < j
    · simp [sins, hlt, sget]
    · simp only [sins, hlt, if_false, sget, hj]
      exact ih fun p hp => h p (by simp [hp])

/-- An insertion leaves the other keys. -/
theorem sget_sins_ne (d : Nat → α) (m : SMap α) {j k : Nat} (v : α) (h : j ≠ k) : sget d (sins j v m) k = sget d m k := by
  induction m with
  | nil => simp [sins, sget, h]
  | cons p r ih =>
    obtain ⟨i, w⟩ := p
    by_cases hlt : j < i
    · simp [sins, hlt, sget, h]
    · by_cases hk : i = k
      · subst hk; simp [sins, hlt, sget]
      · simp [sins, hlt, sget, hk, ih]

/-- A deleted key is not listed. -/
theorem sdel_not_mem (m : SMap α) (k : Nat) : ∀ p ∈ sdel m k, p.1 ≠ k := by
  induction m with
  | nil => simp [sdel]
  | cons p r ih =>
    obtain ⟨j, w⟩ := p
    by_cases h : j = k
    · simpa [sdel, h] using ih
    · intro q hq
      simp only [sdel, h, if_false, List.mem_cons] at hq
      rcases hq with rfl | hq
      · exact h
      · exact ih q hq

/-- A read after a write to the same key gives the value written. -/
@[simp] theorem sget_sset_self [DecidableEq α] (d : Nat → α) (m : SMap α) (k : Nat) (v : α) : sget d (sset d m k v) k = v := by
  unfold sset
  split
  · rename_i h; rw [sget_sdel_self, h]
  · exact sget_sins_self d _ k v (sdel_not_mem m k)

/-- A write leaves every other key alone. -/
theorem sget_sset_ne [DecidableEq α] (d : Nat → α) (m : SMap α) {j k : Nat} (v : α) (h : j ≠ k) :
    sget d (sset d m j v) k = sget d m k := by
  unfold sset
  split
  · exact sget_sdel_ne d m h
  · rw [sget_sins_ne d _ v h, sget_sdel_ne d m h]

/-- The two laws of a write as one. -/
theorem sget_sset [DecidableEq α] (d : Nat → α) (m : SMap α) (j k : Nat) (v : α) :
    sget d (sset d m j v) k = if j = k then v else sget d m k := by
  split
  · rename_i h; subst h; simp
  · rename_i h; exact sget_sset_ne d m v h

/-- A key in one of the dropped ranges reads as unlisted, and every other key as before. -/
theorem sget_sdrop (d : Nat → α) (rs : List (Nat × Nat)) (m : SMap α) (k : Nat) :
    sget d (sdrop rs m) k = if rs.any (fun r => decide (r.1 ≤ k) && decide (k ≤ r.2)) then d k else sget d m k := by
  induction m with
  | nil => simp [sdrop]
  | cons p r ih =>
    obtain ⟨j, w⟩ := p
    have ih' := ih
    unfold sdrop at ih' ⊢
    rw [List.filter_cons]
    by_cases hj : rs.any (fun r => decide (r.1 ≤ j) && decide (j ≤ r.2)) = true
    · simp only [hj, Bool.not_true, Bool.false_eq_true, if_false, ih']
      by_cases hk : j = k
      · subst hk; simp [hj]
      · simp [sget, hk]
    · simp only [hj, Bool.not_false, if_true, sget, ih']
      by_cases hk : j = k
      · subst hk; simp [hj]
      · simp [hk]

/-! ## The canonical form -/

/-- Every key of the list lies above `k`. -/
def Above (k : Nat) (m : SMap α) : Prop := ∀ p ∈ m, k < p.1

/-- Rising keys: the first lies below the rest, which rise. -/
theorem srising_cons (j : Nat) (v : α) (r : SMap α) : srising ((j, v) :: r) = true ↔ Above j r ∧ srising r = true := by
  induction r generalizing j v with
  | nil => simp [srising, Above]
  | cons p r ih =>
    obtain ⟨i, w⟩ := p
    simp only [srising, Bool.and_eq_true, decide_eq_true_eq]
    constructor
    · rintro ⟨h, hr⟩
      refine ⟨?_, hr⟩
      have := (ih i w).1 hr
      intro q hq
      rcases List.mem_cons.1 hq with rfl | hq
      · exact h
      · exact Nat.lt_trans h (this.1 q hq)
    · rintro ⟨h, hr⟩
      exact ⟨h (i, w) (by simp), hr⟩

/-- A filter keeps rising keys. -/
theorem srising_filter (f : Nat × α → Bool) (m : SMap α) (h : srising m = true) : srising (m.filter f) = true := by
  induction m with
  | nil => rfl
  | cons p r ih =>
    obtain ⟨j, v⟩ := p
    have h' := (srising_cons j v r).1 h
    rw [List.filter_cons]
    split
    · exact (srising_cons j v _).2 ⟨fun q hq => h'.1 q (List.mem_filter.1 hq).1, ih h'.2⟩
    · exact ih h'.2

/-- A deletion is a filter. -/
theorem sdel_eq_filter (m : SMap α) (k : Nat) : sdel m k = m.filter fun p => !decide (p.1 = k) := by
  induction m with
  | nil => rfl
  | cons p r ih => obtain ⟨j, w⟩ := p; by_cases h : j = k <;> simp [sdel, h, ih]

/-- An insertion adds one entry. -/
theorem mem_sins (k : Nat) (v : α) (m : SMap α) (p : Nat × α) : p ∈ sins k v m ↔ p = (k, v) ∨ p ∈ m := by
  induction m with
  | nil => simp [sins]
  | cons q r ih =>
    obtain ⟨j, w⟩ := q
    by_cases h : k < j
    · simp [sins, h]
    · simp only [sins, h, if_false, List.mem_cons, ih]; tauto

/-- An insertion of an unlisted key keeps rising keys. -/
theorem srising_sins (k : Nat) (v : α) (m : SMap α) (h : srising m = true) (hk : ∀ p ∈ m, p.1 ≠ k) : srising (sins k v m) = true := by
  induction m with
  | nil => rfl
  | cons q r ih =>
    obtain ⟨j, w⟩ := q
    have h' := (srising_cons j w r).1 h
    by_cases hlt : k < j
    · simp only [sins, hlt, if_true]
      refine (srising_cons k v _).2 ⟨?_, h⟩
      intro p hp
      rcases List.mem_cons.1 hp with rfl | hp
      · exact hlt
      · exact Nat.lt_trans hlt (h'.1 p hp)
    · have hjk : j < k := by
        have : j ≠ k := hk (j, w) (by simp)
        omega
      simp only [sins, hlt, if_false]
      refine (srising_cons j w _).2 ⟨?_, ih h'.2 fun p hp => hk p (by simp [hp])⟩
      intro p hp
      rcases (mem_sins k v r p).1 hp with rfl | hp
      · exact hjk
      · exact h'.1 p hp

/-- What the canonical form says. -/
theorem swf_iff [DecidableEq α] (d : Nat → α) (m : SMap α) : swf d m = true ↔ srising m = true ∧ ∀ p ∈ m, p.2 ≠ d p.1 := by
  simp [swf]

@[simp] theorem swf_nil [DecidableEq α] (d : Nat → α) : swf d ([] : SMap α) = true := rfl

/-- A write keeps the canonical form. -/
theorem swf_sset [DecidableEq α] (d : Nat → α) (m : SMap α) (k : Nat) (v : α) (h : swf d m = true) : swf d (sset d m k v) = true := by
  rw [swf_iff] at h ⊢
  have hd : srising (sdel m k) = true ∧ ∀ p ∈ sdel m k, p.2 ≠ d p.1 := by
    rw [sdel_eq_filter]
    exact ⟨srising_filter _ m h.1, fun p hp => h.2 p (List.mem_filter.1 hp).1⟩
  unfold sset
  split
  · exact hd
  · rename_i hv
    refine ⟨srising_sins k v _ hd.1 (sdel_not_mem m k), fun p hp => ?_⟩
    rcases (mem_sins k v _ p).1 hp with rfl | hp
    · exact hv
    · exact hd.2 p hp

/-- Dropping ranges keeps the canonical form. -/
theorem swf_sdrop [DecidableEq α] (d : Nat → α) (rs : List (Nat × Nat)) (m : SMap α) (h : swf d m = true) : swf d (sdrop rs m) = true := by
  rw [swf_iff] at h ⊢
  exact ⟨srising_filter _ m h.1, fun p hp => h.2 p (List.mem_filter.1 hp).1⟩

/-! ## Byte memories -/

/-- A write of bytes keeps the canonical form of a memory. -/
theorem writeBytes_wf (d : Nat → Byte) (m : List Host.Cell) (a : Nat) (bs : List Byte) (h : Memory.wf d m = true) :
    Memory.wf d (writeBytes d m a bs) = true := by
  induction bs generalizing m a with
  | nil => exact h
  | cons b r ih => exact ih _ _ (swf_sset d m a b h)

/-- Dropping ranges keeps the canonical form of a memory. -/
theorem Memory_wf_sdrop (d : Nat → Byte) (rs : List (Nat × Nat)) (m : List Host.Cell) (h : Memory.wf d m = true) :
    Memory.wf d (sdrop rs m) = true := swf_sdrop d rs m h

/-- What a byte reads as after a write of bytes: the byte written, inside; what it was, outside. -/
theorem readByte_writeBytes (d : Nat → Byte) (m : List Host.Cell) (a : Nat) (bs : List Byte) (k : Nat) :
    readByte d (writeBytes d m a bs) k = if a ≤ k ∧ k < a + bs.length then bs.getD (k - a) 0#8 else readByte d m k := by
  induction bs generalizing m a with
  | nil => simp [writeBytes]
  | cons b r ih =>
    rw [writeBytes, ih]
    unfold readByte
    rw [sget_sset]
    by_cases hk : a = k
    · subst hk; simp
    · by_cases h1 : a + 1 ≤ k ∧ k < a + 1 + r.length
      · have h2 : a ≤ k ∧ k < a + (b :: r).length := by simp only [List.length_cons]; omega
        obtain ⟨n, hn⟩ : ∃ n, k - a = n + 1 := ⟨k - a - 1, by omega⟩
        have : k - (a + 1) = n := by omega
        rw [if_pos h1, if_pos h2, hn, this]; simp
      · have h2 : ¬(a ≤ k ∧ k < a + (b :: r).length) := by simp only [List.length_cons]; omega
        rw [if_neg h1, if_neg h2, if_neg hk]

/-- Bytes outside a write read as before. -/
theorem readByte_writeBytes_outside (d : Nat → Byte) (m : List Host.Cell) (a : Nat) (bs : List Byte) (k : Nat)
    (h : k < a ∨ a + bs.length ≤ k) : readByte d (writeBytes d m a bs) k = readByte d m k := by
  rw [readByte_writeBytes, if_neg (by omega)]

end Sys2Proof.Machine
end

