-- ==== Sys2Proof/Laws/Act.lean ====
section
/-!
SUPPORT. How acts run, and what they keep: a property that every update keeps is kept by every act, and a part of the state that an act
does not update stays.
-/

namespace Sys2Proof.Machine

variable (s : State)

/-! ## Running an act -/

@[simp] theorem run_done : Act.done.run s = s := rfl
@[simp] theorem run_upd (u : Upd) (k : Act) : (Act.upd u k).run s = k.run (u.apply s) := rfl
@[simp] theorem run_look (k : State → Act) : (Act.look k).run s = (k s).run s := rfl

@[simp] theorem run_seq (a b : Act) : (a.seq b).run s = b.run (a.run s) := by
  induction a generalizing s with
  | done => rfl
  | upd u k ih => exact ih _
  | look k ih => exact ih s s

@[simp] theorem run_all_nil : (Act.all []).run s = s := rfl
@[simp] theorem run_all_cons (a : Act) (r : List Act) : (Act.all (a :: r)).run s = (Act.all r).run (a.run s) := by simp [Act.all]
@[simp] theorem run_each_nil {α : Type} (f : α → Act) : (Act.each [] f).run s = s := rfl
@[simp] theorem run_each_cons {α : Type} (x : α) (r : List α) (f : α → Act) : (Act.each (x :: r) f).run s = (Act.each r f).run ((f x).run s) := by
  simp [Act.each]

@[simp] theorem run_when (c : Bool) (a : Act) : (Act.when c a).run s = if c then a.run s else s := by
  cases c <;> rfl

@[simp] theorem run_whenS (c : State → Bool) (a : Act) : (Act.whenS c a).run s = if c s then a.run s else s := by
  simp [Act.whenS]

@[simp] theorem next_eq (a : Act) : a.next s = .next (a.run s) := rfl

theorem run_ite (c : Prop) [Decidable c] (a b : Act) : (if c then a else b).run s = if c then a.run s else b.run s := by
  split <;> rfl

/-! ## What acts keep -/

/-- A property that every update keeps is kept by every act. -/
theorem run_inv (P : State → Prop) (h : ∀ (u : Upd) (t : State), P t → P (u.apply t)) (a : Act) : P s → P (a.run s) := by
  induction a generalizing s with
  | done => exact id
  | upd u k ih => exact fun hs => ih _ (h u s hs)
  | look k ih => exact fun hs => ih s s hs

/-- The act leaves what `f` reads of the state. -/
def Keeps {β : Type} (f : State → β) (a : Act) : Prop := ∀ s, f (a.run s) = f s

section keeps
variable {β : Type} {f : State → β}

theorem keeps_done : Keeps f .done := fun _ => rfl

theorem keeps_upd {u : Upd} {k : Act} (hu : ∀ s, f (u.apply s) = f s) (hk : Keeps f k) : Keeps f (.upd u k) := fun s => by
  rw [run_upd, hk, hu]

theorem keeps_look {k : State → Act} (h : ∀ s, Keeps f (k s)) : Keeps f (.look k) := fun s => h s s

theorem keeps_seq {a b : Act} (ha : Keeps f a) (hb : Keeps f b) : Keeps f (a.seq b) := fun s => by rw [run_seq, hb, ha]

theorem keeps_all {l : List Act} (h : ∀ a ∈ l, Keeps f a) : Keeps f (.all l) := by
  induction l with
  | nil => exact keeps_done
  | cons a r ih => exact keeps_seq (h a (by simp)) (ih fun b hb => h b (by simp [hb]))

theorem keeps_each {α : Type} {l : List α} {g : α → Act} (h : ∀ x ∈ l, Keeps f (g x)) : Keeps f (.each l g) := by
  induction l with
  | nil => exact keeps_done
  | cons x r ih => exact keeps_seq (h x (by simp)) (ih fun y hy => h y (by simp [hy]))

theorem keeps_when {c : Bool} {a : Act} (h : Keeps f a) : Keeps f (.when c a) := by
  cases c
  · exact keeps_done
  · exact h

theorem keeps_whenS {c : State → Bool} {a : Act} (h : Keeps f a) : Keeps f (.whenS c a) := keeps_look fun _ => keeps_when h

theorem keeps_upto {n : Nat} {g : Nat → Act} (h : ∀ i, Keeps f (g i)) : Keeps f (.upto n g) := keeps_each fun i _ => h i

theorem keeps_ite {c : Prop} [Decidable c] {a b : Act} (ha : Keeps f a) (hb : Keeps f b) : Keeps f (if c then a else b) := by
  split <;> assumption

end keeps

/-! ## Acts that stay within a relation -/

/-- A relation that holds of a state with itself and passes along. -/
structure Preorder_ (R : State → State → Prop) : Prop where
  refl : ∀ s, R s s
  trans : ∀ {s t u}, R s t → R t u → R s u

/-- The state before the act and the state after it are related. -/
def Within (R : State → State → Prop) (a : Act) : Prop := ∀ s, R s (a.run s)

section within
variable {R : State → State → Prop} (o : Preorder_ R)
include o

theorem within_done : Within R .done := fun s => o.refl s

theorem within_upd {u : Upd} {k : Act} (hu : ∀ s, R s (u.apply s)) (hk : Within R k) : Within R (.upd u k) :=
  fun s => o.trans (hu s) (hk _)

omit o in
theorem within_look {k : State → Act} (h : ∀ s, Within R (k s)) : Within R (.look k) := fun s => h s s

theorem within_seq {a b : Act} (ha : Within R a) (hb : Within R b) : Within R (a.seq b) := fun s => by
  rw [run_seq]; exact o.trans (ha s) (hb _)

theorem within_all_nil : Within R (.all []) := within_done o

theorem within_all_cons {a : Act} {r : List Act} (ha : Within R a) (hr : Within R (.all r)) : Within R (.all (a :: r)) :=
  within_seq o ha hr

theorem within_each {α : Type} {l : List α} {g : α → Act} (h : ∀ x ∈ l, Within R (g x)) : Within R (.each l g) := by
  induction l with
  | nil => exact within_done o
  | cons x r ih => exact within_seq o (h x (by simp)) (ih fun y hy => h y (by simp [hy]))

theorem within_when {c : Bool} {a : Act} (h : c = true → Within R a) : Within R (.when c a) := by
  cases c
  · exact within_done o
  · exact h rfl

theorem within_whenS {c : State → Bool} {a : Act} (h : Within R a) : Within R (.whenS c a) := within_look fun _ => within_when o fun _ => h

theorem within_upto {n : Nat} {g : Nat → Act} (h : ∀ i, i < n → Within R (g i)) : Within R (.upto n g) :=
  within_each o fun i hi => h i (List.mem_range.1 hi)

omit o in
theorem within_ite {c : Prop} [Decidable c] {a b : Act} (ha : c → Within R a) (hb : ¬c → Within R b) : Within R (if c then a else b) := by
  split <;> rename_i h
  · exact ha h
  · exact hb h

end within

/-- The waiting commands are no act's business. -/
theorem keeps_pending (a : Act) : Keeps (·.pending) a := fun s =>
  run_inv s (fun t => t.pending = s.pending) (fun u _ h => by cases u <;> exact h) a rfl

end Sys2Proof.Machine
end

