-- ==== Sys2Proof/Laws/Exec.lean ====
section
/-!
SUPPORT. Every command runs as an act: what acts keep, commands keep.
-/

namespace Sys2Proof.Machine

/-- Every command's outcome is the state after an act. -/
theorem exec_run (c : Instr) (s : State) : ∃ a : Act, exec c s = .next (a.run s) := by
  cases c <;> exact ⟨_, rfl⟩

end Sys2Proof.Machine
end

