-- ==== Sys2Proof/Laws/Ops.lean ====
section
/-!
SUPPORT. The register operations: what each writes, and that it writes nothing else.
-/

namespace Sys2Proof.Machine

variable (s : State)

/-- A register after an update of a register. -/
theorem rd_upd_reg (a : Nat) (v : Word) (b : Nat) : rd ((Upd.reg a v).apply s) b = if a = b then v else rd s b := sget_sset _ _ _ _ _

/-- Registers stay under an update of another part. -/
theorem rd_congr {s t : State} (h : t.regs = s.regs) (a : Nat) : rd t a = rd s a := by unfold rd; rw [h]

/-- `wr` writes one register. -/
theorem rd_wr (a : Nat) (v : Word) (b : Nat) : rd ((wr a v).run s) b = if a = b then v else rd s b := rd_upd_reg s a v b

@[simp] theorem rd_wr_self (a : Nat) (v : Word) : rd ((wr a v).run s) a = v := by simp [rd_wr]

theorem rd_wr_ne {a b : Nat} (h : a ≠ b) (v : Word) : rd ((wr a v).run s) b = rd s b := by simp [rd_wr, h]

theorem run_wrNat (a x : Nat) : (wrNat a x).run s = (wr a (BitVec.ofNat 32 x)).run s := rfl
theorem run_setFld (a hi lo x : Nat) : (setFld a hi lo x).run s = (wr a (putBits (rd s a) hi lo x)).run s := rfl
theorem run_setBit (a i : Nat) : (setBit a i).run s = (wr a (rd s a ||| BitVec.twoPow 32 i)).run s := rfl
theorem run_clrBit (a i : Nat) : (clrBit a i).run s = (wr a (rd s a &&& ~~~(BitVec.twoPow 32 i))).run s := rfl
theorem run_bump (a hi lo n : Nat) : (bump a hi lo n).run s =
    (wr a (putBits (rd s a) hi lo (min (fld s a hi lo + n) (2 ^ (hi + 1 - lo) - 1)))).run s := rfl

/-- Registers in a dropped range read as at reset; the others stay. -/
theorem rd_dropRegs (rs : List (Nat × Nat)) (b : Nat) : rd ((dropRegs rs).run s) b =
    if rs.any (fun r => decide (r.1 ≤ b) && decide (b ≤ r.2)) then regReset b else rd s b := sget_sdrop _ _ _ _

/-- The listed registers read as at reset; the others stay. -/
theorem rd_clearRegs (l : List Nat) (b : Nat) : rd ((clearRegs l).run s) b = if b ∈ l then regReset b else rd s b := by
  unfold clearRegs
  rw [rd_dropRegs]
  have h : (l.map fun a => (a, a)).any (fun r => decide (r.1 ≤ b) && decide (b ≤ r.2)) = true ↔ b ∈ l := by
    simp only [List.any_map, List.any_eq_true, Function.comp, Bool.and_eq_true, decide_eq_true_eq]
    constructor
    · rintro ⟨x, hx, h1, h2⟩; obtain rfl : x = b := by omega
      exact hx
    · exact fun hb => ⟨b, hb, by omega, by omega⟩
  by_cases hb : b ∈ l
  · rw [if_pos (h.2 hb), if_pos hb]
  · rw [if_neg (fun hh => hb (h.1 hh)), if_neg hb]

/-! ## Fields -/

/-- A bit of a register after `setBit`. -/
theorem bit_setBit (a i b j : Nat) (hi : i < 32) : bit ((setBit a i).run s) b j = (bit s b j || (decide (a = b) && decide (i = j))) := by
  unfold bit
  rw [run_setBit, rd_wr]
  by_cases hab : a = b
  · subst hab; simp [BitVec.getLsbD_twoPow, hi]
  · simp [hab]

/-- A bit of a register after `clrBit`. -/
theorem bit_clrBit (a i b j : Nat) : bit ((clrBit a i).run s) b j = (bit s b j && !(decide (a = b) && decide (i = j))) := by
  unfold bit
  rw [run_clrBit, rd_wr]
  by_cases hab : a = b
  · subst hab
    by_cases hij : i = j
    · subst hij
      by_cases hi : i < 32
      · simp [hi]
      · simp [BitVec.getLsbD_of_ge _ _ (Nat.le_of_not_lt hi)]
    · by_cases hj : j < 32
      · simp [hj, hij]; exact fun _ e => hij e.symm
      · simp [BitVec.getLsbD_of_ge _ _ (Nat.le_of_not_lt hj)]
  · simp [hab]

/-! ## What the register operations keep -/

section keeps
variable {β : Type} {f : State → β} (h : ∀ (s : State) a v, f ((Upd.reg a v).apply s) = f s)
include h

theorem keeps_wr (a : Nat) (v : Word) : Keeps f (wr a v) := fun s => h s a v
theorem keeps_setFld (a hi lo x : Nat) : Keeps f (setFld a hi lo x) := fun s => h s a _
theorem keeps_setBit (a i : Nat) : Keeps f (setBit a i) := fun s => h s a _
theorem keeps_clrBit (a i : Nat) : Keeps f (clrBit a i) := fun s => h s a _
theorem keeps_bump (a hi lo n : Nat) : Keeps f (bump a hi lo n) := fun s => h s a _
theorem keeps_putBit (a i : Nat) (b : Bool) : Keeps f (putBit a i b) := by
  cases b
  · exact keeps_clrBit h a i
  · exact keeps_setBit h a i

end keeps

end Sys2Proof.Machine
end

