-- ==== Sys2Proof/Laws/Raise.lean ====
section
/-!
SUPPORT. What an event can do (`raise`): the Umpire's counters and records, parks with the Line Call windows they end, block resets, the safe
state, a reset request. Every other part of the state stays, and so does every register outside `raiseReg`.
-/

namespace Sys2Proof.Machine

/-- Registers an event and its reactions can touch: CLK_EVT, CLK_DSTAT, the RST, UMP, CMD, PCI, EDL, EML, ENG, CLU, ETH and MS blocks, the tiles'
control and status, the recorder's, NVM_FLOG, the MSI-X tables, and the keys that stand behind registers. -/
def raiseReg (a : Nat) : Bool :=
  a == 0x1004 || decide (0x1100 ≤ a ∧ a < 0x1200) || decide (0x2000 ≤ a ∧ a < 0x2024) || decide (0x5000 ≤ a ∧ a < 0x6000) || a == 0x702C ||
  decide (0x100000 ≤ a ∧ a < 0x102000) || decide (0x120000 ≤ a ∧ a < 0x122000) ||
  (decide (0x140000 ≤ a ∧ a < 0x140300) && (a % 0x40 == 0 || a % 0x40 == 4 || a % 0x40 == 0x2C)) ||
  decide (0x200000 ≤ a ∧ a < 0x2C0000) || decide (0x300000 ≤ a ∧ a < 0x302000) || decide (0x310000 ≤ a ∧ a < 0x311000) ||
  a == 0x330008 || decide (0x33003C ≤ a ∧ a < 0x330054) || decide (0x400000 ≤ a ∧ a < 0x403000) ||
  decide (0x404000 ≤ a ∧ a < 0x410000) || decide (0x4000000 ≤ a)

/-- Bytes of the engine memories that an event can touch: the result buffers of the injected sequences. -/
def raiseByte (k : Nat) : Bool := decide (0x2000000 ≤ k) && decide (0xFFF80 ≤ k % 0x100000)

/-- What stays when an event is raised. -/
structure RaiseRel (s t : State) : Prop where
  regs : ∀ a, raiseReg a = false → rd t a = rd s a
  mem : ∀ k, raiseByte k = false → readByte memBlank t.mem k = readByte memBlank s.mem k
  parts : t = { s with
    regs := t.regs, mem := t.mem, hbm := t.hbm, outs := t.outs, rep := t.rep, net := t.net, ump := t.ump,
    clk := { s.clk with req := t.clk.req, lost := t.clk.lost, saved := t.clk.saved, resync := t.clk.resync },
    nvm := { s.nvm with flog := t.nvm.flog },
    pipe := { s.pipe with wins := t.pipe.wins },
    host := { s.host with evq := t.host.evq, evDrop := t.host.evDrop, logNext := t.host.logNext, pairs := t.host.pairs },
    lane := { s.lane with
      tiles := t.lane.tiles, lanes := t.lane.lanes, tones := t.lane.tones, groups := t.lane.groups, slices := t.lane.slices,
      frz := t.lane.frz, lastCode := t.lane.lastCode },
    eng := { s.eng with
      engs := t.eng.engs, smpRead := t.eng.smpRead, smpFill := t.eng.smpFill, drvEmit := t.eng.drvEmit,
      drvFill := t.eng.drvFill, tonePend := t.eng.tonePend, toneDue := t.eng.toneDue,
      ect := t.eng.ect } }

theorem raiseRel_order : Preorder_ RaiseRel where
  refl s := ⟨fun _ _ => rfl, fun _ _ => rfl, rfl⟩
  trans {s t u} h1 h2 := ⟨fun a h => (h2.regs a h).trans (h1.regs a h), fun k h => (h2.mem k h).trans (h1.mem k h), by
    have e1 := h1.parts
    have e2 := h2.parts
    rw [e1] at e2
    exact e2⟩

/-- A register update stays within the relation where the register is one that events touch. -/
theorem raiseRel_reg {a : Nat} (v : Word) (h : raiseReg a = true) (s : State) : RaiseRel s ((Upd.reg a v).apply s) :=
  ⟨fun b hb => (by rw [rd_upd_reg, if_neg]; rintro rfl; rw [h] at hb; exact absurd hb (by decide)), fun _ _ => rfl, rfl⟩

theorem raiseRel_wr {a : Nat} (v : Word) (h : raiseReg a = true) : Within RaiseRel (wr a v) := fun s => raiseRel_reg v h s
theorem raiseRel_wrNat {a x : Nat} (h : raiseReg a = true) : Within RaiseRel (wrNat a x) := fun s => raiseRel_reg _ h s
theorem raiseRel_wrPair {a b x : Nat} (h : raiseReg a = true) (h' : raiseReg b = true) : Within RaiseRel (wrPair a b x) :=
  within_all_cons raiseRel_order (raiseRel_wrNat h) (within_all_cons raiseRel_order (raiseRel_wrNat h') (within_all_nil raiseRel_order))
theorem raiseRel_setFld {a hi lo x : Nat} (h : raiseReg a = true) : Within RaiseRel (setFld a hi lo x) := fun s => raiseRel_reg _ h s
theorem raiseRel_setBit {a i : Nat} (h : raiseReg a = true) : Within RaiseRel (setBit a i) := fun s => raiseRel_reg _ h s
theorem raiseRel_clrBit {a i : Nat} (h : raiseReg a = true) : Within RaiseRel (clrBit a i) := fun s => raiseRel_reg _ h s
theorem raiseRel_putBit {a i : Nat} {b : Bool} (h : raiseReg a = true) : Within RaiseRel (putBit a i b) := by
  cases b
  · exact raiseRel_clrBit h
  · exact raiseRel_setBit h
theorem raiseRel_bump {a hi lo n : Nat} (h : raiseReg a = true) : Within RaiseRel (bump a hi lo n) := fun s => raiseRel_reg _ h s

/-! ## Updates of the other parts -/

theorem raiseRel_updUmp (f : UmpSt → UmpSt) : Within RaiseRel (updUmp f) := fun _ => ⟨fun _ _ => rfl, fun _ _ => rfl, rfl⟩
theorem raiseRel_updRep (f : RepSt → RepSt) : Within RaiseRel (updRep f) := fun _ => ⟨fun _ _ => rfl, fun _ _ => rfl, rfl⟩
theorem raiseRel_updNet (f : NetSt → NetSt) : Within RaiseRel (updNet f) := fun _ => ⟨fun _ _ => rfl, fun _ _ => rfl, rfl⟩
theorem raiseRel_emit (o : Out) : Within RaiseRel (emit o) := fun _ => ⟨fun _ _ => rfl, fun _ _ => rfl, rfl⟩
theorem raiseRel_writeHbm (a : Nat) (bs : List Byte) : Within RaiseRel (writeHbm a bs) := fun _ => ⟨fun _ _ => rfl, fun _ _ => rfl, rfl⟩
theorem raiseRel_updTile (n : Nat) (f : TileLink → TileLink) : Within RaiseRel (updTile n f) := fun _ => ⟨fun _ _ => rfl, fun _ _ => rfl, rfl⟩
theorem raiseRel_updGroup (n : Nat) (f : Group → Group) : Within RaiseRel (updGroup n f) := fun _ => ⟨fun _ _ => rfl, fun _ _ => rfl, rfl⟩
theorem raiseRel_queueLog (e : FlogEntry) : Within RaiseRel (queueLog e) := within_look fun s => by
  apply within_ite <;> intro _
  · exact raiseRel_bump rfl
  · exact fun _ => ⟨fun _ _ => rfl, fun _ _ => rfl, rfl⟩
theorem raiseRel_pushEventQ (q : Nat) (e : EvRec) : Within RaiseRel (pushEventQ q e) := fun s => by
  have h : (pushEventQ q e).run s = { s with host := { s.host with
      evq := ((pushEventQ q e).run s).host.evq, evDrop := ((pushEventQ q e).run s).host.evDrop } } := by
    simp only [pushEventQ, updHost, run_look, run_upd, run_done]
    by_cases hl : (sget (fun _ => []) s.host.evq q).length < 256
    · simp [hl, Upd.apply]
    · simp [hl, Upd.apply]
  rw [h]
  exact ⟨fun _ _ => rfl, fun _ _ => rfl, rfl⟩

/-! ## Shared operations -/

theorem raiseRel_logEvent (e : EvRec) : Within RaiseRel (logEvent e) := within_look fun _ =>
  within_when raiseRel_order fun _ => within_all_cons raiseRel_order (raiseRel_writeHbm _ _)
    (within_all_cons raiseRel_order (fun _ => ⟨fun _ _ => rfl, fun _ _ => rfl, rfl⟩) (within_all_nil raiseRel_order))

theorem raiseRel_pushEvent (e : EvRec) : Within RaiseRel (pushEvent e) :=
  within_all_cons raiseRel_order (raiseRel_pushEventQ _ _) (within_all_cons raiseRel_order
    (within_when raiseRel_order fun _ => raiseRel_pushEventQ _ _)
    (within_all_cons raiseRel_order (raiseRel_logEvent e) (within_all_nil raiseRel_order)))

/-- An update of the clock state that names only what events touch. -/
theorem raiseRel_updClk (f : ClkSt → ClkSt) (h : ∀ c, f c = { c with req := (f c).req, lost := (f c).lost, saved := (f c).saved, resync := (f c).resync }) :
    Within RaiseRel (updClk f) := fun s => ⟨fun _ _ => rfl, fun _ _ => rfl, by
  simp only [updClk, run_look, run_upd, run_done, Upd.apply]; rw [← h s.clk]⟩

theorem raiseRel_replayTrigger (c n : Nat) : Within RaiseRel (replayTrigger c n) := by
  unfold replayTrigger
  repeat' first
    | with_reducible exact within_all_nil raiseRel_order | with_reducible exact within_done raiseRel_order
    | with_reducible refine within_all_cons raiseRel_order ?_ ?_ | with_reducible refine within_whenS raiseRel_order ?_
    | with_reducible refine within_seq raiseRel_order ?_ ?_ | with_reducible refine within_look fun s => ?_
    | with_reducible refine within_when raiseRel_order fun hc => ?_ | with_reducible refine within_upto raiseRel_order fun i hi => ?_
    | with_reducible refine within_each raiseRel_order fun x hx => ?_
    | with_reducible refine within_ite (fun hc => ?_) (fun hc => ?_) | with_reducible refine raiseRel_setBit ?_
    | with_reducible refine raiseRel_clrBit ?_ | with_reducible refine raiseRel_setFld ?_ | with_reducible refine raiseRel_wrNat ?_
    | with_reducible refine raiseRel_wr _ ?_ | with_reducible refine raiseRel_putBit ?_ | with_reducible refine raiseRel_bump ?_
    | with_reducible refine raiseRel_wrPair ?_ ?_ | with_reducible exact raiseRel_updRep _ | with_reducible exact raiseRel_updUmp _
    | with_reducible exact raiseRel_updNet _ | with_reducible exact raiseRel_queueLog _ | with_reducible exact raiseRel_pushEvent _
    | with_reducible exact raiseRel_emit _ | with_reducible refine raiseRel_updClk _ ?_
  all_goals first | rfl

theorem raiseRel_capture (o : Occ) : Within RaiseRel (capture o) := by
  unfold capture
  repeat' first
    | with_reducible exact within_all_nil raiseRel_order | with_reducible exact within_done raiseRel_order
    | with_reducible refine within_all_cons raiseRel_order ?_ ?_ | with_reducible refine within_whenS raiseRel_order ?_
    | with_reducible refine within_seq raiseRel_order ?_ ?_ | with_reducible refine within_look fun s => ?_
    | with_reducible refine within_when raiseRel_order fun hc => ?_ | with_reducible refine within_upto raiseRel_order fun i hi => ?_
    | with_reducible refine within_each raiseRel_order fun x hx => ?_
    | with_reducible refine within_ite (fun hc => ?_) (fun hc => ?_) | with_reducible refine raiseRel_setBit ?_
    | with_reducible refine raiseRel_clrBit ?_ | with_reducible refine raiseRel_setFld ?_ | with_reducible refine raiseRel_wrNat ?_
    | with_reducible refine raiseRel_wr _ ?_ | with_reducible refine raiseRel_putBit ?_ | with_reducible refine raiseRel_bump ?_
    | with_reducible refine raiseRel_wrPair ?_ ?_ | with_reducible exact raiseRel_updRep _ | with_reducible exact raiseRel_updUmp _
    | with_reducible exact raiseRel_updNet _ | with_reducible exact raiseRel_queueLog _ | with_reducible exact raiseRel_pushEvent _
    | with_reducible exact raiseRel_emit _ | with_reducible refine raiseRel_updClk _ ?_
  all_goals first | rfl

theorem raiseRel_umpireReset (n : Nat) : Within RaiseRel (umpireReset n) := by
  unfold umpireReset resetRequest
  repeat' first
    | with_reducible exact within_all_nil raiseRel_order | with_reducible exact within_done raiseRel_order
    | with_reducible refine within_all_cons raiseRel_order ?_ ?_ | with_reducible refine within_whenS raiseRel_order ?_
    | with_reducible refine within_seq raiseRel_order ?_ ?_ | with_reducible refine within_look fun s => ?_
    | with_reducible refine within_when raiseRel_order fun hc => ?_ | with_reducible refine within_upto raiseRel_order fun i hi => ?_
    | with_reducible refine within_each raiseRel_order fun x hx => ?_
    | with_reducible refine within_ite (fun hc => ?_) (fun hc => ?_) | with_reducible refine raiseRel_setBit ?_
    | with_reducible refine raiseRel_clrBit ?_ | with_reducible refine raiseRel_setFld ?_ | with_reducible refine raiseRel_wrNat ?_
    | with_reducible refine raiseRel_wr _ ?_ | with_reducible refine raiseRel_putBit ?_ | with_reducible refine raiseRel_bump ?_
    | with_reducible refine raiseRel_wrPair ?_ ?_ | with_reducible exact raiseRel_updRep _ | with_reducible exact raiseRel_updUmp _
    | with_reducible exact raiseRel_updNet _ | with_reducible exact raiseRel_queueLog _ | with_reducible exact raiseRel_pushEvent _
    | with_reducible exact raiseRel_emit _ | with_reducible refine raiseRel_updClk _ ?_
  all_goals first | rfl | exact fun _ => rfl

/-- Which registers of a tile events touch. -/
theorem raiseReg_tile {t : Nat} (ht : t < 12) :
    raiseReg (A.tileStat t) = true ∧ raiseReg (A.tileCtrl t) = true ∧ raiseReg (A.parkCtrl t) = true := by
  interval_cases t <;> decide

/-- A park marks the Line Call windows of the tile's outputs, and nothing else of the pipeline. -/
theorem raiseRel_updWins (f : PipeSt → PipeSt) (h : ∀ p, f p = { p with wins := (f p).wins }) : Within RaiseRel (updPipe f) := fun s =>
  ⟨fun _ _ => rfl, fun _ _ => rfl, by simp only [updPipe, run_look, run_upd, run_done, Upd.apply]; rw [← h s.pipe]⟩

theorem raiseRel_assertHold {t : Nat} (ht : t < 12) : Within RaiseRel (assertHold t) := by
  unfold assertHold
  have h := (raiseReg_tile ht).1
  repeat' first
    | with_reducible exact within_all_nil raiseRel_order | with_reducible exact within_done raiseRel_order
    | with_reducible refine within_all_cons raiseRel_order ?_ ?_ | with_reducible refine within_whenS raiseRel_order ?_
    | with_reducible refine within_seq raiseRel_order ?_ ?_ | with_reducible refine within_look fun s => ?_
    | with_reducible refine within_when raiseRel_order fun hc => ?_ | with_reducible refine within_upto raiseRel_order fun i hi => ?_
    | with_reducible refine within_each raiseRel_order fun x hx => ?_
    | with_reducible refine within_ite (fun hc => ?_) (fun hc => ?_) | with_reducible refine raiseRel_setBit ?_
    | with_reducible refine raiseRel_clrBit ?_ | with_reducible refine raiseRel_setFld ?_ | with_reducible refine raiseRel_wrNat ?_
    | with_reducible refine raiseRel_wr _ ?_ | with_reducible refine raiseRel_putBit ?_ | with_reducible refine raiseRel_bump ?_
    | with_reducible refine raiseRel_wrPair ?_ ?_ | with_reducible exact raiseRel_updRep _ | with_reducible exact raiseRel_updUmp _
    | with_reducible exact raiseRel_updNet _ | with_reducible exact raiseRel_queueLog _ | with_reducible exact raiseRel_pushEvent _
    | with_reducible exact raiseRel_emit _ | with_reducible refine raiseRel_updClk _ ?_ | with_reducible exact raiseRel_updTile _ _
    | with_reducible refine raiseRel_updWins _ ?_
  all_goals first | rfl | exact h | exact fun _ => rfl

theorem raiseRel_refreshFault {t : Nat} (ht : t < 12) : Within RaiseRel (refreshFault t) := by
  unfold refreshFault
  have h := (raiseReg_tile ht).1
  repeat' first
    | with_reducible exact within_all_nil raiseRel_order | with_reducible exact within_done raiseRel_order
    | with_reducible refine within_all_cons raiseRel_order ?_ ?_ | with_reducible refine within_whenS raiseRel_order ?_
    | with_reducible refine within_seq raiseRel_order ?_ ?_ | with_reducible refine within_look fun s => ?_
    | with_reducible refine within_when raiseRel_order fun hc => ?_ | with_reducible refine within_upto raiseRel_order fun i hi => ?_
    | with_reducible refine within_each raiseRel_order fun x hx => ?_
    | with_reducible refine within_ite (fun hc => ?_) (fun hc => ?_) | with_reducible refine raiseRel_setBit ?_
    | with_reducible refine raiseRel_clrBit ?_ | with_reducible refine raiseRel_setFld ?_ | with_reducible refine raiseRel_wrNat ?_
    | with_reducible refine raiseRel_wr _ ?_ | with_reducible refine raiseRel_putBit ?_ | with_reducible refine raiseRel_bump ?_
    | with_reducible refine raiseRel_wrPair ?_ ?_ | with_reducible exact raiseRel_updRep _ | with_reducible exact raiseRel_updUmp _
    | with_reducible exact raiseRel_updNet _ | with_reducible exact raiseRel_queueLog _ | with_reducible exact raiseRel_pushEvent _
    | with_reducible exact raiseRel_emit _ | with_reducible refine raiseRel_updClk _ ?_ | with_reducible exact raiseRel_assertHold ht
  all_goals first | rfl | exact h

theorem raiseRel_parkTile {t : Nat} (ht : t < 12) : Within RaiseRel (parkTile t) := by
  unfold parkTile
  have h := raiseReg_tile ht
  repeat' first
    | with_reducible exact within_all_nil raiseRel_order | with_reducible exact within_done raiseRel_order
    | with_reducible refine within_all_cons raiseRel_order ?_ ?_ | with_reducible refine within_whenS raiseRel_order ?_
    | with_reducible refine within_seq raiseRel_order ?_ ?_ | with_reducible refine within_look fun s => ?_
    | with_reducible refine within_when raiseRel_order fun hc => ?_ | with_reducible refine within_upto raiseRel_order fun i hi => ?_
    | with_reducible refine within_each raiseRel_order fun x hx => ?_
    | with_reducible refine within_ite (fun hc => ?_) (fun hc => ?_) | with_reducible refine raiseRel_setBit ?_
    | with_reducible refine raiseRel_clrBit ?_ | with_reducible refine raiseRel_setFld ?_ | with_reducible refine raiseRel_wrNat ?_
    | with_reducible refine raiseRel_wr _ ?_ | with_reducible refine raiseRel_putBit ?_ | with_reducible refine raiseRel_bump ?_
    | with_reducible refine raiseRel_wrPair ?_ ?_ | with_reducible exact raiseRel_updRep _ | with_reducible exact raiseRel_updUmp _
    | with_reducible exact raiseRel_updNet _ | with_reducible exact raiseRel_queueLog _ | with_reducible exact raiseRel_pushEvent _
    | with_reducible exact raiseRel_emit _ | with_reducible refine raiseRel_updClk _ ?_ | with_reducible exact raiseRel_assertHold ht
    | with_reducible exact raiseRel_refreshFault ht
  all_goals first | rfl | exact h.1 | exact h.2.1

theorem raiseRel_freshLink {t : Nat} (ht : t < 12) : Within RaiseRel (freshLink t) := by
  unfold freshLink
  have h := raiseReg_tile ht
  repeat' first
    | with_reducible exact within_all_nil raiseRel_order | with_reducible exact within_done raiseRel_order
    | with_reducible refine within_all_cons raiseRel_order ?_ ?_ | with_reducible refine within_whenS raiseRel_order ?_
    | with_reducible refine within_seq raiseRel_order ?_ ?_ | with_reducible refine within_look fun s => ?_
    | with_reducible refine within_when raiseRel_order fun hc => ?_ | with_reducible refine within_upto raiseRel_order fun i hi => ?_
    | with_reducible refine within_each raiseRel_order fun x hx => ?_
    | with_reducible refine within_ite (fun hc => ?_) (fun hc => ?_) | with_reducible refine raiseRel_setBit ?_
    | with_reducible refine raiseRel_clrBit ?_ | with_reducible refine raiseRel_setFld ?_ | with_reducible refine raiseRel_wrNat ?_
    | with_reducible refine raiseRel_wr _ ?_ | with_reducible refine raiseRel_putBit ?_ | with_reducible refine raiseRel_bump ?_
    | with_reducible refine raiseRel_wrPair ?_ ?_ | with_reducible exact raiseRel_updRep _ | with_reducible exact raiseRel_updUmp _
    | with_reducible exact raiseRel_updNet _ | with_reducible exact raiseRel_queueLog _ | with_reducible exact raiseRel_pushEvent _
    | with_reducible exact raiseRel_emit _ | with_reducible refine raiseRel_updClk _ ?_ | with_reducible exact raiseRel_updTile _ _
  all_goals first | rfl | exact h.1 | exact h.2.2

theorem raiseRel_replayReport {again : Occ → Act} (ha : ∀ o, Within RaiseRel (again o)) (c n : Nat) : Within RaiseRel (replayReport again c n) :=
  within_look fun _ => within_all_cons raiseRel_order (raiseRel_replayTrigger _ _)
    (within_all_cons raiseRel_order (within_whenS raiseRel_order (ha _)) (within_all_nil raiseRel_order))

theorem raiseRel_safeEntry {again : Occ → Act} (ha : ∀ o, Within RaiseRel (again o)) (c : Nat) (n : Option Nat) :
    Within RaiseRel (safeEntry again c n) := by
  unfold safeEntry
  cases n
  all_goals
    repeat' first
      | with_reducible exact within_all_nil raiseRel_order | with_reducible exact within_done raiseRel_order
      | with_reducible refine within_all_cons raiseRel_order ?_ ?_ | with_reducible refine within_whenS raiseRel_order ?_
      | with_reducible refine within_seq raiseRel_order ?_ ?_ | with_reducible refine within_look fun s => ?_
      | with_reducible refine within_when raiseRel_order fun hc => ?_ | with_reducible refine within_upto raiseRel_order fun i hi => ?_
      | with_reducible refine within_each raiseRel_order fun x hx => ?_
      | with_reducible refine within_ite (fun hc => ?_) (fun hc => ?_) | with_reducible refine raiseRel_setBit ?_
      | with_reducible refine raiseRel_clrBit ?_ | with_reducible refine raiseRel_setFld ?_ | with_reducible refine raiseRel_wrNat ?_
      | with_reducible refine raiseRel_wr _ ?_ | with_reducible refine raiseRel_putBit ?_ | with_reducible refine raiseRel_bump ?_
      | with_reducible refine raiseRel_wrPair ?_ ?_ | with_reducible exact raiseRel_updRep _ | with_reducible exact raiseRel_updUmp _
      | with_reducible exact raiseRel_updNet _ | with_reducible exact raiseRel_queueLog _ | with_reducible exact raiseRel_pushEvent _
      | with_reducible exact raiseRel_emit _ | with_reducible refine raiseRel_updClk _ ?_
      | with_reducible exact raiseRel_replayReport ha _ _ | with_reducible exact raiseRel_refreshFault hi
    all_goals first | rfl

/-- A write of bytes that events can touch. -/
theorem raiseRel_writeMem (a : Nat) (bs : List Byte) (h : ∀ k, raiseByte k = false → k < a ∨ a + bs.length ≤ k) :
    Within RaiseRel (writeMem a bs) := fun s =>
  ⟨fun _ _ => rfl, fun k hk => readByte_writeBytes_outside memBlank s.mem a bs k (h k hk), rfl⟩

theorem raiseRel_writeResult (t i : Nat) (w : Word) (hi : i < 32) : Within RaiseRel (writeMemWord (injResult t i) w) := by
  unfold writeMemWord
  refine raiseRel_writeMem _ _ fun k hk => ?_
  simp only [raiseByte, Bool.and_eq_false_iff, decide_eq_false_iff_not, natLe, List.length_cons, List.length_nil] at hk ⊢
  unfold injResult
  omega

theorem raiseRel_injStart {t : Nat} (ht : t < 12) : Within RaiseRel (injStart t) := by
  unfold injStart
  have hreg : raiseReg (grpStat t) = true := by interval_cases t <;> decide
  repeat' first
    | with_reducible exact within_all_nil raiseRel_order | with_reducible exact within_done raiseRel_order
    | with_reducible refine within_all_cons raiseRel_order ?_ ?_ | with_reducible refine within_whenS raiseRel_order ?_
    | with_reducible refine within_seq raiseRel_order ?_ ?_ | with_reducible refine within_look fun s => ?_
    | with_reducible refine within_when raiseRel_order fun hc => ?_ | with_reducible refine within_upto raiseRel_order fun i hi => ?_
    | with_reducible refine within_each raiseRel_order fun x hx => ?_
    | with_reducible refine within_ite (fun hc => ?_) (fun hc => ?_) | with_reducible refine raiseRel_setBit ?_
    | with_reducible refine raiseRel_clrBit ?_ | with_reducible refine raiseRel_setFld ?_ | with_reducible refine raiseRel_wrNat ?_
    | with_reducible refine raiseRel_wr _ ?_ | with_reducible refine raiseRel_putBit ?_ | with_reducible refine raiseRel_bump ?_
    | with_reducible refine raiseRel_wrPair ?_ ?_ | with_reducible exact raiseRel_updRep _ | with_reducible exact raiseRel_updUmp _
    | with_reducible exact raiseRel_updNet _ | with_reducible exact raiseRel_queueLog _ | with_reducible exact raiseRel_pushEvent _
    | with_reducible exact raiseRel_emit _ | with_reducible refine raiseRel_updClk _ ?_ | with_reducible exact raiseRel_updGroup _ _
    | with_reducible exact raiseRel_writeResult _ _ _ hi
  all_goals first | rfl | exact hreg

/-- The domains that a block reset of an Umpire source resets. -/
theorem sourceDomains_cases {n d : Nat} (h : d ∈ sourceDomains n) : d < 12 ∨ (15 ≤ d ∧ d < 39) ∨ (44 ≤ d ∧ d < 48) ∨ d = 57 ∨ d = 58 := by
  unfold sourceDomains at h
  split at h <;> [skip; split at h <;> [skip; split at h <;> [skip; split at h <;> [skip; split at h <;> [skip; split at h]]]]] <;>
    simp at h <;> omega

/-- The registers of those domains are registers that events touch. -/
theorem domKeys_raiseReg {n d : Nat} (h : d ∈ sourceDomains n) {r : Nat × Nat} (hr : r ∈ domKeys d) {a : Nat} (h1 : r.1 ≤ a) (h2 : a ≤ r.2) :
    raiseReg a = true := by
  have big : 0x4000000 ≤ a → raiseReg a = true := fun hb => by
    have : decide (0x4000000 ≤ a) = true := by simpa using hb
    simp only [raiseReg, this, Bool.or_true]
  have own : ∀ x ∈ domRegs d, x.1 ≤ a → a ≤ x.2 → raiseReg a = true := by
    intro x hx h1 h2
    rcases sourceDomains_cases h with hd | hd | hd | rfl | rfl
    · have : d ≠ 14 := by omega
      simp [domRegs, hd] at hx; subst hx
      have : decide (0x200000 ≤ a ∧ a < 0x2C0000) = true := by simp at h1 h2 ⊢; omega
      simp [raiseReg, this]
    · by_cases h27 : d < 27
      · simp [domRegs, show ¬d < 12 by omega, show d ≠ 14 by omega, hd.1, h27] at hx; subst hx
        have : decide (0x100000 ≤ a ∧ a < 0x102000) = true := by simp at h1 h2 ⊢; omega
        simp [raiseReg, this]
      · simp [domRegs, show ¬d < 12 by omega, show d ≠ 14 by omega, h27, show 27 ≤ d by omega, hd.2] at hx; subst hx
        have : decide (0x120000 ≤ a ∧ a < 0x122000) = true := by simp at h1 h2 ⊢; omega
        simp [raiseReg, this]
    · obtain rfl | rfl | rfl | rfl : d = 44 ∨ d = 45 ∨ d = 46 ∨ d = 47 := by omega
      · simp only [domRegs] at hx
        norm_num at hx
        rcases hx with rfl | rfl | rfl
        · have : decide (0x300000 ≤ a ∧ a < 0x302000) = true := by simp at h1 h2 ⊢; omega
          simp [raiseReg, this]
        · have : decide (0x310000 ≤ a ∧ a < 0x311000) = true := by simp at h1 h2 ⊢; omega
          simp [raiseReg, this]
        · exact big (by simp at h1; omega)
      · simp [domRegs] at hx
      · simp only [domRegs] at hx
        norm_num at hx
        rcases hx with rfl | rfl | rfl
        · have : decide (0x300000 ≤ a ∧ a < 0x302000) = true := by simp at h1 h2 ⊢; omega
          simp [raiseReg, this]
        · have : decide (0x310000 ≤ a ∧ a < 0x311000) = true := by simp at h1 h2 ⊢; omega
          simp [raiseReg, this]
        · exact big (by simp at h1; omega)
      · simp [domRegs] at hx
    · simp [domRegs] at hx
    · simp only [domRegs] at hx
      norm_num at hx
      rcases hx with rfl | rfl
      · have : decide (0x400000 ≤ a ∧ a < 0x403000) = true := by simp at h1 h2 ⊢; omega
        simp [raiseReg, this]
      · have : decide (0x404000 ≤ a ∧ a < 0x410000) = true := by simp at h1 h2 ⊢; omega
        simp [raiseReg, this]
  unfold domKeys at hr
  rcases List.mem_append.1 hr with hr | hr
  · exact own r hr h1 h2
  · apply big
    simp only [List.mem_flatMap, List.mem_filterMap] at hr
    obtain ⟨k, hk, x, hx, he⟩ := hr
    split at he
    · simp only [Option.some.injEq] at he
      subst he
      simp only [A.copyOf, A.hidden] at h1
      simp only [List.mem_range'] at hk
      omega
    · cases he

theorem raiseRel_dropDomain {n d : Nat} (h : d ∈ sourceDomains n) : Within RaiseRel (dropRegs (domKeys d)) := fun s => by
  refine ⟨fun a ha => ?_, fun _ _ => rfl, rfl⟩
  rw [rd_dropRegs, if_neg]
  simp only [List.any_eq_true, Bool.and_eq_true, decide_eq_true_eq, not_exists, not_and]
  intro r hr h1 h2
  rw [domKeys_raiseReg h hr h1 h2] at ha
  cases ha

theorem raiseRel_updEg (q : Nat) (f : EgQueue → EgQueue) : Within RaiseRel (updEg q f) := raiseRel_updNet _
theorem raiseRel_updMac (k : Nat) (f : Mac → Mac) : Within RaiseRel (updMac k f) := raiseRel_updNet _
theorem raiseRel_updSlice_ (a b : Nat) (f : TelSlice → TelSlice) : Within RaiseRel (updSlice_ a b f) := raiseRel_updNet _
theorem raiseRel_dropPairs : Within RaiseRel (updHost fun h => { h with pairs := [] }) := fun _ => ⟨fun _ _ => rfl, fun _ _ => rfl, rfl⟩

theorem raiseRel_clusterLost {c : Nat} (hc : c < 12) : Within RaiseRel (clusterLost c) :=
  within_all_cons raiseRel_order (fun _ => ⟨fun _ _ => rfl, fun _ _ => rfl, rfl⟩)
    (within_all_cons raiseRel_order (raiseRel_refreshFault hc) (within_all_nil raiseRel_order))

theorem raiseRel_edlLost {t : Nat} (ht : t < 12) : Within RaiseRel (edlLost t) :=
  within_all_cons raiseRel_order (fun _ => ⟨fun _ _ => rfl, fun _ _ => rfl, rfl⟩)
    (within_all_cons raiseRel_order (raiseRel_freshLink ht)
      (within_all_cons raiseRel_order (raiseRel_parkTile ht) (within_all_nil raiseRel_order)))

theorem raiseRel_emlLost {t : Nat} (ht : t < 12) : Within RaiseRel (emlLost t) :=
  within_all_cons raiseRel_order (fun _ => ⟨fun _ _ => rfl, fun _ _ => rfl, rfl⟩)
    (within_all_cons raiseRel_order (fun _ => ⟨fun _ _ => rfl, fun _ _ => rfl, rfl⟩)
      (within_all_cons raiseRel_order (raiseRel_parkTile ht) (within_all_nil raiseRel_order)))

theorem raiseRel_ethPortLost {again : Occ → Act} (ha : ∀ o, Within RaiseRel (again o)) {p : Nat} (hp : p < 2) (tx : Bool) :
    Within RaiseRel (ethPortLost again p tx) := by
  have h1 : raiseReg (A.ethStat p) = true := by interval_cases p <;> decide
  have h2 : raiseReg (A.ethEvt p) = true := by interval_cases p <;> decide
  unfold ethPortLost loseTele
  repeat' first
    | with_reducible exact within_all_nil raiseRel_order | with_reducible exact within_done raiseRel_order
    | with_reducible refine within_all_cons raiseRel_order ?_ ?_ | with_reducible refine within_whenS raiseRel_order ?_
    | with_reducible refine within_seq raiseRel_order ?_ ?_ | with_reducible refine within_look fun s => ?_
    | with_reducible refine within_when raiseRel_order fun hc => ?_ | with_reducible refine within_upto raiseRel_order fun i hi => ?_
    | with_reducible refine within_each raiseRel_order fun x hx => ?_
    | with_reducible refine within_ite (fun hc => ?_) (fun hc => ?_) | with_reducible refine raiseRel_setBit ?_
    | with_reducible refine raiseRel_clrBit ?_ | with_reducible refine raiseRel_setFld ?_ | with_reducible refine raiseRel_wrNat ?_
    | with_reducible refine raiseRel_wr _ ?_ | with_reducible refine raiseRel_putBit ?_ | with_reducible refine raiseRel_bump ?_
    | with_reducible refine raiseRel_wrPair ?_ ?_ | with_reducible exact raiseRel_updRep _ | with_reducible exact raiseRel_updUmp _
    | with_reducible exact raiseRel_updNet _ | with_reducible exact raiseRel_queueLog _ | with_reducible exact raiseRel_pushEvent _
    | with_reducible exact raiseRel_emit _ | with_reducible refine raiseRel_updClk _ ?_ | with_reducible exact ha _
    | with_reducible exact raiseRel_updMac _ _ | with_reducible exact raiseRel_updSlice_ _ _ _
  all_goals first | rfl | exact h1 | exact h2

theorem raiseRel_pcieLost {again : Occ → Act} (ha : ∀ o, Within RaiseRel (again o)) (app : Bool) : Within RaiseRel (pcieLost again app) := by
  unfold pcieLost
  repeat' first
    | with_reducible exact within_all_nil raiseRel_order | with_reducible exact within_done raiseRel_order
    | with_reducible refine within_all_cons raiseRel_order ?_ ?_ | with_reducible refine within_whenS raiseRel_order ?_
    | with_reducible refine within_seq raiseRel_order ?_ ?_ | with_reducible refine within_look fun s => ?_
    | with_reducible refine within_when raiseRel_order fun hc => ?_ | with_reducible refine within_upto raiseRel_order fun i hi => ?_
    | with_reducible refine within_each raiseRel_order fun x hx => ?_
    | with_reducible refine within_ite (fun hc => ?_) (fun hc => ?_) | with_reducible refine raiseRel_setBit ?_
    | with_reducible refine raiseRel_clrBit ?_ | with_reducible refine raiseRel_setFld ?_ | with_reducible refine raiseRel_wrNat ?_
    | with_reducible refine raiseRel_wr _ ?_ | with_reducible refine raiseRel_putBit ?_ | with_reducible refine raiseRel_bump ?_
    | with_reducible refine raiseRel_wrPair ?_ ?_ | with_reducible exact raiseRel_updRep _ | with_reducible exact raiseRel_updUmp _
    | with_reducible exact raiseRel_updNet _ | with_reducible exact raiseRel_queueLog _ | with_reducible exact raiseRel_pushEvent _
    | with_reducible exact raiseRel_emit _ | with_reducible refine raiseRel_updClk _ ?_ | with_reducible exact ha _
    | with_reducible exact raiseRel_dropPairs
  all_goals first | rfl

theorem raiseRel_fifoStops {again : Occ → Act} (ha : ∀ o, Within RaiseRel (again o)) (d : Nat) : Within RaiseRel (fifoStops again d) :=
  within_whenS raiseRel_order <| within_all_cons raiseRel_order (raiseRel_updClk _ fun _ => rfl) <|
    within_all_cons raiseRel_order (raiseRel_setBit rfl) <| within_all_cons raiseRel_order (ha _) (within_all_nil raiseRel_order)

/-- The loss of a domain that a block reset resets. -/
theorem raiseRel_domainDown {again : Occ → Act} (ha : ∀ o, Within RaiseRel (again o)) {n d : Nat} (h : d ∈ sourceDomains n) :
    Within RaiseRel (domainDown again d) := by
  have hd := sourceDomains_cases h
  have hs : raiseReg (A.clkDstat d) = true := by
    have : decide (0x1100 ≤ A.clkDstat d ∧ A.clkDstat d < 0x1200) = true := by simp [A.clkDstat]; omega
    simp only [raiseReg, this, Bool.true_or, Bool.or_true]
  unfold domainDown
  refine within_look fun s => ?_
  refine within_all_cons raiseRel_order ?_ <| within_all_cons raiseRel_order ?_ <| within_all_cons raiseRel_order ?_ <| 
    within_all_cons raiseRel_order ?_ <| within_all_cons raiseRel_order ?_ <| within_all_cons raiseRel_order ?_ <| 
    within_all_cons raiseRel_order ?_ <| within_all_cons raiseRel_order ?_ <| within_all_cons raiseRel_order ?_ <| 
    within_all_cons raiseRel_order ?_ <| within_all_cons raiseRel_order ?_ <| within_all_cons raiseRel_order ?_ <| 
    within_all_cons raiseRel_order ?_ <| within_all_cons raiseRel_order ?_ <| ?_
  · exact within_when raiseRel_order fun _ => raiseRel_updClk _ fun _ => rfl
  · exact raiseRel_updClk _ fun _ => rfl
  · exact raiseRel_setBit hs
  · exact raiseRel_fifoStops ha _
  · exact within_when raiseRel_order fun hc => raiseRel_ethPortLost ha (by simp at hc; omega) _
  · exact within_when raiseRel_order fun hc => absurd hc (by simp; omega)
  · exact within_when raiseRel_order fun hc => absurd hc (by simp; omega)
  · exact within_when raiseRel_order fun _ => raiseRel_pcieLost ha _
  · exact raiseRel_dropDomain h
  · exact within_when raiseRel_order fun hc => raiseRel_clusterLost (by simpa using hc)
  · exact within_when raiseRel_order fun hc => raiseRel_edlLost (by simp at hc; omega)
  · exact within_when raiseRel_order fun hc => raiseRel_emlLost (by simp at hc; omega)
  · exact within_when raiseRel_order fun hc => absurd hc (by simp; omega)
  · exact within_when raiseRel_order fun hc => absurd hc (by simp; omega)
  · exact within_all_nil raiseRel_order

/-! ## Events -/

/-- The tile of a source is one of twelve. -/
theorem sourceTile_lt {n t : Nat} (h : sourceTile n = some t) : t < 12 := by
  unfold sourceTile at h
  split at h <;> [skip; split at h <;> [skip; split at h <;> [skip; split at h <;> [skip; split at h <;> [skip; split at h]]]]] <;>
    simp at h <;> omega

theorem raiseRel_raiseMsix (v : Nat) (hv : v < 256) : Within RaiseRel (raiseMsix v) := by
  have h : raiseReg (A.msixPba (v / 32)) = true := by
    have : decide (0x404000 ≤ A.msixPba (v / 32) ∧ A.msixPba (v / 32) < 0x410000) = true := by simp [A.msixPba]; omega
    simp [raiseReg, this]
  unfold raiseMsix
  repeat' first
    | with_reducible exact within_all_nil raiseRel_order | with_reducible exact within_done raiseRel_order
    | with_reducible refine within_all_cons raiseRel_order ?_ ?_ | with_reducible refine within_whenS raiseRel_order ?_
    | with_reducible refine within_seq raiseRel_order ?_ ?_ | with_reducible refine within_look fun s => ?_
    | with_reducible refine within_when raiseRel_order fun hc => ?_ | with_reducible refine within_upto raiseRel_order fun i hi => ?_
    | with_reducible refine within_each raiseRel_order fun x hx => ?_
    | with_reducible refine within_ite (fun hc => ?_) (fun hc => ?_) | with_reducible refine raiseRel_setBit ?_
    | with_reducible refine raiseRel_clrBit ?_ | with_reducible refine raiseRel_setFld ?_ | with_reducible refine raiseRel_wrNat ?_
    | with_reducible refine raiseRel_wr _ ?_ | with_reducible refine raiseRel_putBit ?_ | with_reducible refine raiseRel_bump ?_
    | with_reducible refine raiseRel_wrPair ?_ ?_ | with_reducible exact raiseRel_updRep _ | with_reducible exact raiseRel_updUmp _
    | with_reducible exact raiseRel_updNet _ | with_reducible exact raiseRel_queueLog _ | with_reducible exact raiseRel_pushEvent _
    | with_reducible exact raiseRel_emit _ | with_reducible refine raiseRel_updClk _ ?_
  all_goals first | rfl | exact h

theorem raiseReg_umpSrc {n : Nat} (h : n < 404) : raiseReg (A.umpSrc n) = true := by
  have : decide (0x5000 ≤ A.umpSrc n ∧ A.umpSrc n < 0x6000) = true := by simp [A.umpSrc]; omega
  simp [raiseReg, this]

theorem raiseRel_logMask (o : Occ) (sev : Bool) (mask : Nat) : Within RaiseRel (logMask o sev mask) :=
  within_whenS raiseRel_order <| within_all_cons raiseRel_order (raiseRel_updUmp _) <| within_all_cons raiseRel_order (raiseRel_capture _) <|
    within_all_cons raiseRel_order (within_when raiseRel_order fun _ => within_look fun _ => raiseRel_queueLog _) (within_all_nil raiseRel_order)

theorem raiseRel_applyMask {again : Occ → Act} (ha : ∀ o, Within RaiseRel (again o)) (o : Occ) (mask : Nat) : Within RaiseRel (applyMask again o mask) := by
  have hb (d : Nat) (hd : d ∈ sourceDomains o.src) : Within RaiseRel (domainDown again d) := raiseRel_domainDown ha hd
  unfold applyMask blockReset
  repeat' first
    | with_reducible exact within_all_nil raiseRel_order | with_reducible exact within_done raiseRel_order
    | with_reducible refine within_all_cons raiseRel_order ?_ ?_ | with_reducible refine within_whenS raiseRel_order ?_
    | with_reducible refine within_seq raiseRel_order ?_ ?_ | with_reducible refine within_look fun s => ?_
    | with_reducible refine within_when raiseRel_order fun hc => ?_ | with_reducible refine within_upto raiseRel_order fun i hi => ?_
    | with_reducible refine within_each raiseRel_order fun x hx => ?_
    | with_reducible refine within_ite (fun hc => ?_) (fun hc => ?_) | with_reducible refine raiseRel_setBit ?_
    | with_reducible refine raiseRel_clrBit ?_ | with_reducible refine raiseRel_setFld ?_ | with_reducible refine raiseRel_wrNat ?_
    | with_reducible refine raiseRel_wr _ ?_ | with_reducible refine raiseRel_putBit ?_ | with_reducible refine raiseRel_bump ?_
    | with_reducible refine raiseRel_wrPair ?_ ?_ | with_reducible exact raiseRel_updRep _ | with_reducible exact raiseRel_updUmp _
    | with_reducible exact raiseRel_updNet _ | with_reducible exact raiseRel_queueLog _ | with_reducible exact raiseRel_pushEvent _
    | with_reducible exact raiseRel_emit _ | with_reducible refine raiseRel_updClk _ ?_ | with_reducible exact ha _
    | with_reducible exact raiseRel_parkTile (sourceTile_lt (by assumption)) | with_reducible exact raiseRel_capture _
    | with_reducible exact raiseRel_replayReport ha _ _ | with_reducible exact raiseRel_parkTile hi | with_reducible exact hb _ hx
    | with_reducible exact raiseRel_raiseMsix _ (by decide) | split
  all_goals first | rfl

theorem raiseRel_applyLast {again : Occ → Act} (ha : ∀ o, Within RaiseRel (again o)) (o : Occ) (mask : Nat) :
    Within RaiseRel (applyLast again o mask) := within_whenS raiseRel_order <|
  within_all_cons raiseRel_order (within_when raiseRel_order fun _ => raiseRel_safeEntry ha _ _) <|
    within_all_cons raiseRel_order (within_when raiseRel_order fun _ => raiseRel_umpireReset _) (within_all_nil raiseRel_order)

theorem raiseRel_countSevere {o : Occ} (ho : o.src < 404) : Within RaiseRel (countSevere o) := within_look fun _ =>
  within_all_cons raiseRel_order (within_when raiseRel_order fun _ => raiseRel_updUmp _) <|
    within_all_cons raiseRel_order (within_when raiseRel_order fun _ => raiseRel_setBit (raiseReg_umpSrc ho)) (within_all_nil raiseRel_order)

theorem raiseRel_raiseWith {again : Occ → Act} (ha : ∀ o, Within RaiseRel (again o)) (o : Occ) : Within RaiseRel (raiseWith again o) := by
  unfold raiseWith
  intro s
  simp only [Act.whenS, run_look]
  by_cases hc : (!domInReset s 42 && decide (o.src < numSources)) = true
  · have ho : o.src < 404 := by simp at hc; exact hc.2
    have h := raiseReg_umpSrc ho
    refine within_when raiseRel_order (fun _ => ?_) s
    repeat' first
      | with_reducible exact within_all_nil raiseRel_order | with_reducible exact within_done raiseRel_order
      | with_reducible refine within_all_cons raiseRel_order ?_ ?_ | with_reducible refine within_whenS raiseRel_order ?_
      | with_reducible refine within_seq raiseRel_order ?_ ?_ | with_reducible refine within_look fun s => ?_
      | with_reducible refine within_when raiseRel_order fun hc => ?_ | with_reducible refine within_upto raiseRel_order fun i hi => ?_
      | with_reducible refine within_each raiseRel_order fun x hx => ?_
      | with_reducible refine within_ite (fun hc => ?_) (fun hc => ?_) | with_reducible refine raiseRel_setBit ?_
      | with_reducible refine raiseRel_clrBit ?_ | with_reducible refine raiseRel_setFld ?_ | with_reducible refine raiseRel_wrNat ?_
      | with_reducible refine raiseRel_wr _ ?_ | with_reducible refine raiseRel_putBit ?_ | with_reducible refine raiseRel_bump ?_
      | with_reducible refine raiseRel_wrPair ?_ ?_ | with_reducible exact raiseRel_updRep _ | with_reducible exact raiseRel_updUmp _
      | with_reducible exact raiseRel_updNet _ | with_reducible exact raiseRel_queueLog _ | with_reducible exact raiseRel_pushEvent _
      | with_reducible exact raiseRel_emit _ | with_reducible refine raiseRel_updClk _ ?_
      | with_reducible exact raiseRel_injStart (sourceTile_lt (by assumption)) | with_reducible exact raiseRel_applyMask ha _ _ | with_reducible exact raiseRel_logMask _ _ _
      | with_reducible exact raiseRel_countSevere ho | with_reducible exact raiseRel_applyLast ha _ _ | split
    all_goals first | rfl | exact h
  · rw [Bool.not_eq_true] at hc
    rw [hc]
    exact raiseRel_order.refl s

theorem raiseRel_raise (o : Occ) : Within RaiseRel (raise o) := by
  have h (n : Nat) : ∀ o, Within RaiseRel (raiseDepth n o) := by
    induction n with
    | zero => exact fun _ => within_done raiseRel_order
    | succ n ih => exact raiseRel_raiseWith ih
  exact h 4 o

/-- An event sets its bit and raises its source. -/
theorem run_event (a i n m d : Nat) (s : State) :
    (event a i n m d).run s = (raise { src := n, addr := a, master := m, detail := d }).run ((setBit a i).run s) := by
  simp [event]

/-- The event bit is set afterwards, where the reactions cannot reach its register. -/
theorem bit_event {a i n m d : Nat} (h : raiseReg a = false) (hi : i < 32) (s : State) : bit ((event a i n m d).run s) a i = true := by
  rw [run_event]
  unfold bit
  rw [(raiseRel_raise _ _).regs a h]
  have := bit_setBit s a i a i hi
  unfold bit at this
  rw [this]; simp

end Sys2Proof.Machine
end

