-- ==== Sys2Proof/WellFormed.lean ====
section
/-!
DEFINITION. What the types of `Instr` leave open about the operands of a command that the device can meet: sizes that the spec bounds,
lists without repeats, readings that belong to their sensor. `wellFormed` says that a command meets it. The machine is total: it runs
an ill-formed command too, and no claim needs this predicate unless it says so.
-/

namespace Sys2Proof

/-- A dither plan's step is not 0 (spec/05_gloit_isa.md Table GI-9, Table GI-11). -/
def toneFreqOk : ToneFreq → Bool
  | .ditherPlan step => decide (step ≠ 0#24)
  | _ => true

/-- One raw sample at most for each lane and slot of a frame (spec/03_converters.md R78). -/
def samplesOk (l : List RawSample) : Bool := decide ((l.map fun r => (r.lane, r.slot)).Nodup)

/-- A linearisation table has 256 entries (spec/04_loop_engines.md R113). -/
def fitOk (f : CalFit) : Bool := f.table.length == 256

/-- An answer of the route search names each output once (spec/07_reconfiguration.md R177, R179). -/
def candOk (c : RouteCand) : Bool := decide (c.routes.map (·.out)).Nodup && decide c.removed.Nodup
def answerOk (a : RouteAnswer) : Bool := a.met.all candOk && decide a.blockers.Nodup && a.without.all candOk

/-- A fragment of a PREPARE: 1 to 1,024 members of distinct addresses, at most 1,024 entries, an index below the count (spec/08_huddle.md
Table HD-6). -/
def prepOk : PrepFrag → Bool
  | .params count _ _ _ _ _ _ members =>
    decide (1 ≤ count.val) && decide (1 ≤ members.length) && decide (members.length ≤ 1024) && decide members.Nodup
  | .entries index count l => decide (1 ≤ index.val) && decide (index < count) && decide (l.length ≤ 1024)

/-- A PTP correctionField has 64 bits (spec/10_network_time.md R264). -/
def ptpHeadOk (h : PtpHead) : Bool := decide (-(2 ^ 63) ≤ h.corr) && decide (h.corr < 2 ^ 63)

/-- A PTP timestamp: 48 bits of seconds and the nanoseconds. -/
def stampOk (ns : Nat) : Bool := decide (ns < 2 ^ 48 * 1000000000)

/-- The timestamps of a Sync and of a Delay_Resp. -/
def syncOk : SyncBody → Bool
  | .oneStep t => stampOk t
  | .followUp t => stampOk t
  | .twoStep => true

def delayOk : DelayBody → Bool
  | .delayResp t => stampOk t
  | .pdelayResp => true

/-- A payload has at most 1,048,576 bytes (spec/09_command_set.md R251). -/
def dmaOk : Dma → Bool
  | .bytes l => decide (l.length ≤ 1048576)
  | .error _ => true

/-- An Umpire occurrence: a source of Table FT-1, and fields that fit UMP_FE_INFO and the fault log (spec/14_faults_thermal.md R341, R349,
Table FT-4). -/
def occOk (o : Occ) : Bool :=
  decide (o.src < 404) && decide (1 ≤ o.m) && decide (o.master ≤ 255) && decide (o.access ≤ 5) && decide (o.addr < 2 ^ 64) &&
    decide (o.detail < 2 ^ 16)

/-- A reading is of its sensor's kind: diodes 0-15, thermistors 16-23, on-die sensors 24-35 (spec/14_faults_thermal.md R353-R355). -/
def conversionOk (i : Fin 36) : Conversion → Bool
  | .diode _ _ _ => decide (i.val < 16)
  | .thermistor _ => decide (16 ≤ i.val) && decide (i.val < 24)
  | .onDie _ _ => decide (24 ≤ i.val)

/-- The commands that the device can meet. -/
def wellFormed : Instr → Bool

  | .nop _ => true
  | .end_ _ => true
  | .grp _ => true
  | .gnext _ => true
  | .br _ _ _ => true
  | .evt _ _ code => decide (code.toNat ≤ 0xFEFF)
  | .rdsr _ _ _ => true
  | .fadd _ _ _ _ _ => true
  | .fsub _ _ _ _ _ => true
  | .fmul _ _ _ _ _ => true
  | .fma _ _ _ _ _ _ => true
  | .fms _ _ _ _ _ _ => true
  | .fmin _ _ _ _ _ => true
  | .fmax _ _ _ _ _ => true
  | .fclamp _ _ _ _ _ _ => true
  | .fabs _ _ _ _ => true
  | .fneg _ _ _ _ => true
  | .frcp _ _ _ _ => true
  | .frsq _ _ _ _ => true
  | .vmov _ _ _ _ => true
  | .vmovI _ _ _ _ => true
  | .vidx _ _ _ => true
  | .fcmp _ _ _ _ _ _ => true
  | .fcmpI _ _ _ _ _ _ => true
  | .sel _ _ _ _ _ _ => true
  | .pand _ _ _ _ => true
  | .por _ _ _ _ => true
  | .pxor _ _ _ _ => true
  | .pandn _ _ _ _ => true
  | .pset _ _ _ => true
  | .pmovs _ _ _ => true
  | .pmovp _ _ _ => true
  | .vbc _ _ _ _ => true
  | .vext _ _ _ _ => true
  | .add _ _ _ _ => true
  | .sub _ _ _ _ => true
  | .and_ _ _ _ _ => true
  | .or_ _ _ _ _ => true
  | .xor_ _ _ _ _ => true
  | .shl _ _ _ _ => true
  | .shr _ _ _ _ => true
  | .sar _ _ _ _ => true
  | .mul _ _ _ _ => true
  | .slt _ _ _ _ => true
  | .sltu _ _ _ _ => true
  | .movi _ _ _ => true
  | .ld _ _ _ _ => true
  | .st _ _ _ _ => true
  | .lds _ _ _ _ => true
  | .tld _ _ _ _ => true
  | .inMon _ _ _ _ _ _ => true
  | .outDrv _ _ _ => true
  | .tone _ _ f _ _ _ _ _ => toneFreqOk f
  | .lut _ _ _ _ => true
  | .laneFrameStart _ samples => samplesOk samples
  | .engineFrameStart => true
  | .engineOverrun _ => true
  | .instrFetchUe _ _ => true
  | .seedDone _ => true
  | .ectElementUpdate _ => true
  | .ectMirrorLoad _ _ => true
  | .uplinkFrame _ _ => true
  | .upLossDetect _ => true
  | .fabHoldRelease _ => true
  | .emlDlySweep _ _ => true
  | .parkStoreLoad _ => true
  | .parkStoreCommitted _ => true
  | .hfltWordWrite _ => true
  | .rangeSelWrite _ _ => true
  | .rangeSwitch _ => true
  | .rchgSettleEnd _ => true
  | .rchgDone _ => true
  | .rchgTimeout _ => true
  | .forceParkWrite _ _ => true
  | .refbufEnWrite _ _ => true
  | .refbufReady _ => true
  | .convEnWrite _ _ => true
  | .calSettled _ => true
  | .calFaultExit _ _ => true
  | .lpEnWrite _ _ => true
  | .lpResettleDone _ => true
  | .injGo _ => true
  | .injTimeTrigger _ => true
  | .injDone _ => true
  | .bcoTargetWrite _ _ => true
  | .bcoRangeSelWrite _ _ => true
  | .bcoEnWrite _ _ => true
  | .bcoRampTick => true
  | .bcoComplDetect _ _ _ _ _ => true
  | .pilotDepthWrite _ => true
  | .pilotAmplitudeRecompute _ => true
  | .engineRunWrite _ _ => true
  | .engSwapWrite _ _ => true
  | .seed _ => true
  | .spbankArmWrite _ _ _ => true
  | .lsmExternalWrite _ _ _ _ => true
  | .programBankWrite _ _ _ _ _ => true
  | .ectReload _ => true
  | .adaptiveGainUpdate => true
  | .heaterOffload => true
  | .scoreboardUpdate => true
  | .fparkWrite _ => true
  | .haltHoldLimit _ => true
  | .characterisationStep _ => true
  | .characterisationRecord fit => fitOk fit
  | .eventQueueDrain _ => true
  | .batchClose => true
  | .solveDone answers => answers.all answerOk
  | .routeTimeout => true
  | .stageCommit again => again.all answerOk
  | .stagingDeadline => true
  | .transitStrobe => true
  | .settleResolved => true
  | .settleDeadline => true
  | .lightStrobe => true
  | .revertStage => true
  | .revertTransitStrobe => true
  | .revertLightStrobe => true
  | .pendingLightRelease _ => true
  | .lcWindowOpen _ => true
  | .lcWindowClose _ => true
  | .lcEscalationDone _ => true
  | .lcAudit => true
  | .connBarrierComplete => true
  | .helloSend _ => true
  | .helloReceive _ _ _ _ _ => true
  | .helloTimeout _ => true
  | .fecLockLoss _ => true
  | .korotteFrameReceive _ b _ _ => decide (1 ≤ b.length ∧ b.length ≤ 4)
  | .korotteFrameSend _ => true
  | .korotteRetryTimeout _ => true
  | .korotteUdpReceive _ _ _ _ b => decide (b.length ≤ 8960)
  | .hdlPrepare _ f => prepOk f
  | .huddleVoteSend _ ans => answerOk ans
  | .hdlVote _ _ => true
  | .hdlDecide _ _ => true
  | .hdlAck _ _ => true
  | .hdlOutcome _ _ _ => true
  | .hdlFinal _ => true
  | .hdlReverted _ _ => true
  | .hdlRepair _ _ => true
  | .huddleResend _ => true
  | .huddleVoteDeadline _ => true
  | .huddleDecideCheck _ => true
  | .huddleNoFinalExpiry _ => true
  | .inDoubt _ => true
  | .huddleRevertAtTRev _ => true
  | .sqDoorbell _ _ => true
  | .cqDoorbell _ _ => true
  | .commandFetch _ => true
  | .completionPost => true
  | .datagramReceive _ f l => decide (l.length ≤ 8960) && decide (l.length ≤ f.bytes)
  | .eventWaitComplete => true
  | .queueDeleteDone _ => true
  | .pcieLinkLoss => true
  | .adminQueueEnable _ => true
  | .identify _ => true
  | .queueCreate _ => true
  | .queueDelete _ => true
  | .bufWrite _ => true
  | .eventWait _ => true
  | .eventLogRead _ => true
  | .faultLogRead _ => true
  | .optionWrite _ dma => dmaOk dma
  | .chipReset _ => true
  | .parkTableWrite _ dma => dmaOk dma
  | .topologyLoad _ dma => dmaOk dma
  | .topologyRead _ => true
  | .connChange _ dma => dmaOk dma
  | .mapReplace _ dma => dmaOk dma
  | .mapStore _ dma => dmaOk dma
  | .mapRecall _ => true
  | .mapRead _ => true
  | .lcRelease _ dma => dmaOk dma
  | .paramSet _ dma => dmaOk dma
  | .paramGet _ => true
  | .calPathSet _ => true
  | .progLoad _ dma => dmaOk dma
  | .progLoadRom _ => true
  | .engineCtrl _ dma => dmaOk dma
  | .elemMode _ dma => dmaOk dma
  | .coefWrite _ dma => dmaOk dma
  | .elemParam _ dma => dmaOk dma
  | .elemResume _ dma => dmaOk dma
  | .elemRead _ dma => dmaOk dma
  | .calRequest _ dma => dmaOk dma
  | .ectWrite _ dma => dmaOk dma
  | .ectRead _ dma => dmaOk dma
  | .progVerify _ => true
  | .portAssign _ dma => dmaOk dma
  | .rightsSet _ dma => dmaOk dma
  | .sourceBind _ dma => dmaOk dma
  | .tenantRead _ => true
  | .timeRead _ => true
  | .timeTrigger _ dma => dmaOk dma
  | .timeAsym _ => true
  | .subCreate _ dma => dmaOk dma
  | .subDelete _ dma => dmaOk dma
  | .subRead _ => true
  | .replayFreeze _ => true
  | .replayRead _ => true
  | .replayRelease _ => true
  | .echo _ dma => dmaOk dma
  | .regRead _ dma => dmaOk dma
  | .regWrite _ dma => dmaOk dma
  | .injTrigger _ => true
  | .memRead _ => true
  | .huddleCommit _ dma => dmaOk dma
  | .huddleResolve _ => true
  | .huddleStatus _ => true
  | .attest _ dma => dmaOk dma
  | .patchLoad _ dma => dmaOk dma
  | .keyEnrol _ dma => dmaOk dma
  | .enforceSet _ dma => dmaOk dma
  | .jtagChallenge _ => true
  | .jtagUnlock _ dma => dmaOk dma
  | .ptpSyncReceive h b _ => ptpHeadOk h && syncOk b
  | .ptpDelayRespReceive h b => ptpHeadOk h && delayOk b
  | .ptpAnnounceReceive h _ => ptpHeadOk h
  | .ptpPdelayReqReceive h _ => ptpHeadOk h
  | .ptpDelayReqSend _ _ => true
  | .ptpReceiptTimeout _ => true
  | .pathHoldTimeout => true
  | .holdoverSyncExpiry => true
  | .tickReanchor => true
  | .ppsOutPulse => true
  | .ppsInEdge _ => true
  | .ppsInMiss => true
  | .gateTransition _ => true
  | .gclConfigChange _ => true
  | .gclConfigChangeTime _ => true
  | .ethFrameReceive _ f => decide (1 ≤ f.bytes)
  | .arpRequest _ _ _ => true
  | .neighborSolicitation _ _ _ => true
  | .mkaFrame _ r => decide r.scs.Nodup
  | .pfcFrameReceive _ _ quanta => quanta.length == 8
  | .pfcPauseExpiry _ _ => true
  | .pfcXoffRepeat _ _ => true
  | .macFrameStart _ => true
  | .telemetryRecord _ _ => true
  | .histSample => true
  | .replayPostDone => true
  | .hbmTrainingDone _ _ _ => true
  | .hbmScrubPatrol _ _ found _ => match found with
    | .uncorrectable pkt => pkt.all fun p => decide (p.1 < 2048 ∧ 1 ≤ p.2)
    | _ => true
  | .hbmUe _ _ r => decide (r.master < 256 ∧ r.access < 6) && r.pkt.all fun p => decide (p.1 < 2048 ∧ 1 ≤ p.2)
  | .sramPatrol _ _ => true
  | .nvmScrubPatrol _ _ => true
  | .nvmTxnStep => true
  | .nvmRecoveryScan => true
  | .optionLoad => true
  | .parkTableCommitWrite => true
  | .parkTableApply => true
  | .parkVRewrite _ => true
  | .clockGoodQualify _ => true
  | .clockGoodLoss _ => true
  | .domainRequalify _ => true
  | .fifoResync _ _ _ => true
  | .clkGateWrite _ _ => true
  | .domainWake _ => true
  | .powerOnReset _ _ => true
  | .porEnd _ => true
  | .resetNAssert => true
  | .watchdogExpiry => true
  | .rstSwrstWrite _ => true
  | .jtagChiprst => true
  | .jtagReset => true
  | .chipResetEntry => true
  | .resetRelease => true
  | .parkTableRead => true
  | .bootRomDone => true
  | .autostart => true
  | .umpireEvent o => occOk o
  | .umpParityScan _ => true
  | .faultLogWrite => true
  | .extFaultInput _ => true
  | .sensorReading i c => conversionOk i c
  | .smbDeviceId => true
  | .smbStatusRead => true
  | .smbHottest => true
  | .smbHottestSensor => true
  | .smbTripReading => true
  | .smbTripSensor => true
  | .smbRstCause => true
  | .smbSensorReading _ => true
  | .smbBlockRead => true
  | .smbRefused _ _ => true
  | .tileHoldWrite _ _ => true
  | .tileEnWrite _ _ => true
  | .parkStoreReload _ => true
  | .nextHopWrite _ => true
  | .klkLaneEnWrite _ _ _ => true
  | .hdlParamWrite _ _ => true
  | .pfcTxWrite _ _ => true
  | .pfcHdrmWrite _ _ => true
  | .qApply => true
  | .histClr _ => true
  | .polApply => true
  | .cakInstall _ => true
  | .hbmApertureWrite _ _ => true
  | .umpFeClr => true
  | .umpCntClr => true
  | .umpSrcCntClr _ => true
  | .umpFlagClear _ => true
  | .umpSevereClear _ => true
  | .thmMaxClr => true
  | .thmSctrlWrite _ _ => true
  | .thmThrWrite _ _ => true
  | .dbgWrite _ _ _ => true
  | .tileCntClr _ => true
  | .edlCntClr _ => true
  | .engCntClr _ => true
  | .cluCntClr _ => true
  | .klkCntClr => true
  | .hdlCntClr => true
  | .cmdCntClr => true
  | .ptpCntClr => true
  | .ethCntClr _ => true
  | .msCntClr _ => true
  | .tshCntClr => true
  | .polCntClr => true
  | .hbmCntClr => true
  | .nvmCntClr => true
  | .secCntClr => true
  | .loWordReadLatch _ _ => true
  | .badAccess _ bar2 ofs len bytes => decide (1 ≤ len) && decide (bytes.length = len) && decide (ofs.toNat + len ≤ if bar2 then 0x100000000 else 0x4000000)
  | .registerWrite _ _ _ => true
  | .clusterTableWrite _ _ _ => true
  | .ppsOutPulseEnd => true
  | .extInputRelease _ => true
  | .ethLinkUp _ _ => true
  | .ethLinkDown _ _ => true
  | .pcieLinkUp _ _ => true
  | .pcieAerError _ => true
  | .mkaPeerLost _ _ => true

end Sys2Proof
end

