-- ==== Sys2Proof/Tests/Slice0.lean ====
section
/-!
SUPPORT. Tests: ill-formed commands that `wellFormed` refuses, a state for the hypotheses of each statement, and effects of single commands
with the values that the spec gives.
-/

namespace Sys2Proof.Tests

open Sys2Proof.Machine

set_option Elab.async false

/-! ## Small states -/

/-- A state whose registers take the listed values, none of them a reset value. -/
def regs (l : List (Nat × Word)) (s : State) : State := { s with regs := l.foldl (fun m p => sins p.1 p.2 (sdel m p.1)) s.regs }
/-- All domains run, bring-up is done, and the HBM, the MRAM and the command processor are ready. -/
def awake : State :=
  regs ([(A.rstPhase, 0x80000007#32), (A.clkStat, 0xF8000000#32), (A.cmdStat, 0x80000000#32), (A.hbmStat, 0x80000000#32),
    (A.nvmStat, 0x80000000#32), (A.pciLstat, 0x100#32)] ++ (List.range 60).map fun d => (A.clkDstat d, 0x80000000#32))
    { State.reset with clk := { aon := true } }
/-- Engine 3 runs its frame program. -/
def runs : State := regs [(A.engStat 3, 0x88000000#32)] { awake with eng := { awake.eng with engs := [(3, { active := true })] } }
/-- The state a command leaves. -/
def after (c : Instr) (s : State) : State := match exec c s with
  | .next t => t
  | _ => s

/-! ## Commands that the device cannot meet -/

theorem test_ill_event_code : wellFormed (.evt 0 .all 0xFF00#16) = false := by decide
theorem test_ill_dither_step : wellFormed (.tone 0 .all (.ditherPlan 0#24) false false 0 0 0) = false := by decide
theorem test_ill_samples : wellFormed (.laneFrameStart 0 [⟨0, 1, 5#14⟩, ⟨0, 1, 6#14⟩]) = false := by decide +kernel
theorem test_ill_fit : wellFormed (.characterisationRecord ⟨0#32, 0#32, List.replicate 255 0#32, true⟩) = false ∧
    wellFormed (.characterisationRecord ⟨0#32, 0#32, [], true⟩) = false := by decide +kernel
theorem test_ill_answers : wellFormed (.solveDone [{ blockers := [3, 3] }]) = false ∧
    wellFormed (.huddleVoteSend 0 { met := [{ stage := 0, routes := [], removed := [4, 4] }] }) = false := by decide +kernel
theorem test_ill_frames : wellFormed (.korotteFrameReceive 0 [] 0 ⟨0, false⟩) = false ∧
    wellFormed (.korotteUdpReceive 0 0 0#16 false (List.replicate 8961 0#8)) = false ∧
    wellFormed (.datagramReceive (.korotte 0) ⟨9000, none⟩ (List.replicate 8961 0#8)) = false ∧
    wellFormed (.datagramReceive (.korotte 0) ⟨71, none⟩ (List.replicate 72 0#8)) = false := by decide +kernel
theorem test_ill_prepare : wellFormed (.hdlPrepare ⟨0, 0, 0, 0#32, 0#64⟩ (.params 1 0 0 0 0 0 0 [5, 5])) = false ∧
    wellFormed (.hdlPrepare ⟨0, 0, 0, 0#32, 0#64⟩ (.entries 2 2 [])) = false := by decide +kernel
theorem test_ill_payload : wellFormed (.echo 0 (.bytes (List.replicate 1048577 0#8))) = false := by
  show dmaOk (.bytes (List.replicate 1048577 0#8)) = false
  simp [dmaOk, -List.reduceReplicate]
theorem test_ill_ptp : wellFormed (.ptpSyncReceive ⟨0, 0#64, 0#8, 0#16, 2 ^ 63, true, .ethernet, .forwardable, .plain, 0⟩ .twoStep ⟨0#32, 0#32⟩) = false ∧
    wellFormed (.ptpSyncReceive ⟨0, 0#64, 0#8, 0#16, 0, true, .ethernet, .forwardable, .plain, 0⟩ (.oneStep (2 ^ 48 * 1000000000)) ⟨0#32, 0#32⟩) = false ∧
    wellFormed (.ptpDelayRespReceive ⟨0, 0#64, 0#8, 0#16, 0, true, .ethernet, .forwardable, .plain, 0⟩ (.delayResp (2 ^ 48 * 1000000000))) = false ∧
    wellFormed (.ptpAnnounceReceive ⟨0, 0#64, 0#8, 0#16, -2 ^ 63 - 1, true, .ethernet, .forwardable, .plain, 0⟩ ⟨0, 0, 0, 0, 0, 0, 0, 0⟩) = false ∧
    wellFormed (.ptpPdelayReqReceive ⟨0, 0#64, 0#8, 0#16, 2 ^ 63, true, .ethernet, .forwardable, .plain, 0⟩ 1) = false := by decide +kernel
theorem test_ill_frame_received : wellFormed (.ethFrameReceive 0 ⟨0, 0, true, .other, none, false⟩) = false ∧
    wellFormed (.mkaFrame 0 ⟨[], none, [5#64, 5#64]⟩) = false ∧ wellFormed (.pfcFrameReceive 0 1#8 [0#16]) = false := by decide +kernel
theorem test_ill_packet : wellFormed (.hbmUe 0 0 ⟨103, 4, some (3, 0)⟩) = false ∧ wellFormed (.hbmUe 0 0 ⟨256, 0, none⟩) = false ∧
    wellFormed (.hbmScrubPatrol 0 0 (.uncorrectable (some (2048, 1))) true) = false := by decide
theorem test_ill_occurrence : wellFormed (.umpireEvent { src := 404 }) = false ∧ wellFormed (.umpireEvent { src := 3, m := 0 }) = false := by
  decide
theorem test_ill_conversion : wellFormed (.sensorReading 16 (.diode 0 0 0)) = false ∧ wellFormed (.sensorReading 15 (.thermistor 0)) = false ∧
    wellFormed (.sensorReading 23 (.onDie 0 true)) = false := by decide
theorem test_ill_access : wellFormed (.badAccess false false 0#32 0 []) = false ∧
    wellFormed (.badAccess false false 0#32 2 [none]) = false ∧
    wellFormed (.badAccess false false 0x3FFFFFF#32 2 [none, none]) = false := by decide

/-! ## Witnesses: engines -/

theorem witness_ScalarInstructionsSetOneRegister : issues runs (3 : Fin 96) = true := by decide +kernel
theorem witness_PredicatesAndCopiesSetTheirLanes : issues runs (3 : Fin 96) = true := by decide +kernel
theorem witness_ArithmeticComputesEnabledLanes : issues runs (3 : Fin 96) = true := by decide +kernel
/-- The group base at 6 is the last group. -/
theorem witness_FlowInstructionsMoveOneEngine : issues runs (3 : Fin 96) = true ∧ (engOf runs (3 : Fin 96)).gb < 6 ∧
    (let s := (updEngN 3 fun x => { x with gb := 6, cycle := 383 }).run runs
     engRuns s (3 : Fin 96) = true ∧ 6 ≤ (engOf s (3 : Fin 96)).gb ∧ (engOf s (3 : Fin 96)).cycle + 1 < 2 ^ 16) := by decide +kernel
/-- The last word of the auxiliary region, the first offset beyond it, and an offset that is no multiple of 4. -/
theorem witness_LoadsReadTheMemoriesWords :
    (issues runs (3 : Fin 96) = true ∧ ∀ l : Fin 16, isBad runs (groupWord runs (3 : Fin 96) l (127 : Fin 128)) = false) ∧
    (let o (w : Word) (ofs : Word) := (sreg { runs with eng := { runs.eng with sregs := [(100, w)] } } (3 : Fin 96) (4 : Fin 32) + ofs).toNat
     o 129912#32 4#32 % 4 = 0 ∧ o 129912#32 4#32 < 129920 ∧ isBad runs (auxBase ((3 : Fin 96) / 8) + 129916) = false ∧
       129920 ≤ o 129920#32 0#32 ∧ o 6#32 0#32 % 4 ≠ 0) := by decide +kernel
/-- A queue of 31 entries takes one more, one of 32 does not. -/
theorem witness_EvtQueuesOneEntry :
    (issues runs (3 : Fin 96) = true ∧ maskOf runs (3 : Fin 96) (.pred 0 false) = 0#16) ∧
    (let s := (updEngN 3 fun x => { x with evq := List.replicate 31 0#64, gb := 6 }).run runs
     engRuns s (3 : Fin 96) = true ∧ maskOf s (3 : Fin 96) .all ≠ 0#16 ∧ (engOf s (3 : Fin 96)).evq.length < 32 ∧ (engOf s (3 : Fin 96)).gb < 7) ∧
    (let s := (updEngN 3 fun x => { x with evq := List.replicate 32 0#64 }).run runs
     engRuns s (3 : Fin 96) = true ∧ maskOf s (3 : Fin 96) .all ≠ 0#16 ∧ 32 ≤ (engOf s (3 : Fin 96)).evq.length) := by decide +kernel
theorem witness_MonitorsDrivesAndTonesTakeTheGroup :
    (issues runs (3 : Fin 96) = true ∧ (engOf runs (3 : Fin 96)).gb < 7) ∧
    (∀ l : Fin 16, Fp.isNan (vreg runs (3 : Fin 96) (9 : Fin 32) l) = false) ∧
    ∀ l : Fin 16, toneFreq runs (elemAt runs (3 : Fin 96) l) (vreg runs (3 : Fin 96) (1 : Fin 32) l) .pilotPlan = some 0x624DD2F ∧
      toneBand runs (tonePilot .pilotPlan) 0x624DD2F = true ∧ nonNegative (vreg runs (3 : Fin 96) (2 : Fin 32) l) = true ∧
      Fp.finite (vreg runs (3 : Fin 96) (3 : Fin 32) l) = true := by decide +kernel
theorem witness_StoresAndLookupsKeepOtherLanes :
    (issues runs (3 : Fin 96) = true ∧ (103 : Fin 128).val < 104 ∧ 104 ≤ (104 : Fin 128).val) ∧
    (∀ l : Fin 16, lutBad runs (elemAt runs (3 : Fin 96) l) (vreg runs (3 : Fin 96) (9 : Fin 32) l) = false) ∧
    bit runs (A.cluStat ((3 : Fin 96) / 8)) 31 = false ∧ (engOf runs (3 : Fin 96)).gb < 7 := by decide +kernel

/-! ## Witnesses: tiles, lanes, converters -/

/-- Tile 2 is enabled, its LCLK runs and its link is locked both ways with its park store loaded; HOLD is 0. -/
def tile2 : State := (updTile 2 fun x => { x with everLocked := true, missing := 8 }).run
  (regs [(A.tileCtrl 2, 2#32), (A.edlStat 32, 1#32), (A.tileStat 2, 0#32 ||| BitVec.twoPow 32 tsUpLock ||| BitVec.twoPow 32 tsDlLock |||
    BitVec.twoPow 32 tsPstore)] { awake with clk := { awake.clk with mono := 768 } })
/-- An uplink frame of zeros with SYNCU, and its CRC. -/
def goodUplink : BitVec 384 := 0x6B1C#384 <<< 368 ||| 0x2288#384

theorem witness_LaneFrameCountsAndDrives :
    (schedulerRuns tile2 = true ∧ tile2.tim.stepPend = none ∧ tile2.pipe.stepFail = false ∧ domRuns tile2 39 = true ∧
      bit tile2 (A.edlStat (32 : Fin 192)) 0 = true ∧ domRuns tile2 (15 + (32 : Fin 192).val / 16) = true) ∧
    schedulerRuns State.reset = false := by decide +kernel
theorem witness_UplinksAndTileControlHoldTheTile :
    (lclkRuns tile2 (2 : Fin 12) = true ∧ upSync 0#384 = false ∧ upSync (goodUplink ^^^ 1#384) = true ∧ upCrcOk (goodUplink ^^^ 1#384) = false ∧
      upSync goodUplink = true ∧ upCrcOk goodUplink = true) ∧
    (8 ≤ (tileLink tile2 (2 : Fin 12)).missing ∧ (tileLink tile2 (2 : Fin 12)).everLocked = true) ∧
    (releaseOk tile2 (2 : Fin 12) = true ∧ ticksPerUs ≤ tile2.clk.mono - (tileLink tile2 (2 : Fin 12)).heldAt) ∧
    releaseOk awake (2 : Fin 12) = false ∧ awake.clk.mono - (tileLink awake (2 : Fin 12)).heldAt < ticksPerUs ∧
    writeTaken tile2 (A.tileCtrl (2 : Fin 12)) = true ∧ bit tile2 (A.tileStat (2 : Fin 12)) tsHoldOut = false ∧
    releaseOk ((Act.all [clrBit (A.tileCtrl (2 : Fin 12)) 0, clrBit (A.tileStat (2 : Fin 12)) tsCauseSw]).run tile2) (2 : Fin 12) = true ∧
    releaseOk ((Act.all [clrBit (A.tileCtrl (2 : Fin 12)) 0, clrBit (A.tileStat (2 : Fin 12)) tsCauseSw]).run awake) (2 : Fin 12) = false := by
  decide +kernel
theorem witness_ParkStoreSweepAndFaultFlags :
    (let s := (updNvm fun x => { x with park := [0#8] }).run tile2
     lclkRuns s (2 : Fin 12) = true ∧ s.nvm.park ≠ [] ∧ writeTaken s (A.parkCtrl (2 : Fin 12)) = true ∧
       (tileLink s 2).sweepDue = false ∧ (tileLink s 2).load = .idle) ∧
    (let s := (Act.all [updTile 2 fun x => { x with owed := true }, updNvm fun x => { x with park := [0#8] }]).run
       (regs [(A.tileStat 2, rd tile2 (A.tileStat 2) ||| BitVec.twoPow 32 tsUpLock)] tile2)
     bit s (A.tileStat 2) tsUpLock = true ∧ (tileLink s 2).load = .idle ∧ (tileLink s 2).owed = true ∧ lclkRuns s 2 = true ∧ s.nvm.park ≠ [] ∧
       (tileLink s 2).sweepDue = false) ∧
    (writeTaken awake (A.parkCtrl 11) = true ∧ awake.nvm.park = []) ∧
    (let s := (updTile 2 fun x => { x with load := .acked }).run (regs [(A.tileUpstat 2, 0x20000000#32)] tile2)
     (tileLink s (2 : Fin 12)).load = .acked ∧ bit s (A.tileUpstat (2 : Fin 12)) 29 = true ∧ bit s (A.tileUpstat 2) 21 = false) ∧
    (let s := regs [(A.tileStat 2, BitVec.twoPow 32 tsUpLock), (A.emlStat 32, 0x80000000#32)] awake
     bit s (A.tileStat (2 : Fin 12)) tsUpLock = true ∧ bit s (A.emlStat (16 * (2 : Fin 12).val)) 31 = true) := by decide +kernel
/-- Lane 40 in each stage of a range change to 1.0 V that began in frame 100. -/
def ranging (now : Nat) (r : Option Rchg) : State :=
  (updLaneN 40 fun x => { x with rchg := r }).run { awake with tim := { awake.tim with frames := now } }
theorem witness_RangeChangeRunsInStages :
    (writeTaken awake (A.edlCtrl (40 : Fin 192)) = true ∧ (laneOf awake (40 : Fin 192)).rchg = none ∧
      bit awake (A.edlStat (40 : Fin 192)) 1 ≠ true ∧ parkTooWide awake (40 : Fin 192) = false) ∧
    (let s := regs [(A.edlStat 0, 2#32)] { awake with nvm := { awake.nvm with park := List.replicate 80 0x7F#8 } }
     (laneOf s (0 : Fin 192)).rchg = none ∧ bit s (A.edlStat (0 : Fin 192)) 1 ≠ false ∧ parkTooWide s (0 : Fin 192) = true) ∧
    (let r : Rchg := { start := 100, target := true, prev := 0#60, cleared := true, clearedAt := 102 }
     let s := ranging 103 (some r)
     (laneOf s (40 : Fin 192)).rchg = some r ∧ r.cleared = true ∧ r.switched = none ∧ r.timedOut = false ∧ r.clearedAt + 1 ≤ s.tim.frames) ∧
    (let r : Rchg := { start := 100, target := true, prev := 0#60, cleared := true, switched := some 104 }
     let s := ranging 167 (some r)
     (laneOf s (40 : Fin 192)).rchg = some r ∧ r.switched = some 104 ∧ r.restoring = false ∧ r.timedOut = false ∧ 104 + 63 ≤ s.tim.frames) ∧
    (let r : Rchg := { start := 100, target := true, prev := 0#60, restored := true }
     let s := regs [(A.edlCtrl 40, 2#32)] (ranging 200 (some r))
     (laneOf s (40 : Fin 192)).rchg = some r ∧ r.restored = true ∧ bit s (A.edlCtrl (40 : Fin 192)) 1 = r.target) ∧
    (let r : Rchg := { start := 100, target := true, prev := 0#60 }
     let s := ranging 340 (some r)
     (laneOf s (40 : Fin 192)).rchg = some r ∧ r.timedOut = false ∧ r.start + 240 ≤ s.tim.frames ∧ domInReset s 42 = false ∧
       inSafe s = false ∧ srcFlag s (183 + 2 * ((40 : Fin 192).val / 16)) = false) := by decide +kernel
theorem witness_LaneGroupsFollowTheirBitsAndSettle :
    (writeTaken awake (A.edlCtrl (40 : Fin 192)) = true ∧ writeTaken awake (grpCtrl (2 : Fin 12)) = true ∧
      bit awake (grpCtrl (2 : Fin 12)) 19 = false ∧ bit awake (grpStat (2 : Fin 12)) 31 = false) ∧
    bit (regs [(grpStat 2, 0x20000000#32)] awake) (grpStat (2 : Fin 12)) 29 = true ∧
    (let s := regs [(grpCtrl 2, 0x80000#32)] { awake with tim := { awake.tim with frames := 8000 } }
     bit s (grpCtrl (2 : Fin 12)) 19 = true ∧ bit s (grpStat (2 : Fin 12)) 31 = false ∧ (groupOf s (2 : Fin 12)).refAt + 8000 ≤ s.tim.frames) ∧
    1025 ≤ (groupOf ((updGroup 2 fun x => { x with conv := 1025 }).run awake) (2 : Fin 12)).conv ∧
    (groupOf ((updGroup 2 fun x => { x with conv := 1024 }).run awake) (2 : Fin 12)).conv < 1025 ∧
    (let s := (updSlice 40 3 fun x => { x with good := 256 }).run (regs [(A.emlStat 40, 0x400000#32)] awake)
     calFault s (40 : Fin 192) (3 : Fin 4) = true ∧ 256 ≤ (sliceOf s (40 : Fin 192) (3 : Fin 4)).good) := by decide +kernel
/-- No engine of tile 2 runs. -/
def quiet2 : State := regs ((A.clkDstat (domOf (grpCtrl 2)), 0x80000000#32) :: (List.range 8).map fun e => (A.engStat (16 + e), 0x08000000#32)) State.reset
/-- Loop 111 of engine 23, which runs, is in SEEK or beyond. -/
def seeking : State := { regs [(A.engStat 23, 0x88000000#32)] awake with mem := [(lsmAddr 23 111 0 + 3, 0x40#8)] }
theorem witness_LowPowerNeedsIdleElements :
    (writeTaken quiet2 (grpCtrl 2) = true ∧ ((List.range 896).all fun i => offOrPark quiet2 (896 * 2 + i)) = true) ∧
    writeTaken seeking (grpCtrl 2) = true ∧ offOrPark seeking (896 * 2 + 895) = false := by decide +kernel
/-- The 24 bias channels, parked at a value, with the smallest setpoint. -/
def biased (park : Word) : State := regs ((A.clkDstat (domOf (A.bcoTarget 5)), 0x80000000#32) ::
  ((List.range 24).flatMap fun b => [(A.bcoCtrl b, 1#32), (A.bcoTarget b, 1#32), (A.bcoPark b, park), (A.bcoOut b, 1#32),
    (A.bcoStat b, 0x20000000#32)]) ++ (List.range 12).map fun t => (A.tileStat t, 0x80000000#32)) State.reset
theorem witness_BiasKeepsBudgetAndSlew :
    (writeTaken (biased 1#32) (A.bcoTarget (5 : Fin 24)) = true ∧ writeTaken (biased 1#32) (A.bcoCtrl (5 : Fin 24)) = true ∧
      budgetOk (biased 1#32) (5 : Fin 24) true (false, 65535) = true ∧ budgetOk (biased 0x1FFFF#32) (5 : Fin 24) true (true, 1) = false ∧
      bit (biased 1#32) (A.bcoCtrl (5 : Fin 24)) 0 = true) ∧
    (bcoDead awake = true ∧ bcoDead { awake with nvm := { awake.nvm with park := [0#8] } } = false ∧ bcoParked awake (5 : Fin 24) = true ∧
      bcoParked tile2 (5 : Fin 24) = false ∧ bit tile2 (A.bcoCtrl (5 : Fin 24)) 0 = false) := by decide +kernel
/-- Tile 2's sequence has n entries; bit 22 admits a time trigger. -/
def sequence (n : Word) : State := regs [(grpCtrl 2, 0x400000#32 ||| n <<< 24)] awake
theorem witness_SequencesRunAndPilotsScale :
    (writeTaken (sequence 1) (grpCtrl (2 : Fin 12)) = true ∧ 1 ≤ injLen (sequence 1) (2 : Fin 12) ∧ injLen (sequence 32) (2 : Fin 12) ≤ 32 ∧
      1 ≤ injLen (sequence 32) (2 : Fin 12) ∧ bit (sequence 32) (grpStat (2 : Fin 12)) 28 = false ∧ injLen (sequence 0) (2 : Fin 12) = 0 ∧
      32 < injLen (sequence 33) (2 : Fin 12)) ∧
    (let s := (updGroup 2 fun x => { x with timeTrig := some 0 }).run (sequence 32)
     (groupOf s (2 : Fin 12)).timeTrig = some 0 ∧ instantReached s 0 = true ∧ 1 ≤ injLen s (2 : Fin 12) ∧ injLen s (2 : Fin 12) ≤ 32 ∧
       bit s (grpStat (2 : Fin 12)) 28 = false ∧ bit s (grpCtrl (2 : Fin 12)) 22 = true) ∧
    (let s := (updGroup 2 fun x => { x with pos := 32 }).run (regs [(grpStat 2, 0x10000000#32)] (sequence 32))
     writeTaken s (grpCtrl (2 : Fin 12)) = true ∧ bit s (grpStat (2 : Fin 12)) 28 = true ∧ injLen s (2 : Fin 12) ≤ (groupOf s (2 : Fin 12)).pos ∧
       (groupOf s (2 : Fin 12)).placed = []) ∧
    writeTaken awake A.pilotDepth = true ∧ 10 ≤ (10#32).toNat % 256 ∧ (200#32).toNat % 256 ≤ 200 ∧ (9#32).toNat % 256 < 10 ∧
      200 < (201#32).toNat % 256 := by decide +kernel

/-! ## Witnesses: supervisors and the commit pipeline -/

/-- One stage of one cell with MZI element 2, input VOA 0 and output VOA 1. -/
def topo1 : Topo where
  id := 1
  benes := false
  stages := 1
  dilation := 1
  cellsPerStage := 1
  cells := [⟨2, none, false, false⟩]
  elems := [(0, some ⟨true, 1⟩), (1, some ⟨true, 2⟩), (2, some ⟨false, 0⟩)]
  wiring := []
  ports := [⟨false, false, 0, 0, some 0, 0, 0⟩, ⟨false, false, 1, 1, none, 0, 0⟩, ⟨true, false, 0, 0, some 1, 0, 0⟩, ⟨true, false, 1, 1, none, 0, 0⟩]
  image := [1#8]
def conn1 : Conn := ⟨0, 0, 0, 0, false, 0, 0⟩
/-- The device holds that topology and a connection on it; engine 0 runs SLP-1 with its tables ready, and the elements' words are as listed. -/
def lab (l : List (Nat × Nat × Word)) : State :=
  let s := regs [(A.engStat 0, 0x88000000#32), (A.cluStat 0, 0x80000000#32)]
    { awake with
      eng := { awake.eng with engs := [(0, { active := true, rom := 1 })] }
      fab := { awake.fab with topo := some topo1, map := { conns := [⟨conn1, 0⟩] } } }
  (Act.each l fun x => writeMemWord (lsmAddr 0 x.1 x.2.1) x.2.2).run s

theorem witness_PilotAmplitude :
    let s := lab [(0, wGNOM, 0x3F800000#32), (0, wVREF, 0x3F000000#32)]
    supvRuns s = true ∧ portVoa s false (0 : Fin 1024) = some 0 ∧ inputVoa s 0 = true ∧ bankRom s (engineOf 0) (actBank s (engineOf 0)) = true ∧
      Fp.finite (elemWord s 0 wGNOM) = true ∧ Fp.finite (elemWord s 0 wVREF) = true ∧ Fp.mag (elemWord s 0 wGNOM) ≠ 0 := by decide +kernel
theorem witness_SupervisorsServeAndParkLoops :
    supvRuns State.reset = false ∧
    (let s := lab [(2, wTONEA, 0x3F800000#32), (2, wSNN, 0x45000000#32), (2, wSN1, 0x45000000#32), (2, wSN2, 0x45000000#32)]
     supvRuns s = true ∧ (listedElems s).Nodup ∧ (∀ n ∈ listedElems s, n < 10752) ∧ 2 ∈ listedElems s ∧ adaptDue s 2 = true ∧
       Fp.finite (elemWord s 2 wSN1) = true ∧ Fp.finite (elemWord s 2 wSN2) = true ∧
       Fp.isqrt (betaSq (Fp.mag (elemWord s 2 wSN1)) (Fp.mag (elemWord s 2 wSN2)) (Fp.mag (elemWord s 2 wSNN)) * fxOne) ≠ 0 ∧
       elemSlp s 2 = true ∧ bankRom s (engineOf 2) (actBank s (engineOf 2)) = true ∧ engHalted s (0 : Fin 96) = false) ∧
    engHalted (regs [(A.engStat 95, 0xC8000000#32)] awake) (95 : Fin 96) = true := by decide +kernel
/-- A characterisation of element n at a stage. -/
def calRun (n : Nat) (st : CalStage) : CalRun := { elem := n, tag := some 7, stage := st, mode := 0#32, source := none, counted := 100 }
def calibrating (r : CalRun) : State := { lab [] with sup := { run := some r } }
def fit1 : CalFit := ⟨0#32, 0x3F800000#32, List.replicate 256 0#32, true⟩
theorem witness_CharacterisationRunsItsSteps :
    (let s := lab []
     supvRuns s = true ∧ s.sup.run = none ∧ s.sup.queue = []) ∧
    (let s := { lab [] with sup := { queue := [(0, some 7), (2, none)] } }
     supvRuns s = true ∧ s.sup.run = none ∧ s.sup.queue = (0, some 7) :: [(2, none)] ∧ elemSlp s 0 = true ∧ elemVoa s 0 = true) ∧
    (let s := { lab [] with sup := { queue := [(2, some 7)] } }
     s.sup.queue = (2, some 7) :: [] ∧ elemSlp s 2 = true ∧ ((onPath s 2).any fun c => decide (connOwner s c < 64)) = false) ∧
    (let s := { lab [(2, wCALCNT, 0x41000000#32)] with sup := { run := some (calRun 2 .dark) } }
     supvRuns s = true ∧ calDone s (calRun 2 .dark).elem = false) ∧
    (∀ st ∈ [CalStage.dark, .sweep 0, .sweep 1022, .sweep 1023, .phase],
      supvRuns (calibrating (calRun 2 st)) = true ∧ (calibrating (calRun 2 st)).sup.run = some (calRun 2 st) ∧
        calDone (calibrating (calRun 2 st)) 2 = true ∧ elemVoa (calibrating (calRun 2 st)) 2 = false) ∧
    (let s := calibrating (calRun 0 (.sweep 1023))
     calDone s 0 = true ∧ elemVoa s 0 = true) := by decide +kernel
theorem witness_CharacterisationRecords :
    (let s := calibrating (calRun 2 .record)
     s.sup.run = some (calRun 2 .record) ∧ (calRun 2 .record).fit = none ∧ (calRun 2 .record).usable * 100 < (calRun 2 .record).counted * 95 ∧
       Fp.lt 0x3CA3D70A#32 fit1.rms = false ∧ Fp.mag (Fp.abs fit1.gain) ≠ 0 ∧ elemVoa s 2 = false ∧ nvmInhibited s = false ∧ nvmInhibited (regs [(A.nvmStat, 0x90000000#32)] s) = true) ∧
    (let s := calibrating (calRun 0 .record)
     s.sup.run = some (calRun 0 .record) ∧ elemVoa s 0 = true) ∧
    (∀ n ∈ [0, 2], let r : CalRun := { calRun n .record with usable := 95 }
      let s := calibrating r
      supvRuns s = true ∧ s.sup.run = some r ∧ r.stage = .record ∧ r.fit = none ∧ ¬(r.usable * 100 < r.counted * 95) ∧ calWritable s r = true) := by decide +kernel

/-- A request of the command with tag 7, and what the solver found for it. -/
def req1 : Req := { id := 0, by_ := .command 7, owner := 64, ask := .changes [⟨false, conn1⟩] }
def solved1 (status : Nat) : Solved := { req := req1, answer := { met := [⟨0, [⟨0, 0#24⟩], []⟩] }, status := status }
/-- A commit at a stage. -/
def commit1 (st : Stage) : Commit := { reqs := [solved1 0], time := 0, stage := st, mapA := {}, mapB := { conns := [⟨conn1, 0⟩] }, gated := [] }
def committing (c : Commit) : State := { lab [] with pipe := { cur := some c } }
/-- The search's answer to that request, and the commit that the batch then makes. -/
def answer1 : RouteAnswer := { met := [⟨0, [⟨0, 0#24⟩], []⟩] }
def made1 (s : State) (a : RouteAnswer) : Commit := makeCommit s (baseMap s) (answered [req1] [a]) (batchTime s [req1]) none
theorem witness_BatchesAreSolvedAndStaged :
    (let s := { lab [] with pipe := { waiting := [req1] } }
     supvRuns s = true ∧ s.pipe.batch = none ∧ s.pipe.next = none ∧ closing s = [req1]) ∧
    (let s := { lab [] with pipe := { batch := some [req1] } }
     s.pipe.batch = some [req1] ∧ s.fab.topo.any (·.benes) = false ∧ req1.by_ = .command 7 ∧ s.pipe.edits = [] ∧ s.pipe.cur = none ∧
       [req1].findSome? reqGroup = none ∧ ((made1 s answer1).reqs.all fun x => !x.owed) = true) ∧
    (let s := { regs [(A.tileStat 0, 0x10000000#32)] (lab []) with
       fab := { (lab []).fab with topo := some { topo1 with benes := true, cells := [], elems := topo1.elems.take 2 }, map := {} }
       sup := { elems := [(0, { score := 255, known := true }), (1, { score := 255, known := true })] }
       pipe := { batch := some [req1] } }
     s.fab.topo.any (·.benes) = true ∧ ((made1 s {}).reqs.all fun x => !x.owed) = false) ∧
    (({ lab [] with pipe := { batch := some [req1], cur := some (commit1 .applied) } } : State).pipe.cur ≠ none) ∧
    (let c := commit1 .solved
     let s := { lab [] with pipe := { next := some c } }
     supvRuns s = true ∧ s.pipe.cur = none ∧ s.pipe.next = some c ∧ mayArm s c = true ∧ c.allFailed = false ∧ lpGroups s c = [] ∧
       (recheck s c []).allFailed = false ∧ ((recheck s c []).reqs.all fun x => !x.owed) = true) ∧
    (let c := { commit1 .solved with reqs := [solved1 St.routeBlocked] }
     mayArm (lab []) c = true ∧ c.allFailed = true ∧ (c.reqs.all fun x => !x.owed) = true) := by decide +kernel
theorem witness_CommitsAreStruckSettledAndLit :
    (let c := { commit1 .armed with complete := true, time := 1 }
     let s := committing c
     s.pipe.cur = some c ∧ s.pipe.stepFail = false ∧ c.stage = .armed ∧ c.complete = true ∧ atInstant s c.time = true ∧ (c.group.all fun id => (findHGroup s id).any (·.go)) = true) ∧
    (let s := committing (commit1 .armed)
     supvRuns s = true ∧ s.pipe.stepFail = false ∧ dueBy s (commit1 .armed).time 1000 = true ∧ stagingLacks s (commit1 .armed) = true ∧
       solved1 0 ∈ (commit1 .armed).reqs ∧ (solved1 0).req.by_ = .command 7 ∧ (solved1 0).status = 0) ∧
    (let c := commit1 .settling
     let s := { committing c with tim := { (committing c).tim with frames := 28 } }
     s.pipe.cur = some c ∧ resolved s c false = true ∧ c.gated = [] ∧ c.frame + 28 ≤ s.tim.frames ∧ resolved s c true = true) ∧
    (let c := { commit1 .settling with gated := [0], settle := [2], settled := [2] }
     resolved (committing c) c false = true ∧ c.gated ≠ [] ∧ c.settle.all c.settled.contains = true) ∧
    (let c := { commit1 .settling with gated := [0], settle := [2], used := [2] }
     let s := regs [(A.tileStat 0, 0x10000000#32)] (committing c)
     resolved s c true = false ∧ c.gated ≠ []) ∧
    (let c := commit1 (.light 1)
     let s := committing c
     s.pipe.cur = some c ∧ 1 ≤ frameNo s ∧ c.group = none) ∧
    (let s := committing (commit1 (.light 2))
     frameNo s < 2 ∧ s.hdl.slots = [] ∧ atInstant s 0 = false) := by decide +kernel
theorem witness_CommitsRevertToMapA :
    (supvRuns (committing (commit1 .reverting)) = true ∧ (committing (commit1 .reverting)).pipe.cur = some (commit1 .reverting)) ∧
    (let c := { commit1 .revArmed with gated := [0] }
     let s := { committing c with tim := { (committing c).tim with frames := 9 } }
     s.pipe.cur = some c ∧ c.stage = .revArmed ∧ c.gated ≠ [] ∧ c.stagedAt + 5 ≤ frameNo s) ∧
    (let c := { commit1 .revSettling with resolvedAt := some 0 }
     let s := { committing c with tim := { (committing c).tim with frames := 9 } }
     s.pipe.cur = some c ∧ (c.resolvedAt.any fun a => decide (a + 4 ≤ frameNo s)) = true ∧ frameNo s < { c with stagedAt := 9 }.stagedAt + 5) ∧
    ((commit1 .revArmed).stage = .revArmed ∧ (commit1 .revArmed).gated = []) ∧
    (let s := { lab [] with
       pipe := { dark := [⟨0, [2], 0⟩], barriers := [⟨7, 0⟩] }
       sup := { elems := [(2, { settleT := some 1 })] } }
     supvRuns s = true ∧ (s.pipe.dark.any fun d => decide (d.out = (0 : Fin 1024).val) && d.elems.all fun n => (supOf s n).settleT.isSome) = true ∧
       outConn s.fab.map (0 : Fin 1024) = some ⟨conn1, 0⟩ ∧ unverifiable s conn1 = false ∧ openBefore s 0 = false) ∧
    (let s := { lab [] with pipe := { dark := [⟨0, [2], 0⟩] } }
     ∀ d ∈ s.pipe.dark, d.out = (0 : Fin 1024).val → (d.elems.all fun n => (supOf s n).settleT.isSome) = false) := by decide +kernel
/-- Output 0 has a Line Call window. -/
def window (w : LcWin) (now : Nat) : State := { lab [] with
  pipe := { wins := [w], auditAt := 0, results := [(0, some ⟨0, 0, 0, none, false, false, false, 0, none⟩)] }, tim := { frames := now } }
/-- A window that has 16,384 samples of a code, the first ones flagged. -/
def sampled (flagged : Nat) (code : Option (BitVec 14)) : LcWin :=
  { out := 0, start := 16, open_ := true, samples := List.replicate flagged none ++ List.replicate (16384 - flagged) code }
theorem witness_LineCallWindowsEndInAResult :
    (let w : LcWin := { out := 0, start := 16 }
     let s := window w 15
     supvRuns s = true ∧ winOf s (0 : Fin 1024) = some w ∧ w.open_ = false ∧ w.start ≤ s.tim.frames + 1 ∧ s.pipe.lcAudit ≠ 0 ∧
       s.pipe.auditAt ≤ s.clk.mono ∧ (⟨conn1, 0⟩ : Routed) ∈ s.fab.map.conns ∧ unverifiable s conn1 = false) ∧
    (let w : LcWin := { out := 0, start := 16, open_ := true, parked := true }
     winOf (window w 16399) (0 : Fin 1024) = some w ∧ w.scanning = false ∧ w.parked = true) ∧
    (let w : LcWin := { out := 0, start := 16, open_ := true, scanning := true }
     winOf (window w 16400) (0 : Fin 1024) = some w ∧ w.scanning = true) := by decide +kernel
theorem witness_LineCallWindowsFlagged (n : Nat) (h : n ≤ 16384) (c : BitVec 14) : (sampled n (some c)).samples.length = 16384 ∧
    ((sampled n (some c)).samples.filter (·.isNone)).length = n ∧ 16384 < 164 * 100 ∧ 163 * 100 ≤ 16384 := by
  refine ⟨?_, ?_, by decide, by decide⟩
  · unfold sampled
    rw [List.length_append, List.length_replicate, List.length_replicate]
    omega
  · unfold sampled
    rw [List.filter_append, List.filter_replicate, List.filter_replicate]
    simp
/-! ## Witnesses: Korotte links and Huddle -/

/-- Link 2 leads one lane. -/
def link2 (x : KLink) : State := regs [(A.klkLctrl 2, 1#32)] { awake with klk := { links := [(2, { x with lanes := 1 })] } }
/-- A frame of class 0 that waits. -/
def frame1 : List Byte := List.replicate 16 0#8
def up2 (x : KLink) : State := regs [(A.klkStat, 0x400#32)] (link2 x)
theorem witness_KorotteLinksFollowHellos :
    (let s := link2 { good := 3 }
     domRuns s 56 = true ∧ domRuns s (48 + (2 : Fin 8).val) = true ∧ 0 < (kLink s (2 : Fin 8)).lanes ∧ (5#16).toNat ≠ ownDomain s ∧
       (0#16).toNat = ownDomain s ∧ (9 : Fin 16384).val ≠ ownAddr s ∧ (0 : Fin 16384).val = ownAddr s ∧ klkUp s (2 : Fin 8) = false ∧
       3 ≤ (kLink s (2 : Fin 8)).good ∧ writeTaken s (A.klkLctrl (2 : Fin 8)) = true ∧ klkLead s (2 : Fin 8) = some 2) ∧
    (let s := { link2 { good := 1 } with clk := { awake.clk with mono := 230400 } }
     0 < (kLink s (2 : Fin 8)).good ∧ 230400 ≤ s.clk.mono - (kLink s (2 : Fin 8)).lastHello) ∧
    (let s := { link2 { good := 1 } with clk := { awake.clk with mono := 230399 } }
     s.clk.mono - (kLink s (2 : Fin 8)).lastHello < 230400) ∧
    klkLead awake (2 : Fin 8) = none ∧ klkUp (up2 {}) (2 : Fin 8) = true := by decide +kernel
/-- A received frame with LSEQ 5 and its CRC. -/
def head5 : List Byte := [0x10#8, 1#8] ++ List.replicate 8 0#8 ++ [0#8, 5#8] ++ List.replicate 4 0#8
def frame5 : List Byte := head5 ++ [0xEB#8, 0x8C#8, 0x9E#8, 0x48#8]
theorem witness_KorotteFramesAreSequenced :
    klkUp awake (2 : Fin 8) = false ∧
    (let s := up2 { unacked := [(4, frame1)] }
     klkUp s (2 : Fin 8) = true ∧ domRuns s 56 = true ∧ (kLink s 2).ackDue = false ∧ (kLink s 2).nakDue = false ∧ (credDue (kLink s 2)).2 = 0 ∧ (kLink s (2 : Fin 8)).unacked[(kLink s (2 : Fin 8)).sent]? = some (4, frame1)) ∧
    (let x : KLink := { queues := [(0, [frame1])], credits := [(0, 1)], lanes := 1 }
     let s := up2 x
     (kLink s (2 : Fin 8)).unacked[(kLink s (2 : Fin 8)).sent]? = none ∧ sendClass x = some 0 ∧ (classQueue x 0).head? = some frame1) ∧
    (let x : KLink := { lanes := 1 }
     x.unacked[x.sent]? = none ∧ sendClass x = none ∧ x.ackDue = false ∧ x.nakDue = false ∧ (credDue x).2 = 0) ∧
    (∀ n ∈ [15, 16], let s := { up2 { unacked := [(4, frame1)], tries := n } with clk := { awake.clk with mono := 7680 } }
     (kLink s (2 : Fin 8)).unacked ≠ [] ∧ 7680 ≤ s.clk.mono - (kLink s (2 : Fin 8)).progress ∧ klkUp s (2 : Fin 8) = true ∧ (kLink s (2 : Fin 8)).tries = n) ∧
    (let s := up2 { rxSeq := 5 }
     klkUp s (2 : Fin 8) = true ∧ domRuns s (48 + (2 : Fin 8).val) = true ∧ beAt head5 12 2 < 32768 ∧ frameType head5 ≠ 0 ∧
       klkUp (up2 { ackDue := true }) (2 : Fin 8) = true ∧ beAt head5 10 2 % 4096 = (kLink s (2 : Fin 8)).rxSeq) ∧
    (5 ≠ 6 ∧ 2048 ≤ (5 + 4096 - 6) % 4096 ∧ 5 ≠ 4 ∧ (5 + 4096 - 4) % 4096 < 2048) ∧
    writeTaken awake A.klkNhData = true ∧ writeTaken awake A.klkCtrl = true := by
  decide +kernel
/-- What the check of a frame says: its bytes, or whether its CRC was wrong. -/
def checked (b : List Byte) : Option (List Byte) × Bool := match klkCheck (laneJoin [b]) with
  | .ok f => (some f, false)
  | .error e => (none, e)
theorem witness_KorotteFrameChecks : checked frame5 = (some head5, false) ∧ checked (head5 ++ [0#8, 0#8, 0#8, 0#8]) = (none, true) ∧
    checked (0x90#8 :: frame5.drop 1) = (none, true) := by decide +kernel
/-- Group 0x40009 with members 5 and 0: this device is member 1. -/
def group1 : Group_ := { id := 0x40009, index := 1, members := [5, 0], time := 1000000, g := 2, w := 10, lat := 20, rtx := 10, ready := true }
def grouped (g : Group_) : State := regs [(A.hdlCtrl, 1#32)] { lab [] with hdl := { slots := [(0, some g)] } }
def head1 : HdlHead := ⟨5, 0, 0, 0x40009#32, 1000000#64⟩
theorem witness_HuddleVotesAndDecides_1 :
    (let s := lab []
     supvRuns s = true ∧ findHGroup s head1.group.toNat = none ∧ closedRec s head1.group.toNat = none ∧
       (([5, 0] : List (Fin 16384)).any fun a => decide (a.val = ownAddr s)) = true ∧ freeSlot s = some 0 ∧ bit s A.hdlCtrl 0 = true ∧
       bit (regs [(A.hdlCtrl, 0#32)] s) A.hdlCtrl 0 = false) := by decide +kernel
theorem witness_HuddleVotesAndDecides_2 :
    (let s := grouped group1
     supvRuns s = true ∧ findHGroup s head1.group.toNat = some group1 ∧ fragClash s { head1 with time := 0#64 } (.entries 1 2 []) group1 = true ∧
       InSlot s (0 : Fin 64) group1 ∧ group1.state = 1 ∧ group1.ready = true ∧ group1.voted = none ∧ voteOf s group1 {} ≠ 0 ∧
       group1.index ≠ 0 ∧ Heeded s head1 group1 ∧ head1.sender.val = 0 ∧ group1.go = false ∧ group1.fail = none ∧ group1.decide_ = none ∧
       group1.checked = false ∧ 0 ≤ dueIn s group1.time (1000 * group1.g)) := by
  unfold InSlot Heeded
  decide +kernel
theorem witness_HuddleVotesAndDecides_3 :
    (let s := regs [(A.ptpStat, 0x08000000#32), (A.tileStat 0, 0x10000000#32)] (grouped group1)
     InSlot s (0 : Fin 64) group1 ∧ voteOf s group1 { met := [⟨0, [], []⟩] } = 0) := by
  unfold InSlot
  decide +kernel
theorem witness_HuddleVotesAndDecides_4 :
    (let g := { group1 with index := 0, members := [0, 5], tag := some 7 }
     let s := grouped g
     let h : HdlHead := { head1 with sender := 1 }
     InSlot s (0 : Fin 64) g ∧ Heeded s h g ∧ g.decide_ = none ∧ g.forced = false ∧ g.members ≠ []) := by
  unfold InSlot Heeded
  decide +kernel
theorem witness_HuddleVotesAndDecides_5 :
    (let g := { group1 with index := 0, members := [0, 5], time := 0, tag := some 7 }
     let s := grouped g
     InSlot s (0 : Fin 64) g ∧ g.index = 0 ∧ g.decide_ = none ∧ dueBy s g.time (1000 * (g.g + g.lat)) = true) := by
  unfold InSlot
  decide +kernel
theorem witness_HuddleVotesAndDecides_6 :
    (let g := { group1 with time := 0, voted := some 0, decide_ := some true }
     let s := grouped g
     InSlot s (0 : Fin 64) g ∧ g.voted = some 0 ∧ g.checked = false ∧ g.fail = none ∧ dueBy s g.time (1000 * g.g) = true) := by
  unfold InSlot
  decide +kernel
theorem witness_HuddleOutcomesAndReverts_1 :
    (let g := { group1 with index := 0, members := [0, 5] }
     let h : HdlHead := { head1 with sender := 1 }
     Heeded (grouped g) h g ∧ h.sender.val ≠ g.index ∧ g.final = false ∧ g.repair = none ∧ g.go = false ∧ g.fail = none) := by
  unfold Heeded
  decide +kernel
theorem witness_HuddleOutcomesAndReverts_2 :
    (let g := { group1 with state := 4, applied := true, outcome := some (1, 0) }
     let s := grouped g
     Heeded s head1 g ∧ 0 < dueIn s (g.time + perMs * g.w) 0 ∧ head1.sender.val = 0 ∧ 0 ≤ dueIn s (1000000#64).toNat 20000 ∧
       g.fail = none) := by
  unfold Heeded
  decide +kernel
theorem witness_HuddleOutcomesAndReverts_3 :
    (let g := { group1 with time := 0, w := 0, state := 10 }
     let s := grouped g
     InSlot s (0 : Fin 64) g ∧ dueBy s (g.time + perMs * g.w) 0 = true ∧ g.tRev = none) := by
  unfold InSlot
  decide +kernel
theorem witness_HuddleOutcomesAndReverts_4 :
    (let g := { group1 with time := 0, w := 0, state := 5, tRev := some 0 }
     let s := grouped g
     InSlot s (0 : Fin 64) g ∧ dueBy s (g.time + 2 * perMs * g.w) 0 = true ∧ g.state = 5 ∧ revertDue s 0 = true ∧ g.leaving = false ∧ s.pipe.cur = none) := by
  unfold InSlot
  decide +kernel
theorem witness_HuddleOutcomesAndReverts_5 :
    (let g := { group1 with time := 0, tRev := some 0 }
     let c := { commit1 .applied with group := some g.id }
     let s := { grouped g with pipe := { cur := some c } }
     InSlot s (0 : Fin 64) g ∧ revertDue s 0 = true ∧ s.pipe.cur = some c ∧ c.group = some g.id ∧ c.stage = .applied ∧ c.gated = []) := by
  unfold InSlot
  decide +kernel
theorem witness_HuddleOutcomesAndReverts_6 :
    (InSlot (grouped group1) (0 : Fin 64) group1 ∧ dueBy (grouped group1) (group1.time + perMs * group1.w) 0 = false) := by
  unfold InSlot
  decide +kernel
theorem witness_HuddleOutcomesAndReverts_7 :
    (∀ i : Fin 5, writeTaken awake ([A.hdlG, A.hdlW, A.hdlLat, A.hdlRtx, A.hdlMinlead].getD i 0) = true) ∧
    paramsHold 2 10 20 10 1000 = true ∧ paramsHold 0 10 20 10 1000 = false ∧ writeTaken awake A.hdlCtrl = true := by decide +kernel

/-! ## Witnesses: queues and commands -/

/-- Queue 1 has 4 entries each way; its tail stands at 2 with one entry fetched. -/
def pair1 : QPair := { sqSize := 4, cqSize := 4, sqBase := 0x1000, cqBase := 0x2000, vec := 1, sqHead := 1 }
def queued (l : List Cmd) (d : List Completion) : State := regs [(A.sqTail 1, 2#32), (A.tenantOf 0 2, 10#32)]
  { awake with host := { pairs := [(1, some pair1)], cmds := l, done := d, accepted := l.length } }
/-- A fetched command of queue 1 with tag 128. -/
def cmd1 (e : Entry) : Cmd := { tag := 128, queue := 1, num := 0, entry := e }
theorem witness_QueuesFetchAndComplete_1 :
    (let s := queued [] []
     writeTaken s (A.sqTail (1 : Fin 65)) = true ∧ writeTaken s (A.cqHead (1 : Fin 65)) = true ∧ pairOf s (1 : Fin 65) = some pair1 ∧
       (3#32).toNat % 4096 < pair1.sqSize ∧ pair1.sqSize ≤ (4#32).toNat % 4096 ∧ (3#32).toNat % 4096 < pair1.cqSize ∧ pairOf s (64 : Fin 65) = none ∧
       writeTaken s A.cmdCtrl = true ∧ bit s A.cmdCtrl 0 = false ∧ bit (regs [(A.cmdCtrl, 1#32)] s) A.cmdCtrl 0 = true) := by decide +kernel
theorem witness_QueuesFetchAndComplete_2 :
    (let s := queued [] []
     bit s A.cmdStat 31 = true ∧ pcieUp s = true ∧ supvRuns s = true ∧ nextQueue s = some 1 ∧ mayFetch s 0 = false ∧ freeTag s 1 = some 128 ∧
       opcodes.contains (0x0101#16).toNat = true ∧ opcodes.contains (0x0000#16).toNat = false) ∧
    nextQueue awake = none ∧ bit State.reset A.cmdStat 31 = false := by decide +kernel
theorem witness_QueuesFetchAndComplete_3 :
    (let d : Completion := { tag := 128, status := 0, data := [1#8] }
     let s := queued [cmd1 { opcode := 0x0101, cid := 1 }] [d]
     domInReset s 58 = false ∧ s.host.done.find? (postable s) = some d ∧ cmdOf s d.tag = some (cmd1 { opcode := 0x0101, cid := 1 }) ∧ (cmd1 { opcode := 0x0101, cid := 1 }).dgram = none ∧
       pairOf s 1 = some pair1 ∧ pcieUp s = true ∧ pair1.deleting = none ∧ d.data ≠ []) ∧
    ((queued [] []).host.done.find? (postable (queued [] []))) = none := by decide +kernel
theorem witness_QueuesFetchAndComplete_4 :
    (let s := { awake with host := { pairs := [(1, some { pair1 with deleting := some 5 })] } }
     (pairOf s (1 : Fin 65)).bind (·.deleting) = some 5 ∧ heldBy s (1 : Fin 65) = 0) ∧
    (pairOf awake (1 : Fin 65)).bind (·.deleting) = none ∧
    (let w : EvWait := { tag := 128, queue := 1, count := 2 }
     let s := { awake with host := { waits := [w], evq := [(1, [⟨3, 0, 0, 0, 0, 0x40, 0⟩])] } }
     supvRuns s = true ∧ s.host.waits.find? (fun w => !(sget (fun _ => []) s.host.evq w.queue).isEmpty) = some w) ∧
    supvRuns awake = true ∧ awake.host.waits.find? (fun w => !(sget (fun _ => []) awake.host.evq w.queue).isEmpty) = none := by decide +kernel
/-- The datagram of device 9, SEQ 7, and binding 0 of that device, which last saw SEQ `last`. -/
def dgram7 : List Byte := [0x43#8, 0x4B#8, 0#8, 0#8, 7#8, 0#8, 0#8, 0#8] ++ List.replicate 64 0#8
def bound (last : Word) (l : List SeqSeen) : State := regs [(A.bindingOf 0 0, 0xC0400000#32), (A.bindingOf 0 1, 9#32), (A.bindingOf 0 3, last)]
  { awake with host := { seqs := [(0, l)] } }
theorem witness_DatagramsRunOnce :
    (let s := bound 6#32 [{ seq := 6 }]
     supvRuns s = true ∧ bit s A.cmdStat 31 = true ∧ sourceSecure s (.korotte 9) = true ∧ findBinding s (.korotte 9) = some 0 ∧
       72 ≤ dgram7.length ∧ leAt dgram7 0 2 = 0x4B43 ∧ leAt dgram7 2 2 = 0 ∧
       0 < seqAhead (leAt dgram7 4 4) (rd s (A.bindingOf 0 3)).toNat ∧ polMode (polParam s 0 0) = 0 ∧ (freeTag s (bindingQueue s 0)).isSome = true) ∧
    (let s := bound 70#32 [{ seq := 7 }]
     signed 32 (leAt dgram7 4 4 + 2 ^ 32 - (rd s (A.bindingOf 0 3)).toNat) = -63 ∧ (sget (fun _ => []) s.host.seqs 0).any (fun x => x.seq == 7) = true) ∧
    findBinding { State.reset with regs := (List.range 256).map fun n => (A.bindingOf n 0, 1#32) } (.korotte 10) = none ∧
    signed 32 (leAt dgram7 4 4 + 2 ^ 32 - (rd (bound 71#32 []) (A.bindingOf 0 3)).toNat) = -64 ∧
    pcieUp awake = true ∧ pcieUp State.reset = false ∧ domInReset awake 58 = false ∧ domInReset State.reset 58 = true := by decide +kernel
/-- The payload a command runs with: a datagram's own, or what its fetch brought. -/
def payloadOf (c : Cmd) : Dma → List Byte
  | .bytes b => slice (if c.dgram.isSome || decide (c.entry.length.toNat = 0) then c.payload else b) 0 c.entry.length.toNat
  | .error _ => slice c.payload 0 c.entry.length.toNat
/-- Whether command `i` runs as `c`. -/
def admits (s : State) (i : Instr) (c : Cmd) : Bool := match commandOf i with
  | none => false
  | some (k, tag, dma) => turnCome s i && supvRuns s && decide (cmdOf s tag = some c) && decide (c.entry.opcode.toNat = k.op) &&
      !c.started && mayStart s c && decide (checkCmd c k = none) && !emptyList k c && decide (c.bad = none) &&
      (!(c.dgram.isSome || decide (c.entry.length.toNat = 0)) || decide (c.entry.length.toNat ≤ c.payload.length)) && (match dma with
        | .bytes _ => true
        | .error _ => false)
theorem admitted_of_admits {s : State} {i : Instr} {c : Cmd} (h : admits s i c = true) {k : CmdSpec} {tag : Fin 4096} {dma : Dma}
    (hc : commandOf i = some (k, tag, dma)) : Admitted s i c (payloadOf c dma) := by
  simp only [admits, hc, Bool.and_eq_true, decide_eq_true_eq, Bool.not_eq_true'] at h
  obtain ⟨⟨⟨⟨⟨⟨⟨⟨⟨⟨h1, h2⟩, h3⟩, h4⟩, h5⟩, h6⟩, h7⟩, h8⟩, h9⟩, h11⟩, h10⟩ := h
  refine ⟨k, tag, dma, hc, h1, ⟨h2, h3, h4, h5, h6⟩, h7, h8, ?_⟩
  cases dma with
  | error o => simp at h10
  | bytes b =>
    have e : (c.dgram.isSome || decide (c.entry.length.toNat = 0)) = true ↔ c.dgram.isSome = true ∨ c.entry.length.toNat = 0 := by
      rw [Bool.or_eq_true, decide_eq_true_eq]
    show PayloadIs c (.bytes b) (slice (if (c.dgram.isSome || decide (c.entry.length.toNat = 0)) = true then c.payload else b) 0
      c.entry.length.toNat)
    unfold PayloadIs
    by_cases hd : c.dgram.isSome = true ∨ c.entry.length.toNat = 0
    · rw [if_pos hd, if_pos (e.mpr hd)]
      rw [e.mpr hd, Bool.not_true, Bool.false_or, decide_eq_true_eq] at h11
      exact ⟨h9, h11, rfl⟩
    · rw [if_neg hd, if_neg fun h => hd (e.mp h)]
      exact ⟨b, rfl, rfl⟩
/-- The command of the admin queue that the table's lengths give, with COUNT and PARAM0 to PARAM3. -/
def sends (k : CmdSpec) (count p0 p1 p2 p3 : Nat) : Cmd :=
  let e : Entry := { opcode := BitVec.ofNat 16 k.op, cid := 1, count := BitVec.ofNat 32 count, p0 := BitVec.ofNat 32 p0, p1 := BitVec.ofNat 32 p1,
                     p2 := BitVec.ofNat 32 p2, p3 := BitVec.ofNat 32 p3 }
  let e := { e with length := BitVec.ofNat 32 (k.len e) }
  { tag := 0, queue := 0, num := 0, entry := { e with respLen := BitVec.ofNat 32 (k.resp e) } }
/-- That command is admitted where it holds tag 0. -/
def runsWith (s : State) (i : Instr) (count p0 p1 p2 p3 : Nat) : Bool := match commandOf i with
  | some (k, _) => admits { s with host := { s.host with cmds := [sends k count p0 p1 p2 p3] } } i (sends k count p0 p1 p2 p3)
  | none => false
theorem witness_AdminCommandsDoWhatTheyName :
    runsWith awake (.identify 0) 0 0 0 0 0 = true ∧ runsWith awake (.queueCreate 0) 0 1 0x10001 64 0 = true ∧
    runsWith awake (.queueDelete 0) 0 64 0 0 0 = true ∧ runsWith awake (.eventWait 0) 64 0 0 0 0 = true ∧
    runsWith awake (.eventLogRead 0) 0 0 0 0 0 = true ∧ runsWith awake (.faultLogRead 0) 0 0xFFFC0 0 0 0 = true ∧
    runsWith awake (.optionWrite 0 (.bytes [])) 4096 0 0 0 0 = true ∧ runsWith awake (.chipReset 0) 0 0x0C0FFEE0 0 0 0 = true ∧
    runsWith awake (.parkTableWrite 0 (.bytes [])) 46240 0 0 0 0 = true ∧
    (let c : Cmd := { tag := 0, queue := 0, num := 0, dgram := some (0, 7, .korotte 9), payload := [0x5A#8]
                      entry := { opcode := 0x0104, cid := 1, count := 1, length := 1, p0 := 0xFFFFF } }
     let s := { awake with host := { cmds := [c] } }
     admits s (.bufWrite 0) c = true ∧ c.dgram = some (0, 7, .korotte 9) ∧ bit s A.hbmStat 31 = true ∧ c.entry.p0.toNat + 1 ≤ 1048576) := by
  decide +kernel
theorem witness_FabricCommandsSubmitRequests :
    runsWith awake (.topologyLoad 0 (.bytes [])) 204864 0 0 0 0 = true ∧ runsWith awake (.topologyRead 0) 0 0 0 0 0 = true ∧
    runsWith awake (.connChange 0 (.bytes [])) 0 0 0 0 0 = true ∧ runsWith awake (.connChange 0 (.bytes [])) 1024 0 0 0 0 = true ∧
    runsWith awake (.mapReplace 0 (.bytes [])) 1024 0 0 0 0 = true ∧ runsWith awake (.mapStore 0 (.bytes [])) 0 0x80FF 0 0 0 = true ∧
    runsWith awake (.mapRecall 0) 0 2047 0 0 0 = true ∧ runsWith awake (.mapRead 0) 0 0 0 0 0 = true ∧
    runsWith awake (.lcRelease 0 (.bytes [])) 1 0 0 0 0 = true ∧ runsWith awake (.paramSet 0 (.bytes [])) 5 0 0 0 0 = true ∧
    runsWith awake (.paramGet 0) 0 0 0 0 0 = true ∧ runsWith awake (.calPathSet 0) 0 0x80000000 0 0 0 = true := by decide +kernel
theorem witness_ProgramsLoadAndElementCommands :
    runsWith awake (.progLoad 0 (.bytes [])) 4096 95 1 0 8192 = true ∧ runsWith awake (.progLoadRom 0) 0 0xFF 0 0 0 = true ∧
    runsWith awake (.progVerify 0) 0 95 1 4096 0 = true ∧ runsWith awake (.engineCtrl 0 (.bytes [])) 96 0 0 0 0 = true ∧
    runsWith awake (.elemMode 0 (.bytes [])) 1 0 0 0 0 = true ∧ runsWith awake (.coefWrite 0 (.bytes [])) 1 0 0 0 0 = true ∧
    runsWith awake (.elemParam 0 (.bytes [])) 1 0 0 0 0 = true ∧ runsWith awake (.elemResume 0 (.bytes [])) 1 0 0 0 0 = true ∧
    runsWith awake (.elemRead 0 (.bytes [])) 1024 0 0 0 0 = true ∧ runsWith awake (.calRequest 0 (.bytes [])) 1024 0 0 0 0 = true ∧
    runsWith awake (.ectWrite 0 (.bytes [])) 64 0 0 0 8192 = true ∧ runsWith awake (.ectRead 0 (.bytes [])) 64 0 0 0 0 = true := by
  decide +kernel
theorem witness_TenantTimeAndTelemetryCommands :
    runsWith awake (.portAssign 0 (.bytes [])) 2048 0 0 0 0 = true ∧ runsWith awake (.rightsSet 0 (.bytes [])) 64 0 0 0 0 = true ∧
    runsWith awake (.sourceBind 0 (.bytes [])) 256 0 0 0 0 = true ∧ runsWith awake (.tenantRead 0) 0 63 0 0 0 = true ∧
    runsWith awake (.timeRead 0) 0 0 0 0 0 = true ∧ runsWith awake (.timeTrigger 0 (.bytes [])) 12 0 0 0 0 = true ∧
    runsWith awake (.timeAsym 0) 0 1 0xFFFFFFFF 0 0 = true ∧ runsWith awake (.subCreate 0 (.bytes [])) 64 0 0 0 0 = true ∧
    runsWith awake (.subDelete 0 (.bytes [])) 1024 0 0 0 0 = true ∧ runsWith awake (.subRead 0) 0 0 0 0 0 = true ∧
    runsWith awake (.replayFreeze 0) 0 0 0 0 0 = true ∧ runsWith awake (.replayRead 0) 0 0 0 0 0 = true ∧
    runsWith awake (.replayRelease 0) 0 0 0 0 0 = true := by decide +kernel
theorem witness_DiagHuddleAndSecurityCommands :
    runsWith awake (.echo 0 (.bytes [])) 8888 0 0 0 0 = true ∧ runsWith awake (.regRead 0 (.bytes [])) 1024 0 0 0 0 = true ∧
    runsWith awake (.regWrite 0 (.bytes [])) 1024 0 0 0 0 = true ∧ runsWith awake (.injTrigger 0) 0 11 0 0 0 = true ∧
    runsWith awake (.memRead 0) 0 0xFFFFFFFC 0 0 0 = true ∧ runsWith awake (.huddleCommit 0 (.bytes [])) 0 1024 0 0 0 = true ∧
    runsWith awake (.huddleResolve 0) 0 5 1 0 0 = true ∧ runsWith awake (.huddleStatus 0) 0 5 0 0 0 = true ∧
    runsWith awake (.attest 0 (.bytes [])) 32 0 0 0 0 = true ∧ runsWith awake (.patchLoad 0 (.bytes [])) 1048576 0 0 0 0 = true ∧
    runsWith awake (.keyEnrol 0 (.bytes [])) 8192 0 0 0 0 = true ∧ runsWith awake (.enforceSet 0 (.bytes [])) 0 3 0 0 0 = true ∧
    runsWith awake (.jtagChallenge 0) 0 0 0 0 0 = true ∧ runsWith awake (.jtagUnlock 0 (.bytes [])) 8192 0 0 0 0 = true := by
  decide +kernel

/-! ## Witnesses: engine controls and memories -/

/-- The engine's program holds END as its first word. -/
def ends : State := { runs with mem := writeBytes memBlank [] (progAddr 3 0 0) [0#8, 0#8, 0#8, 0#8, 0#8, 0#8, 0#8, 1#8] }
theorem witness_EnginesArmStopAndRefuse_1 :
    (engRuns runs (3 : Fin 96) = true ∧ (engOf runs (3 : Fin 96)).active = true ∧ endDue runs (3 : Fin 96) = false ∧
      noBlockReset runs (257 + 2 * ((3 : Fin 96) / 8)) = true ∧ noBlockReset runs (284 + 4 * ((3 : Fin 96) / 8)) = true) ∧
    (let s := (updEngN 3 fun x => { x with cycle := 383 }).run { ends with eng := { ends.eng with frameLen := 383 } }
     engRuns s (3 : Fin 96) = true ∧ (engOf s (3 : Fin 96)).active = true ∧ endDue s (3 : Fin 96) = true) := by decide +kernel
theorem witness_EnginesArmStopAndRefuse_2 :
    (writeTaken runs (A.engCtrl (3 : Fin 96)) = true ∧ bankOk runs (3 : Fin 96) (actBank runs (3 : Fin 96)) = true ∧
      bankOk awake (3 : Fin 96) (actBank awake (3 : Fin 96)) = false ∧ writeTaken runs (A.engSwap (3 : Fin 96)) = true ∧ (2 : Fin 4).val < 3) ∧
    (writeTaken runs (A.engSpbank (3 : Fin 96)) = true ∧ bit runs (A.engSpbank (3 : Fin 96)) 2 = false ∧ engHalted runs (3 : Fin 96) = false ∧
      bit runs (A.engStat (3 : Fin 96)) 24 = false) ∧
    (let s := regs [(A.engStat 3, 0x41000000#32), (A.engSpbank 3, 4#32)] awake
     bit s (A.engSpbank (3 : Fin 96)) 2 = true ∧ engHalted s (3 : Fin 96) = true ∧ bit s (A.engStat (3 : Fin 96)) 24 = true) := by decide +kernel
theorem witness_ExternalWritesKeepTheirRules :
    (domUp awake ((3 : Fin 96) / 8) = true ∧ engRuns awake (3 : Fin 96) = false ∧ (103 : Fin 128).val < 104 ∧ enfProg awake = false) ∧
    (engRuns runs (3 : Fin 96) = true ∧ 112 ≤ (112 : Fin 128).val ∧ (119 : Fin 128).val < 120 ∧ bit runs (A.engSpbank (3 : Fin 96)) 2 = false ∧
      bit runs (A.engStat (3 : Fin 96)) 24 = false ∧ (0 : Fin 2).val = actBank runs (3 : Fin 96) ∧ (1 : Fin 2).val ≠ actBank runs (3 : Fin 96)) ∧
    (104 ≤ (104 : Fin 128).val ∧ (111 : Fin 128).val < 112 ∧ 120 ≤ (120 : Fin 128).val) ∧
    (let s := regs [(A.engSpbank 3, 4#32)] { runs with sec := { runs.sec with enf := 1#3 } }
     engRuns s (3 : Fin 96) = true ∧ bit s (A.engSpbank (3 : Fin 96)) 2 = true ∧ enfProg s = true) ∧
    (domUp awake (11 : Fin 12) = true ∧ 0xE0000 ≤ 4 * (229376 : Fin 262144).val ∧ 4 * (261855 : Fin 262144).val < 0xFFB80 ∧
      4 * (229375 : Fin 262144).val < 0xE0000 ∧ 0xFFB80 ≤ 4 * (261856 : Fin 262144).val) := by decide +kernel
theorem witness_EngineFramesAndTablesFollowTheirSources :
    (let s := regs [(A.cluStat 11, 0x80000000#32)] { awake with eng := { awake.eng with ectWait := [10751] } }
     writeTaken s (A.cluCtrl (11 : Fin 12)) = true ∧ writeTaken s (A.engCtrl (95 : Fin 96)) = true ∧ domUp s (11 : Fin 12) = true ∧
       supvRuns s = true ∧ bit s A.nvmStat 31 = true ∧ (10751 : Fin 10752).val ∈ s.eng.ectWait ∧
       bit s (A.cluStat ((10751 : Fin 10752) / 896)) 30 = false ∧ bit s (A.cluStat ((10751 : Fin 10752) / 896)) 31 = true) := by decide +kernel

/-! ## Witnesses: network time -/

/-- PTP on port 1, in domain 24, with a selected master. -/
def ptp1 (x : PtpPort) (stat ptp : Word) : State := regs [(A.ptpCtrl, 0x13#32), (A.ppCtrl 1, 1#32), (A.ethStat 1, 0x100#32), (A.ppStat 1, stat),
    (A.ppMasterLo 1, 0x55#32), (A.ptpDomain, 24#32), (A.ptpStat, ptp)]
  { awake with clk := { awake.clk with mono := 49152000000 }, tim := { ports := [(1, x)] } }
def sync1 (plain : Bool) : PtpHead := {
  port := 1, master := 0x55, domain := 24, seq := 7, corr := 0, secure := true, transport := .ethernet, dest := .forwardable
  option := if plain then .plain else .management, sub := 0 }
def gm1 (p : BitVec 8) : GmData := { prio1 := 0, cls := p, accuracy := 0x21, variance := 0, prio2 := 128, gm := 0x55, steps := 0, utcOffset := 37 }
theorem witness_PtpMessagesMoveTheServo_1 : ¬PtpHeard awake (sync1 true) ∧ PtpHeard (ptp1 {} 0x38000000#32 0#32) (sync1 false) ∧
    ptpSupported (ptp1 {} 0x38000000#32 0#32) (sync1 false) false = false ∧ PtpOurs (ptp1 {} 0x38000000#32 0#32) (sync1 true) false ∧
    PtpOurs (regs [(A.ptpCtrl, 0x11#32)] (ptp1 {} 0x38000000#32 0#32)) (sync1 true) true := by
  unfold PtpOurs PtpHeard
  decide +kernel
theorem witness_PtpMessagesMoveTheServo_2 :
    (let x : PtpPort := { gm := some (gm1 5), pending := some (7, 0) }
     let s := ptp1 x 0x38000000#32 0#32
     fromMaster s (sync1 true) = true ∧ (ptpOf s 1).pending = some (7, 0) ∧ ppState s 1 = ppSlave ∧ (ptpOf s 1).exch = []) ∧
    (let s := ptp1 { gm := some (gm1 5) } 0x30000000#32 0#32
     fromMaster s (sync1 true) = false ∧ (ptpOf s 1).gm = some (gm1 5) ∧ listLt (gmKey s 1 (gm1 4)) (gmKey s 1 (gm1 5)) = true ∧
       listLt (gmKey s 1 (gm1 5)) (gmKey s 1 (gm1 5)) = false) := by decide +kernel
theorem witness_PtpMessagesMoveTheServo_3 :
    (let s := ptp1 { exch := [(0, 0)], req := some (7, 0), raw := some 0 } 0x38000000#32 0x01000000#32
     (ptpOf s 1).exch ≠ [] ∧ ppState s 1 = ppSlave ∧ 1 = ptpSource s ∧ servoState s = 0 ∧ (ptpOf s 1).req = some ((sync1 true).seq, 0) ∧
       2 ≤ ppState s 1 ∧ (ptpOf s 1).raw = some 0 ∧ servoState s ≠ 4 ∧ ptpPeer s 1 = false ∧ fromMaster s (sync1 true) = true) ∧
    (let s := regs [(A.ppCtrl 1, 3#32), (A.ptpCtrl, 0x11#32)] (ptp1 { req := some (7, 0), raw := some 0 } 0x38000000#32 0x21000000#32)
     ptpPeer s 1 = true ∧ servoState s = 2) ∧ (ptpOf awake 1).req = none := by decide +kernel
/-- A second has 768,000,000 counts of the time base: at the interval's end a request is due, one count before it is not. -/
theorem witness_TimeKeepsItsIntervals_1 :
    (let s := ptp1 {} 0x38000000#32 0x41000000#32
     domRuns s 39 = true ∧ ppState s (1 : Fin 2) = ppSlave ∧ (ptpOf s (1 : Fin 2)).reqAt = none ∧
       3 * syncTicks s (1 : Fin 2) ≤ s.clk.mono - (ptpOf s (1 : Fin 2)).syncAt ∧ ppIsSlave s (1 : Fin 2) = true ∧ ppIsSlave s 0 = false ∧
       servoState s = 4 ∧ 768000000 * fld s A.pcCtrl 31 24 ≤ s.clk.mono - s.tim.pathAt) ∧
    (let s := ptp1 { reqAt := some 49104000001 } 0x38000000#32 0#32
     ¬(reqTicks s (1 : Fin 2) ≤ s.clk.mono - 49104000001) ∧ servoState s ≠ 4) ∧
    ppState awake (1 : Fin 2) ≠ ppSlave ∧ ppState awake (1 : Fin 2) ≠ ppUncalibrated := by decide +kernel
theorem witness_TimeKeepsItsIntervals_2 :
    (let s := { awake with clk := { awake.clk with mono := 800000000000 },
                           tim := { tick := 2 ^ 46, heldAt := some 0, ppsInAt := some 0, nA := 96 * 2 ^ 41 * 1000000000 } }
     s.tim.heldAt = some 0 ∧ 768000000 * fld s A.hoSync 6 0 ≤ s.clk.mono - 0 ∧ 2 ^ 46 ≤ (s.tim.tick + 2 ^ 48 - s.tim.anchor) % 2 ^ 48 ∧
       domRuns s 39 = true ∧ s.tim.ppsSec < nowNs s / 1000000000 ∧ bit s A.ptpCtrl 6 = false) ∧
    (let s := regs [(A.ptpCtrl, 0x153#32)] { awake with clk := { awake.clk with mono := 844800000 }, tim := { tick := 2 ^ 46 - 1, ppsInAt := some 0 } }
     fld s A.ptpCtrl 9 8 = 1 ∧ s.tim.ppsMissed = false ∧ s.tim.ppsInAt = some 0 ∧ 844800000 ≤ s.clk.mono - 0 ∧
       (s.tim.tick + 2 ^ 48 - s.tim.anchor) % 2 ^ 48 < 2 ^ 46) ∧
    domRuns State.reset 39 = false ∧ awake.tim.heldAt = none ∧ awake.tim.ppsInAt = none ∧ writeTaken awake A.ptpCtrl = true := by decide +kernel
theorem witness_CommandsAreCheckedBeforeTheyAct_1 : supvRuns awake = true ∧ cmdOf awake 128 = none ∧
    (let s := { queued [] [] with clk := { awake.clk with mono := 767999999 }, sec := { failedAt := some 0 } }
     turnCome s (.jtagChallenge 0) = false ∧ turnCome s (.identify 0) = true) := by decide +kernel
theorem witness_CommandsAreCheckedBeforeTheyAct_2 :
    (let c := { cmd1 { opcode := 0x0101, cid := 1, respLen := 255 } with queue := 0 }
     let k : CmdSpec := { op := 0x0101, tenant := true, resp := fun _ => 256 }
     CmdStarts (queued [c] []) k 128 c ∧ checkCmd c k = some (St.respTooSmall, 256)) ∧
    (let c := { cmd1 { opcode := 0x0301, cid := 1 } with queue := 0 }
     let k : CmdSpec := { op := 0x0301, count := some (1, 4096), len := fun e => 8 * e.count.toNat + e.p3.toNat, maxLen := 40960 }
     CmdStarts (queued [c] []) k 128 c ∧ checkCmd c k = none ∧ emptyList k c = true) := by
  unfold CmdStarts
  decide +kernel
theorem witness_CommandsAreCheckedBeforeTheyAct_3 :
    (let c := { cmd1 { opcode := 0x0901, cid := 1, count := 32, length := 32 } with bad := some 32, dgram := some (0, 0, .korotte 9) }
     let k : CmdSpec := { op := 0x0901, tenant := true, count := some (32, 32), len := lenCount, maxLen := 32 }
     CmdStarts (queued [c] []) k 128 c ∧ checkCmd c k = none ∧ emptyList k c = false ∧ c.dgram.isSome = true ∧ c.bad = some 32) ∧
    (let c := { cmd1 { opcode := 0x0901, cid := 1, count := 32, length := 32 } with bad := some 32 }
     let k : CmdSpec := { op := 0x0901, tenant := true, count := some (32, 32), len := lenCount, maxLen := 32 }
     CmdStarts (queued [c] []) k 128 c ∧ checkCmd c k = none ∧ c.dgram = none ∧ c.entry.length.toNat ≠ 0) := by
  unfold CmdStarts
  decide +kernel

/-! ## Witnesses: Ethernet and telemetry -/

/-- Port 0 runs as one MAC, with 7 of its lanes locked and the MAC up. -/
def net0 (l : List (Nat × Word)) : State := regs ([(A.ethCtrl 0, 1#32), (A.ethStat 0, 0x17F#32), (A.tshCtrl, 1#32)] ++ l)
  { awake with tim := { tick := 768, nA := 96 * 2 ^ 41 * 1000 } }
def eg0 (l : Option Nat) : NetFrame := { dst := 1, body := .udp false 1 2 3 [], bytes := 64, launch := l }
def egress0 (l : List (Nat × Word)) : State := { net0 l with net := { queues := [(0, { frames := [eg0 (some 1000)] })] } }
theorem witness_EgressFollowsGatesTagsAndTokens_1 :
    (let s := { net0 [(A.gateMacOf 0 0, 1#32), (A.gateMacOf 0 1, 1#32)] with net := { macs := [(0, { changeAt := some 1000 })] } }
     gated s (0 : Fin 16) = true ∧ domRuns s 39 = true ∧ (macOf s (0 : Fin 16)).changeAt = some 1000 ∧ reached s 1000 = true) ∧
    (let s := net0 [(A.gclOf 0 0 0, 1#32), (A.gclOf 0 0 1, 8#32), (A.gclOf 0 0 9, 8#32)]
     gated s (0 : Fin 16) = false ∧ writeTaken s A.gclCtrl = true ∧ bit s (A.gateMacOf (0 : Fin 16) 0) 1 = false ∧ adminGood s (0 : Fin 16) = true) ∧
    (let s := net0 [(A.gclOf 0 0 0, 1#32), (A.gclOf 0 0 1, 8#32), (A.gclOf 0 0 9, 7#32)]
     adminGood s (0 : Fin 16) = false) := by decide +kernel
theorem witness_EgressFollowsGatesTagsAndTokens_2 :
    (let s := egress0 []
     macUp s (0 : Fin 16) = true ∧ domRuns s (44 + 2 * ((0 : Fin 16) / 8)) = true ∧ (macOf s (0 : Fin 16)).free ≤ fineNow s ∧
       busyQueues s (0 : Fin 16) = [0] ∧ nowNs s ≤ 1000 + 1000000000 ∧ pickQueue s (0 : Fin 16) = some 0 ∧ (egQueue s 0).frames.head? = some (eg0 (some 1000)) ∧
       bit s (A.msCtrl (0 : Fin 16)) 0 = false ∧ macProtects s (0 : Fin 16) = false ∧ (0 : Nat) < 2048) ∧
    (let s := { net0 [] with net := { queues := [(0, { frames := [eg0 (some 3000)] })], macs := [(0, { free := 1 })] } }
     pickQueue s (0 : Fin 16) = none ∧ fineNow s < (macOf s (0 : Fin 16)).free) ∧
    (let s := egress0 [(A.msCtrl 0, 1#32), (A.queueOf 0 3, 0xFFFFF#32)]
     bit s (A.msCtrl (0 : Fin 16)) 0 = true ∧ (eg0 (some 1000)).body.control = false ∧ secureUp s (0 : Fin 16) = false ∧ fld s (A.queueOf 0 3) 19 0 ≠ 0) ∧
    (let s := egress0 [(A.msCtrl 0, 3#32), (A.msStat 0, 2#32)]
     macProtects s (0 : Fin 16) = true ∧ (macOf s (0 : Fin 16)).txPn < 2 ^ 64 - 2 ^ 30) ∧ macUp awake (0 : Fin 16) = false := by decide +kernel
/-- A policer with two rates whose peak is the committed rate passes; one below it, and a burst above 1,048,576 bytes, do not. -/
theorem witness_EgressFollowsGatesTagsAndTokens_3 :
    (let s := net0 []
     writeTaken s A.qApply = true ∧ writeTaken s A.histClr = true ∧ bit s A.tshCtrl 0 = true ∧ domRuns s 12 = true ∧ writeTaken s A.tshCtrl = true ∧
       writeTaken s A.polApply = true ∧ writeTaken s A.polCtrl = true) ∧
    bit (regs [(A.tshCtrl, 0#32)] awake) A.tshCtrl 0 = false ∧
    (let p (a b c : Word) : State := net0 [(A.policerOf 0 0, 4#32), (A.policerOf 0 1, a), (A.policerOf 0 2, b), (A.policerOf 0 3, c)]
     let bad (s : State) : Bool := decide (polMode (rd s (A.policerOf 0 0)) = 2 ∧ bits (rd s (A.policerOf 0 3)) 26 0 < bits (rd s (A.policerOf 0 1)) 26 0) ||
       decide (1048576 < bits (rd s (A.policerOf 0 2)) 20 0)
     bad (p 5#32 0x100000#32 5#32) = false ∧ bad (p 5#32 0x100001#32 5#32) = true ∧ bad (p 5#32 0#32 4#32) = true ∧
       polMode (polParam awake 0 0) = 0) := by decide +kernel
def rx0 (n : Nat) (ok : Bool) (kind : RxKind) (sec : Option (BitVec 64 × Fin 4 × Nat × Bool)) : EthRx :=
  { bytes := n, prio := 3, fcsOk := ok, kind := kind, sec := sec }
theorem witness_IngressIsCheckedAndPaced_1 :
    (let s := net0 []
     bit s (A.ethCtrl (0 : Fin 2)) 0 = true ∧ domRuns s (44 + 2 * (0 : Fin 2)) = true ∧ domRuns s (45 + 2 * (0 : Fin 2)) = true ∧
       writeTaken s (A.ethCtrl (0 : Fin 2)) = true ∧ bit s (A.ethCtrl (1 : Fin 2)) 0 = false ∧ macUp s (0 : Fin 16) = true ∧
       (rx0 9217 false .command none).fcsOk = false ∧ 9216 < (rx0 9217 true .command none).bytes ∧ (rx0 9216 true .command none).bytes ≤ 9216 ∧
       bit s (A.msCtrl (0 : Fin 16)) 0 = false ∧ lossless s (0 : Fin 16) (3 : Fin 8) = false ∧ macUp s (15 : Fin 16) = false) ∧
    (let s := { net0 [(A.msCtrl 0, 0x5#32)] with net := { macs := [(0, { scs := [{ sci := 9, sas := [(2, 100)] }] })] } }
     uncontrolled s .command = false ∧ uncontrolled s .mka = true ∧ bit s (A.msCtrl (0 : Fin 16)) 0 = true ∧ bit s (A.msCtrl (0 : Fin 16)) 2 = true ∧
       ((macOf s (0 : Fin 16)).scs.find? fun y => y.sci == (9#64).toNat) = some { sci := 9, sas := [(2, 100)] } ∧
       99 + fld s (A.msReplayWin (0 : Fin 16)) 29 0 < 100 ∧ 100 ≤ 100 + fld s (A.msReplayWin (0 : Fin 16)) 29 0 ∧
       ((macOf s (0 : Fin 16)).scs.find? fun y => y.sci == (8#64).toNat) = none) := by decide +kernel
/-- Lossless priority 3 holds 300 bytes; its XOFF level is 1,000 and its headroom 200. -/
theorem witness_IngressIsCheckedAndPaced_2 :
    (let s := { net0 [(A.macCtrl 0, 0x080800#32), (A.pfcOf 0 3 0, 200#32), (A.pfcOf 0 3 1, 1000#32), (A.pfcStat 0, 0x0808#32), (A.pfcOf 0 3 2, 299#32)] with
       net := { macs := [(0, { rx := [(3, 300)], paused := [(3, 0)] })] }, clk := { awake.clk with mono := 2 ^ 40 } }
     let lim := xoffLevel s (0 : Fin 16) (3 : Fin 8) + fld s (A.pfcOf (0 : Fin 16) (3 : Fin 8) 0) 22 0
     lossless s (0 : Fin 16) (3 : Fin 8) = true ∧ lim < rxHeld s (0 : Fin 16) (3 : Fin 8) + 901 ∧ rxHeld s (0 : Fin 16) (3 : Fin 8) + 900 ≤ lim ∧
       rxHeld s (0 : Fin 16) (3 : Fin 8) + 700 ≤ xoffLevel s (0 : Fin 16) (3 : Fin 8) ∧
       xoffLevel s (0 : Fin 16) (3 : Fin 8) < rxHeld s (0 : Fin 16) (3 : Fin 8) + 701 ∧
       bit s (A.pfcStat (0 : Fin 16)) (3 : Fin 8) = true ∧ fld s (A.pfcOf (0 : Fin 16) (3 : Fin 8) 2) 20 0 < rxHeld s (0 : Fin 16) (3 : Fin 8) ∧
       32768 * quantum s (0 : Fin 16) ≤ fineNow s - sget (fun _ => 0) (macOf s (0 : Fin 16)).xoffAt (3 : Fin 8)) ∧
    (let s := { net0 [(A.pfcStat 0, 0x800#32), (A.macCtrl 0, 0x0800#32)] with net := { macs := [(0, { paused := [(3, 0)] })] } }
     bit s (A.pfcStat (0 : Fin 16)) (8 + (3 : Fin 8)) = true ∧ sget (fun _ => 0) (macOf s (0 : Fin 16)).paused (3 : Fin 8) ≤ fineNow s ∧
       bit s (A.macCtrl (0 : Fin 16)) (8 + 3) = true ∧ bit s (A.macCtrl (0 : Fin 16)) (8 + 2) = false) := by decide +kernel
theorem witness_IngressIsCheckedAndPaced_3 :
    (let s := { net0 [(A.msCtrl 0, 1#32), (A.ipv4 0, 0x0A000001#32), (A.ipv6 0 3, 0xFE800000#32), (A.msStat 0, 2#32)] with
       net := { macs := [(0, { cak := some ([], []), scs := [{ sci := 9 }] })] } }
     rd s (A.ipv4 (0 : Fin 16)) = 0x0A000001#32 ∧ gated s (0 : Fin 16) = false ∧ ipv6Of s (0 : Fin 16) = 0xFE800000 * 2 ^ 96 ∧
       supvRuns s = true ∧ bit s (A.msCtrl (0 : Fin 16)) 0 = true ∧ (macOf s (0 : Fin 16)).cak.isSome = true ∧ secureUp s (0 : Fin 16) = true ∧
       writeTaken s (A.cakCtrl (0 : Fin 16)) = true ∧ writeTaken s (A.msCtrl (0 : Fin 16)) = true) ∧
    (let s := net0 [(A.macCtrl 0, 0x080000#32)]
     writeTaken s (A.macCtrl (0 : Fin 16)) = true ∧ ((List.range 8).filter (7#8).toNat.testBit).length = 3 ∧
       ((List.range 8).filter (6#8).toNat.testBit).length = 2 ∧ writeTaken s (A.pfcHdrm (0 : Fin 16)) = true ∧ losslessOf s ((0 : Fin 16) / 8) = [(0, 3)] ∧
       fld (regs [(A.pfcSel 0, 3#32)] s) (A.pfcSel (0 : Fin 16)) 2 0 = 3 ∧ (4400000#23).toNat ≤ 4400000 ∧ 4400000 < (4400001#23).toNat) ∧
    secureUp awake (0 : Fin 16) = false ∧ (macOf awake (0 : Fin 16)).cak = none := by decide +kernel
theorem witness_TelemetryRecordsFillSlices :
    (let u : Sub := { image := List.replicate 64 0#8, owner := 64, sliceLen := 1, batch := 1, start := 4 }
     let s := { net0 [(A.repStat, 0x80000000#32)] with tim := { frames := 5 }, net := { subs := [(2, some u)] } }
     sget (fun _ => none) s.net.subs (2 : Fin 1024) = some u ∧ u.start ≤ netFrame s - 1 ∧ (netFrame s - 1 - u.start) % subDecim u.image = 0 ∧ u.last = none ∧
       s.rep.left = 0 ∧ sget (fun _ => none) s.net.subs (3 : Fin 1024) = none) ∧
    (let s := regs [(A.repStat, BitVec.twoPow 32 repPosting), (A.umpSrc 381, 0xFFFFFFFF#32)] awake
     bit s A.repStat repPosting = true ∧ s.rep.left = 0 ∧ srcFlag s 381 = true ∧ srcSevere s 381 = true ∧ bit awake A.repStat repPosting = false) := by decide +kernel

/-! ## Witnesses: memories -/

theorem witness_HbmAndSramErrorsAreContained_1 :
    (let s := regs [(A.rstPhase, 5#32)] awake
     atPhase s 5 = true ∧ domRuns s 40 = true ∧ domRuns s 41 = true ∧ atPhase awake 5 = false) ∧
    (let s := { awake with hbmBad := [402653183] }
     bit s A.hbmStat 31 = true ∧ (402653182 : Fin 402653184).val ∉ s.hbmBad ∧ (402653183 : Fin 402653184).val ∈ s.hbmBad ∧ bit s A.hbmCtrl 0 = true ∧
       bit s A.hbmErraddrHi 31 = false ∧ fld s A.hbmRetired 12 0 < 4096 ∧ fld (regs [(A.hbmRetired, 4096#32)] s) A.hbmRetired 12 0 = 4096 ∧
       domUp s 40 = true ∧ writeTaken s A.hbmCtrl = true) ∧
    (let s := regs [(A.hbmAper, BitVec.ofNat 32 (scratchBase / 2 ^ 31))] awake
     let a (k : Nat) : Nat := fld s A.hbmAper 3 0 * 2 ^ 31 + 4 * k
     let w := (scratchBase % 2 ^ 31) / 4
     scratchBase ≤ a w ∧ a (w + 0xFFFFFF) < scratchBase + 0x4000000 ∧ a (w - 1) < scratchBase ∧ scratchBase + 0x4000000 ≤ a (w + 0x1000000)) ∧
    bit State.reset A.hbmStat 31 = false ∧ domUp State.reset 40 = false := by decide +kernel
theorem witness_HbmAndSramErrorsAreContained_2 : domRuns awake 11 = true ∧ domRuns State.reset 11 = false ∧
    (0x5FFFFF : Fin 50331648).val < 0x600000 ∧ 0x1000000 ≤ (0x1000000 : Fin 50331648).val ∧ (0x15FFFFF : Fin 50331648).val < 0x1600000 ∧
    0x2000000 ≤ (0x2000000 : Fin 50331648).val ∧ (0x2BFFFFF : Fin 50331648).val < 0x2C00000 ∧
    4 * ((0x20DFFFF : Fin 50331648).val % 0x100000 / 4) < 0xE0000 := by decide +kernel
/-- A transaction that stores an MRAM record of two words. -/
def txn1 : NvmTxn := { recs := [{ region := 1, index := 0, payload := List.replicate 16 1#8 }] }
def nvm1 (n : NvmSt) : State := { awake with nvm := n }
theorem witness_MramTransactionsCommitWhole_1 :
    (let s := nvm1 { queue := [txn1] }
     s.nvm.stopped = false ∧ inSafe s = false ∧ bit s A.nvmStat 31 = true ∧ nvmInhibited s = false ∧ s.nvm.run = none ∧ s.nvm.queue = [txn1] ∧ s.nvm.clear = [] ∧
       (txnSteps s { txn1 with recs := [], options := some (List.replicate 4096 0#8) } 1).length = 30 ∧ writeTaken s A.nvmCtrl = true) ∧
    (let s := regs [(A.nvmStat, 0x90000000#32)] (nvm1 { queue := [txn1] })
     bit s A.nvmStat 31 = true ∧ nvmInhibited s = true) ∧
    (let r : NvmRun := { txn := { txn1 with tag := some 3 }, num := 1, steps := [[(0x6000, [1#8])]], slots := [] }
     let s := nvm1 { run := some r }
     s.nvm.run = some r ∧ r.steps.length ≤ 1 ∧ r.txn.tag = some 3 ∧ r.txn.options = none ∧ nvmInhibited s = false) ∧
    awake.nvm.run = none ∧ awake.nvm.queue = [] := by decide +kernel
theorem witness_MramTransactionsCommitWhole_2 :
    (let s := regs [(A.nvmStat, 0#32)] awake
     domInReset s 42 = false ∧ bit s A.nvmStat 31 = false ∧ storedTxn s = some 0 ∧ storedTxn { s with mramBad := [0x800, 0x801] } = none) ∧
    (domInReset State.reset 42 = true ∧ bit awake A.nvmCtrl 0 = true ∧ bit awake A.nvmStat 31 = true ∧ mramRegion (8 * 0x3B6FFF) = some 7 ∧ mramRegion (8 * 0x3B7000) = none ∧
       bit (regs [(A.nvmCtrl, 0#32)] awake) A.nvmCtrl 0 = false) := by decide +kernel
theorem witness_MramTransactionsCommitWhole_3 :
    (writeTaken awake A.nvmPtCtrl = true ∧ bit awake A.nvmStat 29 = false ∧
      (let img := hbmAt awake scratchBase parkLen
       parkError img (parkActive awake img) = some 0)) ∧
    bit (regs [(A.nvmStat, 0xA0000000#32)] awake) A.nvmStat 29 = true ∧ awake.nvm.parkNext = none ∧
    (let s := { lab [] with nvm := { parkNext := some [0#8], parkRewrite := true } }
     s.nvm.parkNext = some [0#8] ∧ s.clk.noPark = false ∧ [0#8] ≠ [] ∧ s.nvm.parkRewrite = true ∧ elemAssigned s (0 : Fin 10752) = true ∧
       elemAssigned s (10751 : Fin 10752) = false) := by decide +kernel

/-! ## Witnesses: clocks, resets, the Umpire, sensors, register accesses -/

theorem witness_ClocksQualifyDropAndGate_1 :
    (let s := { regs [(A.rstPhase, 0#32)] State.reset with clk := { lossReset := some 0 } }
     s.clk.por = false ∧ s.clk.aon = false ∧ s.clk.lossReset = some 0 ∧ s.clk.req = false ∧ atPhase s 0 = true) ∧
    (let s := { regs [(A.clkStat, 0x08000000#32), (A.rstPhase, 1#32)] State.reset with clk := { aon := true, lossReset := some 1 } }
     s.clk.aon = true ∧ s.clk.por = false ∧ s.clk.inReset = false ∧ bit s A.clkStat 30 = false ∧ bit s A.clkStat 28 = false ∧ s.clk.lossReset = some 1 ∧
       s.clk.req = false ∧ atPhase s 1 = true) ∧
    awake.clk.aon = true ∧ awake.clk.por = false ∧ bit awake A.clkStat 30 = true ∧ bit awake A.clkStat 28 = true := by decide +kernel
theorem witness_ClocksQualifyDropAndGate_2 :
    (let s := { regs [(A.clkDstat 3, 0#32)] awake with clk := { aon := true, saved := [(0x100000, 5#32)] } }
     (3 : Fin 60).val ≠ 43 ∧ s.clk.por = false ∧ s.clk.inReset = false ∧ domGood s (3 : Fin 60) = false ∧ (3 : Fin 60).val ≤ 42 ∧ bit s A.clkStat 30 = true ∧
       2 ≤ fld s A.rstPhase 2 0 ∧ (3 : Fin 60).val ∉ s.clk.lost ∧ restorable (14 : Fin 60) = false ∧ (14 : Fin 60).val ∉ [12, 13, 42] ∧ domGood s (42 : Fin 60) = true ∧ restorable (38 : Fin 60) = true ∧
       restorable (39 : Fin 60) = false) ∧
    (let s := { awake with clk := { aon := true, lost := [15, 3], saved := [(0x100004, 5#32)] } }
     restorable (15 : Fin 60) = true ∧ (15 : Fin 60).val ∈ s.clk.lost ∧ bit s A.clkStat 30 = true ∧ 4 ≤ fld s A.rstPhase 2 0 ∧ s.thm.tripped = false ∧
       supvRuns s = true ∧ (s.clk.saved.map (·.1)).Nodup ∧ (0x100004, 5#32) ∈ s.clk.saved) ∧
    (let s := { regs [(A.rstPhase, 4#32), (A.clkDstat 13, 0#32)] awake with clk := { aon := true, lost := [3] } }
     4 ≤ fld s A.rstPhase 2 0 ∧ supvRuns s = false ∧ (3 : Fin 60).val ∈ s.clk.lost) := by decide +kernel
theorem witness_ClocksQualifyDropAndGate_3 :
    (let s := queued [cmd1 { opcode := 0x0101, cid := 1 }] []
     domInReset s (58 : Fin 60) = false ∧ (s.host.cmds.any fun c => c.tag == (128 : Fin 4096).val) = true ∧ domInReset State.reset (58 : Fin 60) = true ∧
       fifoHeld awake (58 : Fin 60) = false ∧ fifoHeld { awake with clk := { aon := true, resync := [58] } } (58 : Fin 60) = true ∧ fifoPeers 58 = []) ∧
    (writeTaken awake (gateReg (44 : Fin 60)) = true ∧ gateable (12 : Fin 60) = false ∧ gateable (44 : Fin 60) = true ∧
      bit awake (gateReg (44 : Fin 60)) ((44 : Fin 60) % 32) = false ∧ gateOk awake (44 : Fin 60) = true ∧
      gateOk (regs [(A.ethCtrl 0, 1#32)] awake) (44 : Fin 60) = false) ∧
    (clkGated (regs [(gateReg 44, BitVec.twoPow 32 12)] awake) (44 : Fin 60) = true ∧ clkGated awake (44 : Fin 60) = false) := by decide +kernel
theorem witness_ResetsAndBringUpFollowTheirTables_1 :
    ({ awake with clk := { por := true } }.clk.por = true ∧ awake.clk.por = false ∧ bit (regs [(A.rstWdt, 0x800001F4#32)] awake) A.rstWdt 31 = true ∧
      bit awake A.rstWdt 31 = false ∧ writeTaken awake A.rstSwrst = true ∧ jtagFull awake = true ∧ jtagFull State.reset = false ∧
      jtagFull { awake with sec := { enf := 4#3 } } = false ∧ tripKept .part false = true ∧ tripKept .full true = false) ∧
    (let s := { regs [(A.repStat, BitVec.twoPow 32 repFrozen), (A.rstWdt, 0x1F4#32)] awake with clk := { aon := true, req := true } }
     s.clk.req = true ∧ s.clk.aon = true ∧ s.clk.por = false ∧ s.nvm.flog = [] ∧ bit s A.repStat repFrozen = true ∧ bit s A.hbmStat 31 = true) ∧
    (bit awake A.repStat repFrozen = false ∧ awake.clk.inReset = false ∧
      (let s := { regs [(A.rstPhase, 0#32)] awake with clk := { aon := true, inReset := true } }
       s.clk.inReset = true ∧ s.clk.req = false ∧ s.thm.tripped = false ∧ fld s A.rstPhase 2 0 = 0)) := by decide +kernel
theorem witness_ResetsAndBringUpFollowTheirTables_2 :
    (let at_ (k : Word) : State := regs [(A.rstPhase, k)] awake
     atPhase (at_ 2#32) 2 = true ∧ atPhase (at_ 3#32) 3 = true ∧ atPhase (at_ 3#32) 2 = false ∧ atPhase (at_ 4#32) 4 = true ∧ atPhase (at_ 4#32) 3 = false ∧
       supvRuns (at_ 4#32) = true ∧ bit (at_ 4#32) A.nvmStat 31 = true ∧ atPhase (at_ 6#32) 6 = true ∧ supvRuns (at_ 6#32) = true ∧
       atPhase awake 4 = false ∧ atPhase awake 6 = false ∧ leAt awake.nvm.opt 14 1 % 2 = 0) ∧
    recValue awake 3 0 = none ∧ recValue awake 5 0 = none := by decide +kernel
theorem witness_UmpireCountsHoldsAndProtects_1 :
    (domInReset awake 42 = false ∧ domInReset State.reset 42 = true ∧ sourceTile 403 = none ∧ sourceDomains 183 ≠ [] ∧ sourceDomains 403 = [] ∧ bit awake A.umpStat 28 = false ∧ srcFlag awake 403 = false ∧ inSafe awake = false) ∧
    (let s := regs [(A.umpSrc 403, 0xC0000000#32)] awake
     srcFlag s 403 = true ∧ srcSevere s 403 = true) ∧
    (let s := regs [(A.umpSrc 385, 0x40000000#32), (A.umpFeSrc, 0xB0000000#32), (A.umpCfgOf 385, BitVec.twoPow 32 (20 + reLOG))] awake
     srcFlag s 385 = false ∧ srcSevere s 385 = true ∧ evReact s 385 = 2 ^ reLOG ∧ bit s A.umpFeSrc 31 = true ∧ bit s A.nvmStat 28 = false ∧
       fld s A.umpFeSrc 29 28 = 3) ∧
    (evReact (regs [(A.umpCfgOf 385, BitVec.twoPow 32 (20 + reSAFE))] awake) 385).testBit reSAFE = true ∧
    inSafe (regs [(A.umpStat, 0x80000000#32)] awake) = true := by decide +kernel
theorem witness_UmpireCountsHoldsAndProtects_2 :
    (bit awake A.umpExt (0 : Fin 2) = false ∧ bit (regs [(A.umpExt, 2#32)] awake) A.umpExt (1 : Fin 2) = true ∧ 402 + (1 : Fin 2).val ∉ awake.ump.level ∧
      { awake with ump := { level := [403] } }.ump.level = [403] ∧ writeTaken awake A.umpCtrl = true ∧ writeTaken awake (A.umpSrc (403 : Fin 404)) = true ∧
      sourceLevel (403 : Fin 404) = true ∧ sourceLevel (87 : Fin 404) = false ∧ sourceLevel (86 : Fin 404) = true) ∧
    (let e : FlogEntry := ⟨0, 0, 1, 0, 0, 0, 0, 0, 0, 0⟩
     let s := { awake with nvm := { awake.nvm with flog := [e] } }
     s.nvm.stopped = false ∧ nvmInhibited s = false ∧ domInReset s 42 = false ∧ s.nvm.flog = [e]) ∧ awake.nvm.flog = [] := by decide +kernel
/-- On-die sensor 24 has TRIP_EN; its critical limit stands at 125 degrees. -/
def sensed (l : List (Nat × Word)) : State := regs ([(A.thmSctrl 24, 0xC0300F05#32), (A.thmThr 24, 0x07D00000#32)] ++ l) awake
theorem witness_SensorsWarnTripAndAnswer :
    (let s := sensed []
     aonRuns s = true ∧ sensorOn s (24 : Fin 36) = true ∧ convFits (24 : Fin 36) (.onDie 2000#16 true) = true ∧ s.thm.tripped = false ∧
       convBroken (.onDie 2000#16 true) = false ∧ bit s (A.thmSstat (24 : Fin 36)) 31 = false ∧
       convReading s (24 : Fin 36) (Config.freeWord s.free) (.onDie 2000#16 true) = 2000 ∧ signed 16 (fld s (A.thmThr (24 : Fin 36)) 31 16) ≤ 2000 ∧
       bit s (A.thmSstat (24 : Fin 36)) 30 = false ∧ bit s (A.thmSctrl (24 : Fin 36)) 30 = true) ∧
    (writeTaken awake (A.thmSctrl (24 : Fin 36)) = true ∧ writeTaken awake (A.thmThr (24 : Fin 36)) = true ∧ writeTaken awake A.thmCtrl = true ∧
      1520 ≤ signed 16 (bits 0x05F00000#32 31 16) ∧ signed 16 (bits 0x07D00000#32 31 16) ≤ 2000 ∧ ¬1520 ≤ signed 16 (bits 0x05EF0000#32 31 16) ∧
      ¬signed 16 (bits 0x07D10000#32 31 16) ≤ 2000) ∧
    aonRuns State.reset = false ∧ smbKnown (0x34#8).toNat = false ∧ smbKnown (0x33#8).toNat = true := by decide +kernel
theorem witness_RegisterAccessesFollowTheirTypes :
    (mayAccess State.reset .supervisors = false ∧ mayAccess awake .host = true ∧ regMapped (4 * (16777215 : Fin 16777216).val) = false ∧
      regMapped A.qSel = true ∧ writeTaken awake A.qSel = true ∧ isSel A.qSel = true ∧ A.qSel < 0xF00000 ∧ writeTaken State.reset A.qSel = false ∧
      A.tileEvt (11 : Nat) % 4 = 0 ∧ A.bcoSlew (23 : Nat) % 4 = 0) ∧
    (mayAccess State.reset .jtag = false ∧ writeTaken awake (0xF00000 + 4 * (9 : Fin 10).val) = true ∧ awake.sec.jtagOpen = false ∧
      mayAccess { awake with sec := { jtagOpen := true } } .jtag = true ∧ bit awake A.dbgCtrl 0 = false ∧ writeTaken awake A.secCtrl = true) ∧
    (requestBad false 0 8 = false ∧ requestBad false 4 8 = true ∧ requestBad false 0 9 = true ∧ requestBad true 0x5FFFFF 2 = true ∧
      requestBad true 0 4096 = false ∧ wholeWords 2 [none, none] = false ∧ wholeWords 0 [none, some 0#8, some 0#8, some 0#8] = false ∧
      wholeWords 0 (List.replicate 8 (some 0#8)) = true ∧ endpointUp awake = true ∧ bar2BadIn 0 4096 = none ∧ bar2BadIn 0xD000 4097 = some 0xE000 ∧
      regMapped 0 = true ∧ bar2Hole 0xDFFF = false ∧ bar2Hole 0xE000 = true) := by decide +kernel

/-! ## Witnesses: the machine -/

theorem witness_StepRunsTheFrontCommand :
    { awake with pending := [.nop 3] }.pending = .nop 3 :: [] ∧ awake.pending = [] ∧ domRuns awake 39 = true ∧ domRuns State.reset 39 = false := by
  decide +kernel
theorem witness_EveryStepKeepsTheStoresCanonical : StoresOk State.reset ∧ ∃ t, step State.reset = .next t := by
  refine ⟨?_, _, rfl⟩
  unfold StoresOk
  decide +kernel
theorem witness_GloitWordsDecodeToTheirInstructions : gopOk (.br .al 4095) = true := by decide +kernel
theorem witness_StoppedEnginesIssueNothing : issuerOf (.nop 3) = some 3 ∧ engRuns awake 3 = false := by decide +kernel

/-! ## Witnesses: payloads that the commands accept -/

/-- A topology of one stage of one cell, with one input and one output port, by Tables FM-1 to FM-6; its CRC-32C is 0x47848DB4. -/
def topoImg : List Byte :=
  natLe 4 0x4B544F50 ++ natLe 2 1 ++ natLe 2 64 ++ natLe 4 5 ++ [0#8, 1#8, 1#8, 0#8] ++ natLe 2 1 ++ natLe 2 3 ++ natLe 2 1 ++ natLe 2 1 ++
  natLe 4 64 ++ natLe 4 72 ++ natLe 4 84 ++ natLe 4 84 ++ natLe 4 100 ++ natLe 16 0 ++ natLe 4 0x47848DB4 ++
  natLe 8 (2 * 2 ^ 48 + 0xFFFF * 2 ^ 32) ++
  natLe 4 (0 * 2 ^ 18 + 1 * 2 ^ 16 + 1 * 2 ^ 13) ++ natLe 4 (1 * 2 ^ 18 + 1 * 2 ^ 16 + 2 * 2 ^ 13) ++ natLe 4 (2 * 2 ^ 18) ++
  natLe 8 0 ++ natLe 8 (2 ^ 63 + 2 ^ 28)
/-- The image with 0 in its CRC field, of which the register goes through 25 bytes at a time. -/
def topoZ : List Byte := topoImg.take 60 ++ natLe 4 0 ++ topoImg.drop 64
theorem crc_1 : (slice topoZ 0 25).foldl crc32cByte 0xFFFFFFFF#32 = 0x40894B28#32 := by decide +kernel
theorem crc_2 : (slice topoZ 25 25).foldl crc32cByte 0x40894B28#32 = 0xF3D36D5D#32 := by decide +kernel
theorem crc_3 : (slice topoZ 50 25).foldl crc32cByte 0xF3D36D5D#32 = 0xAD2D3538#32 := by decide +kernel
theorem crc_4 : (slice topoZ 75 25).foldl crc32cByte 0xAD2D3538#32 = 0xB87B724B#32 := by decide +kernel
theorem witness_FabricCommandsSubmitRequests_0 : topoError (topoImg.set 12 2#8) = some 12 := by decide +kernel
theorem topoImg_crc : crcWithout topoImg 60 = 0x47848DB4 := by
  have h : topoImg.take 60 ++ [0#8, 0#8, 0#8, 0#8] ++ topoImg.drop (60 + 4) =
      slice topoZ 0 25 ++ slice topoZ 25 25 ++ slice topoZ 50 25 ++ slice topoZ 75 25 := by decide +kernel
  rw [crcWithout, h, crc32c, List.foldl_append, List.foldl_append, List.foldl_append, crc_1, crc_2, crc_3, crc_4]
  decide
theorem topoImg_header : firstBad (topoHeaderChecks topoImg) = none := by
  unfold topoHeaderChecks
  rw [topoImg_crc]
  decide +kernel
theorem topoImg_others : (([topoReservedChecks, topoElemChecks, topoCellChecks, topoWireChecks, topoPortChecks, topoDilationChecks,
    topoBenesChecks] : List (List Byte → List Check)).findSome? fun f => firstBad (f topoImg)) = none := by decide +kernel
theorem first_good {f : List Byte → List Check} {r : List (List Byte → List Check)} {l : List Byte} (h : firstBad (f l) = none)
    (k : (r.findSome? fun f => firstBad (f l)) = none) : ((f :: r).findSome? fun f => firstBad (f l)) = none := by
  rw [List.findSome?_cons, h]
  exact k
theorem witness_FabricCommandsSubmitRequests_1 : topoError topoImg = none := by
  unfold topoError
  exact first_good topoImg_header topoImg_others
/-- The map of topology 1 with the connection of input 0 to output 0, and the empty map. -/
def mapImg (l : List Conn) : List Byte := mapImage 1 l
theorem witness_FabricCommandsSubmitRequests_2 :
    (let c := sends { op := 0x0204 } 1 0 0 0 0
     leAt (mapImg [conn1]) 4 2 = c.entry.count.toNat ∧ mapFormStatus (lab []) (mapImg [conn1]) = 0 ∧ mapConns (mapImg [conn1]) = [conn1] ∧
       firstFailing (askChecks (lab []) c.party (.replace (mapConns (mapImg [conn1])))) = (0, 0) ∧ c.party = 64 ∧ timedStatus (lab []) c = 0) ∧
    mapFormOk (mapImg []) = true ∧ mapConns (mapImg []) = [] ∧ mramStatus awake = 0 ∧ pipeIdle awake = true ∧ awake.fab.map.conns = [] ∧
    mapFormOk ((mapImg []).set 12 1#8) = false := by decide +kernel
theorem witness_FabricCommandsReadAndSet :
    (let ws := words64 (natLe 8 (connWord conn1))
     ws.map changeOf = [⟨false, conn1⟩] ∧ badIndex (fun w => decide (cut w 33 32 = 0)) ws = none ∧ 
      firstFailing (askChecks (lab []) 64 (.changes [⟨false, conn1⟩])) = (0, 0)) ∧
    badIndex (fun w => decide (w < 1024)) (entriesOf 2 [0xFF#8, 0x03#8, 0x00#8, 0x04#8]) = some 1 ∧
    badIndex (fun w => decide (w < 1024)) (entriesOf 2 [0xFF#8, 0x03#8]) = none ∧
    badIndex paramOk (words64 (natLe 8 (2 ^ 48 + 255) ++ natLe 8 (5 * 2 ^ 48 + 60000))) = none ∧
    badIndex paramOk (words64 (natLe 8 (2 ^ 48 + 256))) = some 0 ∧ recValue awake 6 0 = none ∧ hbmMap awake 0 0 = none := by decide +kernel
/-- NOP and END; the second word alone stands where no program begins with END missing. -/
theorem witness_ProgramsLoadWholeOrNotAtAll :
    (let w := natLe 8 (gencode .nop).toNat ++ natLe 8 (gencode .end_).toNat
     programFault (programWords w) = none ∧ staticCount (programWords w) ≤ 384 ∧ programFault (programWords (natLe 8 (gencode .nop).toNat)) ≠ none) ∧
    (loadSig awake (enfProg awake) 2 [] [] = 0 ∧ loadSig awake true 2 [] [] ≠ 0 ∧ engineList awake 95 = [95] ∧ domUp awake (95 / 8) = true ∧
      bankBusy awake 95 1 = false ∧ bankBusy runs 3 0 = true) ∧
    (let ok (v : Nat) : Bool := decide (cut v 31 24 < 96) && decide (cut v 23 4 = 0) && decide (cut v 1 0 ≠ 3)
     badIndex ok (entriesOf 4 [0x0D#8, 0#8, 0#8, 95#8]) = none ∧ badIndex ok (entriesOf 4 [0x0D#8, 0#8, 0#8, 96#8]) = some 0) := by decide +kernel
theorem witness_ElementCommandsAreCheckedWhole :
    (let s := lab [(0, 106, 0x3F800000#32), (0, 114, 0x3F800000#32)]
     elemStatus s 0 = 0 ∧ elemStatus s 10751 = St.elementInvalid ∧ calAccepted s 0 = true ∧ bankFree s 0 0 = true ∧ bankFree s 0 1 = false) ∧
    coefOk 0x3F000000#32 f0 0x3E000000#32 f0 fMinus1 f1 = true ∧ coefOk 0x3F000000#32 f0 0x3E000000#32 f0 f1 f1 = false ∧
    elemParamOk 109 0x49800000#32 = true ∧ elemParamOk 109 0x49800001#32 = false := by decide +kernel
/-- A group with this device alone, in a slot of 64. -/
theorem witness_HuddleCommandsOpenAndForceGroups :
    (let s := regs [(A.ptpStat, 0x28000000#32)] { awake with tim := { tick := 768, nA := 96 * 2 ^ 41 * 1000000 } }
     let c := sends { op := 0x0801 } 1 1 0 0 0
     memberRecords s 1 1 (natLe 8 (1 * 2 ^ 16) ++ natLe 8 0) = some [(0, 1)] ∧ memberRecords s 1 2 (natLe 8 (1 * 2 ^ 16)) = none ∧ freeSlot s = some 0 ∧
       commitGroupStatus s c [0] [] [] (gridAfter s (1000 * fld s A.hdlMinlead 19 0)) = 0 ∧ commitGroupStatus s c [0, 0] [] [] 0 = St.huddleGroupInvalid) := by
  decide +kernel

theorem witness_SecurityCommandsVerifyBeforeTheyAct :
    domUp awake 14 = true ∧ domUp State.reset 14 = false ∧ custKeys awake = none ∧ awake.sec.challenge = none ∧
    bit awake A.repStat repFrozen = false ∧ bit awake A.repStat repPosting = false ∧ fld awake A.repCtrl 31 16 ≠ 0 ∧
    bit (regs [(A.repStat, BitVec.twoPow 32 repFrozen)] awake) A.repStat repFrozen = true ∧ hasRight awake 64 rtObserve = true := by decide +kernel
/-! Balls by phase (Table CK-7). -/

theorem test_pins_after_power_on :
    ballFabHold State.reset 3 = .released ∧ ballFault State.reset = .released ∧ ballThermtrip State.reset = .released ∧
    ballPps State.reset = .released ∧ ballEdl State.reset 0 5 = none ∧ ballBco State.reset 0 = none := by decide

theorem test_pins_driven_and_tripped :
    ballFabHold { State.reset with lane := { State.reset.lane with tiles := [(0, { driven := true })] } } 0 = .high ∧
    ballThermtrip { State.reset with thm := { State.reset.thm with tripped := true } } = .low := by decide

/-! ## Words and values that the spec writes out -/

/-- Example of R145: `fma v2, v4, v7, v2 ?!p1` and `fcmp.gt p2, v3, #0.5`. -/
theorem test_decode_examples :
    gdecode 0x16110E2300000000#64 = some (.fma (.pred 0 true) 2 4 7 (.reg 2)) ∧
    gdecode 0x3C10C0003F000000#64 = some (.fcmpI .gt .all 2 3 0x3F000000#32) := by decide +kernel
/-- Table GI-2 by hand: END is 0x01 in the opcode field, and 0x7F is no opcode (R123). -/
theorem test_decode_opcodes : gdecode 0x0100000000000000#64 = some .end_ ∧ gdecode 0x7F00000000000000#64 = none ∧
    gdecode 0x0100000000000001#64 = none := by decide +kernel
/-- Example of R377: ENG_SPBANK of G78; example of Chapter 1: the place of E8753. -/
theorem test_example_addresses : A.engSpbank 78 = 0x295010 ∧ A.timeNsLo = 0x320010 ∧ lanePairOf 8753 = 156 ∧ slotOf 8753 = 17 ∧ 8753 / 112 = 78 ∧
    8753 % 112 = 17 := by decide +kernel
/-- Example of CONN_CHANGE: the words of T5's exchange, and the record of its second connection. -/
theorem test_conn_words :
    changeOf 0x0452C14400000000 = ⟨true, { inp := 17, out := 300, tenant := 5, cls := 0, noVerify := false, outAtten := 0, tag := 0 }⟩ ∧
    changeOf 0x0452D140FFFF0011 = ⟨false, { inp := 17, out := 301, tenant := 5, cls := 0, noVerify := false, outAtten := 0xFFFF, tag := 0x11 }⟩ ∧
    resWord State.reset { tag := 0x11, inp := 17, out := 301, lc := some 1, dark := 22 } = 0x00110452D1000016 := by decide +kernel
/-- Example of R80: H = 14,200 and L = 1,900 turn raw 8,000 into 7,937. -/
theorem test_monitor_correction :
    (let x : Slice := { started := true, high := { num := 14200 }, low := { num := 1900 } }
     x.code false 8000 0#14 = (7937#14, false)) := by decide +kernel
/-- Example of R77: n = 17.0 in the plan form gives 0x06B020C6; the Hz form of 104,500.0 gives 112,206,021. -/
theorem test_pilot_frequency : toneFreq awake 8753 0x41880000#32 .pilotPlan = some 0x06B020C6 ∧
    toneFreq awake 8753 0x47CC1A00#32 (.hz true) = some 112206021 := by decide +kernel
/-- Example of the PI loop: u = 0.25439453125 V is drive code 8,336 in the 1.0 V range. -/
theorem test_drive_code : driveCode true 0x3E824000#32 = 8336 := by decide +kernel
/-- CRC-32C of "123456789" is 0xE3069283; CRC-16/CCITT-FALSE of it is 0x29B1. -/
theorem test_crcs : crc32c [0x31#8, 0x32#8, 0x33#8, 0x34#8, 0x35#8, 0x36#8, 0x37#8, 0x38#8, 0x39#8] = 0xE3069283#32 ∧
    crc16 ((List.range 72).map fun i => (0x313233343536373839#72).getMsbD i) = 0x29B1#16 := by decide +kernel

/-! ## Effects of single commands -/

/-- Engine 3 runs with scalar register 1 and 2, and lane 5 of vector registers 0 to 3, at these values. -/
def scalars (a b : Word) : State := (Act.seq (setSreg 3 1 a) (setSreg 3 2 b)).run runs
def lane5 (a b c d : Word) : State := (Act.all [setVreg 3 0 5 a, setVreg 3 1 5 b, setVreg 3 2 5 c, setVreg 3 3 5 d]).run runs
theorem test_add_wraps : sreg (after (.add 3 4 1 (.reg 2)) (scalars 0xFFFFFFFF#32 2#32)) 3 4 = 1#32 := by decide +kernel
theorem test_sub_imm : sreg (after (.sub 3 1 1 (.imm 1#32)) (scalars 0#32 0#32)) 3 1 = 0xFFFFFFFF#32 := by decide +kernel
theorem test_mul_low : sreg (after (.mul 3 4 1 (.reg 2)) (scalars 0x10001#32 0x10000#32)) 3 4 = 0x10000#32 := by decide +kernel
theorem test_slt_signed : sreg (after (.slt 3 4 1 (.reg 2)) (scalars 0xFFFFFFFF#32 1#32)) 3 4 = 1#32 ∧
    sreg (after (.sltu 3 4 1 (.reg 2)) (scalars 0xFFFFFFFF#32 1#32)) 3 4 = 0#32 := by decide +kernel
theorem test_sar_copies_sign : sreg (after (.sar 3 4 1 (.reg 2)) (scalars 0x80000000#32 36#32)) 3 4 = 0xF8000000#32 ∧
    sreg (after (.shr 3 4 1 (.imm 4)) (scalars 0x80000000#32 0#32)) 3 4 = 0x08000000#32 := by decide +kernel
theorem test_shl_low_bits : sreg (after (.shl 3 4 1 (.reg 2)) (scalars 1#32 33#32)) 3 4 = 2#32 := by decide +kernel
/-- Example of the PI loop: e = 0.4140625 - 0.40625, then I and u. -/
theorem test_fsub_pi : vreg (after (.fsub 3 .all 7 0 (.reg 1)) (lane5 0x3ED40000#32 0x3ED00000#32 0#32 0#32)) 3 7 5 = 0x3C000000#32 := by decide +kernel
theorem test_fma_pi : vreg (after (.fma 3 .all 2 0 1 (.reg 2)) (lane5 0x3D800000#32 0x3C000000#32 0x3E800000#32 0#32)) 3 2 5 = 0x3E804000#32 ∧
    vreg (after (.fma 3 .all 8 0 1 (.reg 2)) (lane5 0x3F000000#32 0x3C000000#32 0x3E804000#32 0#32)) 3 8 5 = 0x3E824000#32 := by decide +kernel
theorem test_fadd_flushes : vreg (after (.fadd 3 .all 4 0 (.reg 1)) (lane5 0x007FFFFF#32 0x80000000#32 0#32 0#32)) 3 4 5 = 0#32 := by decide +kernel
theorem test_fmul_nan : vreg (after (.fmul 3 .all 4 0 (.imm 0#32)) (lane5 0x7F800000#32 0#32 0#32 0#32)) 3 4 5 = 0x7FC00000#32 ∧
    bit (after (.fmul 3 .all 4 0 (.imm 0#32)) (lane5 0x7F800000#32 0#32 0#32 0#32)) (A.engEvt 3) 1 = true := by decide +kernel
theorem test_fmin_zeros : vreg (after (.fmin 3 .all 4 0 (.reg 1)) (lane5 0#32 0x80000000#32 0#32 0#32)) 3 4 5 = 0x80000000#32 := by decide +kernel
theorem test_fclamp_crossed : vreg (after (.fclamp 3 .all 4 0 1 (.reg 2)) (lane5 0x3F800000#32 0x40400000#32 0x40000000#32 0#32)) 3 4 5 = 0x40000000#32 := by
  decide +kernel
/-- R127's table: FRCP(2^126) = 2^-126, and 1/0 is infinity; FRSQ(4) = 0.5. -/
theorem test_frcp_edge : vreg (after (.frcp 3 .all 4 0) (lane5 0x7E800000#32 0#32 0#32 0#32)) 3 4 5 = 0x00800000#32 ∧
    vreg (after (.frcp 3 .all 4 0) (lane5 0x80000000#32 0#32 0#32 0#32)) 3 4 5 = 0xFF800000#32 := by decide +kernel
theorem test_frsq : vreg (after (.frsq 3 .all 4 0) (lane5 0x40800000#32 0#32 0#32 0#32)) 3 4 5 = 0x3F000000#32 ∧
    vreg (after (.frsq 3 .all 4 0) (lane5 0xBF800000#32 0#32 0#32 0#32)) 3 4 5 = 0x7FC00000#32 := by decide +kernel
theorem test_fcmp_unordered : preg (after (.fcmp 3 .ne .all 2 0 1) (lane5 0x7FC00000#32 0#32 0#32 0#32)) 3 2 = 0x0020#16 ∧
    preg (after (.fcmp 3 .eq .all 2 0 1) (lane5 0#32 0x80000000#32 0#32 0#32)) 3 2 = 0xFFFF#16 := by decide +kernel
theorem test_vidx_group : vreg (after (.vidx 3 .all 4) ((updEngN 3 fun x => { x with gb := 1, inBody := true }).run runs)) 3 4 1 = 0x41880000#32 := by
  decide +kernel
theorem test_gnext_loops : (engOf (after (.gnext 3) ((updEngN 3 fun x => { x with gb := 5, inBody := true }).run runs)) 3).gb = 6 ∧
    (engOf (after (.gnext 3) ((updEngN 3 fun x => { x with gb := 6, inBody := true }).run runs)) 3).gb = 0 := by decide +kernel
theorem test_store_protected : bit (after (.st 3 .all 0 (104 : Fin 128)) runs) (A.engEvt 3) 5 = true ∧
    lsmWord (after (.st 3 .all 0 (103 : Fin 128)) (lane5 9#32 0#32 0#32 0#32)) 3 5 103 = 9#32 := by decide +kernel
/-- Example of R89's budget: at 21 channels of 0xC000 in the 150 mA range, the 22nd may be raised to 0x4000 and not to 0x4001. -/
def budget : State := regs (((List.range 24).flatMap fun b => [(A.bcoTarget b, if b < 21 then 0xC000#32 else 0#32),
  (A.bcoCtrl b, if b < 22 then 7#32 else 4#32), (A.bcoStat b, 0#32), (A.bcoOut b, 0#32)]) ++ (List.range 12).map fun t => (A.tileStat t, 0#32)) awake
theorem test_bias_budget : rd (after (.bcoTargetWrite 21 0x4000) budget) (A.bcoTarget 21) = 0x4000#32 ∧
    bit (after (.bcoTargetWrite 21 0x4000) budget) (A.bcoStat 21) 1 = false := by decide +kernel
theorem test_bias_budget_exceeded : rd (after (.bcoTargetWrite 21 0x4001) budget) (A.bcoTarget 21) = 0#32 ∧
    bit (after (.bcoTargetWrite 21 0x4001) budget) (A.bcoStat 21) 1 = true := by decide +kernel
/-- R310: with HBM_APER = 10 the host scratch starts at offset 0x44000000 of the window. -/
theorem test_aperture_scratch :
    (let s := regs [(A.hbmAper, 10#32)] awake
     hbmAt (after (.hbmApertureWrite 0x11000000 ⟨0xC3A5#32, 1#4⟩) s) 0x544000000 2 = [0xA5#8, 0#8] ∧
     bit (after (.hbmApertureWrite 0x10FFFFFF ⟨0xA5#32, 15#4⟩) s) A.hbmEvt 6 = true) := by decide +kernel
/-- Example of R299: Q_APPLY clips 12,000 tokens to the 4,096 bytes of the new burst. -/
theorem test_q_apply_clips :
    (let s := { regs [(A.queueOf 0 1, 1#32), (A.queueOf 0 2, 4096#32), (A.queueOf 0 3, 10#32), (A.queueOf 0 4, 16384#32)] awake with
       net := { queues := [(0, { tok := 6144 * 12000 })] } }
     (egQueue (after .qApply s) 0).tok = 6144 * 4096) := by decide +kernel
/-- Example of R346: the first UP_CRC of tile 9, source 160, sets FLAG with nothing applied. -/
theorem test_first_up_crc : srcFlag (after (.umpireEvent { src := 160 }) awake) 160 = true ∧ srcSevere (after (.umpireEvent { src := 160 }) awake) 160 = false := by
  decide +kernel
/-- Table FT-8: code 0x00 answers 0x96, with the PEC of 98 00 99 96; 0x07 is not listed. -/
theorem test_smbus_id : (after .smbDeviceId (regs [(A.thmSmb, 0x4C#32)] awake)).outs = [.smbByte 0x96, .smbPec 0x51#8] ∧ (after (.smbRefused 0x07#8 false) awake).outs = [.smbNack] := by decide +kernel
theorem test_unmapped_read : (after (.loWordReadLatch .host 16777215) awake).outs = [.readData 0#32] ∧
    fld (after (.loWordReadLatch .host 16777215) awake) A.idBadcnt 15 0 = 1 := by decide +kernel
theorem test_step_idles : (match step awake with | .next t => t.clk.mono == 1 && t.tim.tick == 1 | _ => false) = true := by decide +kernel
theorem test_reset_tick_stands : (match step State.reset with | .next t => t.clk.mono == 1 && t.tim.tick == 0 | _ => false) = true := by decide +kernel
/-! ## Witnesses of single hypotheses -/

theorem witness_EngineFramesBegin : schedulerRuns awake = true ∧ inSafe awake = false ∧ awake.thm.tripped = false ∧
    schedulerRuns State.reset = false := by decide +kernel
theorem witness_EditsTakeEffect : awake.pipe.batch = none ∧ awake.pipe.cur = none ∧ awake.pipe.edits = [] ∧
    (committing (commit1 .armed)).pipe.cur.isSome = true := by decide +kernel
/-! ## Witnesses: times, strobes, crossings, records -/

theorem witness_TimesAndStrobes :
    frameOver awake 0 = true ∧ frameOver { awake with lane := { awake.lane with frameDue := 9 } } 8 = false ∧
    mayStrobe awake = true ∧ mayStrobe (regs [(A.umpStat, 0x80000000#32)] awake) = false ∧
    dueIn awake 1 1000 < 0 ∧ 0 ≤ dueIn awake 5 1000 ∧ dueBy awake 0 0 = true ∧ dueBy awake 1 0 = false ∧ revertDue awake 1 = true ∧
    schedReached awake 0 = true ∧ schedReached awake 1 = false ∧ tellsIndex (.entries 0 1 []) = false := by decide +kernel
theorem witness_RecordsAndChannels :
    recUnreadable awake 2 1 = false ∧ readable awake [(1, 0), (2, 0), (2, 1)] = true ∧ mramWritable awake = true ∧ awake.nvm.retire = [] ∧
    (let s := { awake with mramBad := (List.range 128).flatMap fun i => [slotBase 2 1 0 / 8 + i, slotBase 2 1 1 / 8 + i] }
     readable s [(2, 1)] = false ∧ readable s [(2, 2)] = true) ∧
    (let s := regs [(A.msStat 3, 2#32), (A.msCtrl 3, 1#32)] awake
     secureUp s 3 = true ∧ liveSa { s with net := { macs := [(3, { scs := [{ sci := 9, sas := [(2, 100)] }] })] } } 3 9 2 = some 100) ∧
    longestWindow awake 0 7 = none ∧ requestWords 8 (List.replicate 8 (some 1#8)) = [(8, 0x01010101#32), (12, 0x01010101#32)] := by decide +kernel
/-- R4: an aligned 8-byte request is two 32-bit accesses, the lower first. -/
theorem test_wide_request :
    (after (.badAccess false false 0xFFFFFF0#32 8 []) awake).outs = [] ∧
    (after (.badAccess false false 0x3FFFFF8#32 8 (List.replicate 8 (some 0#8))) awake).outs = [.readData 0#32, .readData 0#32] ∧
    fld (after (.badAccess false false 0x3FFFFF8#32 8 (List.replicate 8 (some 0#8))) awake) A.idBadcnt 15 0 = 2 := by decide +kernel
/-- R376: a BAR0 write with a byte disabled performs nothing and is recorded. -/
theorem test_partial_write :
    (let s := after (.badAccess true false 0x2004#32 4 [some 1#8, none, some 0#8, some 0#8]) awake
     rd s A.idBadofs = 0x2004#32 ∧ bit s A.idBadaddr 30 = true) := by decide +kernel
/-- R334: a domain whose CLK_GATE bit stands shows GATED only while idle; a wake makes it wait. -/
theorem test_gating_shows :
    (let s := after (.clkGateWrite 44 true) awake
     clkGated s 44 = true ∧ clkGated (regs [(A.ethCtrl 0, 1#32)] s) 44 = false ∧ clkGated (after (.domainWake 44) s) 44 = false ∧
       clkGated (after (.domainWake 44) (after (.domainWake 44) s)) 44 = true) := by decide +kernel
/-- R358: a trip outlasts the fall of a part of the supplies and no full power cycle. -/
theorem test_trip_latch :
    (let s := { awake with thm := { tripped := true } }
     (after (.powerOnReset .part false) s).thm.tripped = true ∧ (after (.powerOnReset .full true) s).thm.tripped = false) := by decide +kernel
end Sys2Proof.Tests
end

namespace Sys2Proof.Machine

/-! ## Gloit engines: what the engine updates of the state leave to be read -/

section engineUpdates
variable (s : State)

theorem run_setSreg (e d : Nat) (v : Word) : (setSreg e d v).run s =
    { s with eng := { s.eng with sregs := sset (fun _ => 0#32) s.eng.sregs (32 * e + d) v } } := rfl

theorem run_setPreg (e d : Nat) (v : BitVec 16) : (setPreg e d v).run s =
    { s with eng := { s.eng with pregs := sset (fun _ => 0#16) s.eng.pregs (8 * e + d) v } } := rfl

theorem run_updEngN (e : Nat) (f : Eng → Eng) : (updEngN e f).run s =
    { s with eng := { s.eng with engs := smod (fun _ => {}) s.eng.engs e f } } := rfl

/-- A scalar register after a write of one: the keys of different registers differ (R118). -/
theorem sreg_setSreg (e : Fin 96) (d : Fin 32) (v : Word) (x : Fin 96) (r : Fin 32) :
    sreg ((setSreg e d v).run s) x r = if x = e ∧ r = d then v else sreg s x r := by
  have key : 32 * e.val + d.val = 32 * x.val + r.val ↔ x = e ∧ r = d := by
    simp only [Fin.ext_iff]; omega
  simp only [sreg, run_setSreg, sget_sset, key]

/-- A predicate register after a write of one. -/
theorem preg_setPreg (e : Fin 96) (d : Fin 8) (v : BitVec 16) (x : Fin 96) (r : Fin 8) :
    preg ((setPreg e d v).run s) x r = if x = e ∧ r = d then v else preg s x r := by
  have key : 8 * e.val + d.val = 8 * x.val + r.val ↔ x = e ∧ r = d := by
    simp only [Fin.ext_iff]; omega
  simp only [preg, run_setPreg, sget_sset, key]

/-- An engine's sequencing after an update of one engine's. -/
theorem engOf_updEngN (e : Nat) (f : Eng → Eng) (x : Nat) :
    engOf ((updEngN e f).run s) x = if x = e then f (engOf s e) else engOf s x := by
  simp only [engOf, run_updEngN, smod, sget_sset, eq_comm]

@[simp] theorem sreg_updEngN (e : Nat) (f : Eng → Eng) (x r : Nat) : sreg ((updEngN e f).run s) x r = sreg s x r := rfl
@[simp] theorem preg_updEngN (e : Nat) (f : Eng → Eng) (x r : Nat) : preg ((updEngN e f).run s) x r = preg s x r := rfl
@[simp] theorem vreg_updEngN (e : Nat) (f : Eng → Eng) (x r l : Nat) : vreg ((updEngN e f).run s) x r l = vreg s x r l := rfl

end engineUpdates

/-! ## Lanes under a mask -/

section lanes
variable (s : State) (e : Fin 96) (m : Mask)

theorem mem_lanesOn (l : Nat) : l ∈ lanesOn s e m ↔ l < 16 ∧ (maskOf s e m).getLsbD l = true := by
  simp [lanesOn]

/-- Bits collected one by one, over those already there. -/
theorem getLsbD_foldl_twoPow (ls : List Nat) (acc : BitVec 16) {i : Nat} (hi : i < 16) :
    (ls.foldl (fun a j => a ||| BitVec.twoPow 16 j) acc).getLsbD i = (acc.getLsbD i || decide (i ∈ ls)) := by
  induction ls generalizing acc with
  | nil => simp
  | cons j r ih =>
    rw [List.foldl_cons, ih, BitVec.getLsbD_or, BitVec.getLsbD_twoPow]
    rcases eq_or_ne j i with rfl | hj
    · simp [hi]
    · simp [hj, hj.symm]

theorem getLsbD_laneSet (ls : List Nat) {i : Nat} (hi : i < 16) : (laneSet ls).getLsbD i = decide (i ∈ ls) := by
  rw [laneSet, getLsbD_foldl_twoPow ls _ hi, BitVec.getLsbD_zero, Bool.false_or]

/-- Writes of `f i` at `b + i`, for each `i` of a list: such a key reads as `f` says, every other key as before. -/
theorem sget_foldl_sset {α : Type} [DecidableEq α] (d : Nat → α) (b : Nat) (f : Nat → α) (ls : List Nat) (st : SMap α) (k : Nat) :
    sget d (ls.foldl (fun v i => sset d v (b + i) (f i)) st) k = if b ≤ k ∧ k - b ∈ ls then f (k - b) else sget d st k := by
  induction ls generalizing st with
  | nil => simp
  | cons i r ih =>
    rw [List.foldl_cons, ih, sget_sset]
    by_cases hi : b + i = k
    · have hk : k - b = i := by omega
      have hb : b ≤ k := by omega
      simp [hi, hk, hb]
    · have hk : b ≤ k → k - b ≠ i := by omega
      by_cases hb : b ≤ k <;> simp [hi, hb, hk]

/-- A masked copy gives the enabled lanes of Vd their values and leaves every other lane and register (R122). -/
theorem lanesSet_vcopy (d : Fin 32) (g : State → Nat → Word) :
    LanesSet e m d (fun l => g s l) s ((vcopy e m d g).run s) := by
  intro x r l
  have key : (32 * e.val + d) * 16 ≤ (32 * x.val + r) * 16 + l ∧
      (32 * x.val + r) * 16 + l - (32 * e.val + d) * 16 ∈ lanesOn s e m ↔
      x = e ∧ r = d ∧ (maskOf s e m).getLsbD l = true := by
    rw [mem_lanesOn]
    constructor
    · rintro ⟨hle, hlt, hm⟩
      obtain rfl : x = e := by omega
      obtain rfl : r = d := by omega
      exact ⟨rfl, rfl, by simpa using hm⟩
    · rintro ⟨rfl, rfl, hm⟩
      simpa using hm
  have hrun : vreg ((vcopy e m d g).run s) x r l = sget (fun _ => 0#32)
      ((lanesOn s e m).foldl (fun v i => sset (fun _ => 0#32) v ((32 * e.val + d) * 16 + i) (g s i)) s.eng.vregs)
      ((32 * x.val + r) * 16 + l) := by
    rw [← List.foldl_map (f := fun i => (i, g s i))
      (g := fun v (p : Nat × Word) => sset (fun _ => 0#32) v ((32 * e.val + d) * 16 + p.1) p.2)]
    rfl
  rw [hrun, sget_foldl_sset]
  simp only [key]
  split
  · next h => obtain ⟨rfl, rfl, -⟩ := h; simp
  · rfl

end lanes

/-! ## An issued instruction -/

section issued
variable {s : State} {e : Fin 96} {a : Act} {c : Instr}

/-- An engine that issues does the instruction's effect, then moves its index and cycle on. -/
theorem run_issue (hi : issues s e = true) (cost : Nat) : (issue e cost a).run s =
    (updEngN e fun x => { x with pc := x.pc + 1, cycle := x.cycle + cost }).run (a.run s) := by
  simp [issue, hi]

/-- An effect that leaves the engines' sequencing: the index and the cycles move as for the instruction alone (R119). -/
theorem issued_of_engs_eq {cost : Nat} (ha : (a.run s).eng.engs = s.eng.engs) :
    Issued e cost s ((updEngN e fun x => { x with pc := x.pc + 1, cycle := x.cycle + cost }).run (a.run s)) := by
  intro x
  have heng (k : Nat) : engOf (a.run s) k = engOf s k := by unfold engOf; rw [ha]
  simp only [engOf_updEngN, heng]

/-- An instruction whose effect is a write of Sd. -/
theorem completes_scalarSet (hi : issues s e = true) {d : Fin 32} {v : Word}
    (hx : exec c s = (issue e 1 a).next s) (ha : a.run s = (setSreg e d v).run s) : Completes c s (ScalarSet e d v s) := by
  refine ⟨_, hx, ?_⟩
  rw [run_issue hi, ha]
  exact ⟨issued_of_engs_eq rfl, fun x r => by rw [sreg_updEngN, sreg_setSreg], rfl⟩

/-- An instruction whose effect is a write of Pd. -/
theorem completes_predSet (hi : issues s e = true) {d : Fin 8} {v : BitVec 16}
    (hx : exec c s = (issue e 1 a).next s) (ha : a.run s = (setPreg e d v).run s) : Completes c s (PredSet e d v s) := by
  refine ⟨_, hx, ?_⟩
  rw [run_issue hi, ha]
  exact ⟨issued_of_engs_eq rfl, fun x r => by rw [preg_updEngN, preg_setPreg], rfl⟩

/-- An instruction whose effect is a masked copy into Vd. -/
theorem completes_vectorCopied (hi : issues s e = true) {m : Mask} {d : Fin 32} {g : State → Nat → Word} {f : Fin 16 → Word}
    (hx : exec c s = (issue e 1 (vcopy e m d g)).next s) (hf : ∀ l : Fin 16, g s l = f l) :
    Completes c s (VectorCopied e m d f s) := by
  obtain rfl : (fun l : Fin 16 => g s l) = f := funext hf
  refine ⟨_, hx, ?_⟩
  rw [run_issue hi]
  exact ⟨issued_of_engs_eq rfl, fun x r l => by rw [vreg_updEngN, lanesSet_vcopy], rfl⟩

/-- An instruction whose effect is a masked compare into Pd: enabled lanes take the outcome, the others keep their bit (R128). -/
theorem completes_masked_predSet (hi : issues s e = true) {m : Mask} {d : Fin 8} {g : State → Nat → Bool} {f : Fin 16 → Bool}
    (hx : exec c s = (issue e 1 (pmasked e m d g)).next s) (hf : ∀ l : Fin 16, g s l = f l) :
    ∃ v : BitVec 16, Completes c s (PredSet e d v s) ∧
      ∀ l : Fin 16, v.getLsbD l = if (maskOf s e m).getLsbD l then f l else (preg s e d).getLsbD l := by
  refine ⟨_, completes_predSet hi hx rfl, fun l => ?_⟩
  rw [BitVec.getLsbD_or, BitVec.getLsbD_and, BitVec.getLsbD_not, getLsbD_laneSet _ l.isLt]
  by_cases hm : (maskOf s e m).getLsbD l = true
  · simp only [List.mem_filter, mem_lanesOn, hm, hf, l.isLt]; simp
  · simp only [List.mem_filter, mem_lanesOn, hm, l.isLt]; simp

end issued

/-! ## The statements -/

/-- Settles O1: each instruction's effect is one write of Sd, whose value the model's form of it gives; SLT and SLTU compare as `slt` and `ult`. -/
theorem scalarInstructionsSetOneRegister : Obligations.ScalarInstructionsSetOneRegister := by
  intro s e d a b n w sel hi
  refine ⟨?add, ?sub, ?and, ?or, ?xor, ?shl, ?shr, ?sar, ?mul, ?slt, ?sltu, ?movi, ?rdsr⟩
  case slt => exact completes_scalarSet hi rfl (by simp [BitVec.slt])
  case sltu => exact completes_scalarSet hi rfl (by simp [BitVec.ult])
  all_goals exact completes_scalarSet hi rfl rfl

/-- Settles O2: whole-mask instructions write Pd, FCMP writes it under the mask, the copies write lanes under the mask, PMOVS and VEXT write Sd. -/
theorem predicatesAndCopiesSetTheirLanes : Obligations.PredicatesAndCopiesSetTheirLanes := by
  constructor
  · intro s e d a b v x y m cc w hi
    refine ⟨?pand, ?por, ?pxor, ?pandn, ?pset, ?pmovp, ?fcmp, ?fcmpI⟩
    case fcmp => exact completes_masked_predSet hi rfl fun _ => rfl
    case fcmpI => exact completes_masked_predSet hi rfl fun _ => rfl
    all_goals exact completes_predSet hi rfl rfl
  · intro s e m d a b c w l hi
    refine ⟨?vmov, ?vmovI, ?sel, ?vbc, ?pmovs, ?vext⟩
    case pmovs => exact completes_scalarSet hi rfl rfl
    case vext => exact completes_scalarSet hi rfl rfl
    all_goals exact completes_vectorCopied hi rfl fun _ => rfl

end Sys2Proof.Machine
